-- ==== Sys2Proof/Word.lean ====
section
/-!
DEFINITION. The word types of the Rhapor GW-10 (spec 00 R4, 11 R136 R172 R174): 64-bit scalars, 128-bit vector
registers, 8-bit bytes, 32-bit instruction words.
-/
namespace Sys2Proof

/-- A scalar register's value (R172). -/
abbrev Word := BitVec 64

/-- One byte of memory. -/
abbrev Byte := BitVec 8

/-- An instruction word (R163). -/
abbrev IWord := BitVec 32

/-- A vector register's 128 bits (R174). -/
abbrev Quad := BitVec 128

/-- The 1,024 bits of a 128-byte line, byte 0 in the low bits (R81). -/
abbrev LineBits := BitVec 1024

end Sys2Proof
end

