-- ==== Sys2Proof/Config.lean ====
section
/-!
DEFINITION. What the package's makers fix and the spec does not give, and the free values: constants without a body, so
that nothing can be proved of a particular value of them (logs 7, 8, 9).
-/
namespace Sys2Proof

/-- Byte `off` of the decryption of a physical line's ciphertext under a key it was not sealed under (05 R107): the key's
domain and generation, the line's number, the key it was sealed under (0 for none), the stored bytes. -/
opaque Config.leftover (dom gen line sealedUnder : Nat) (stored : LineBits) (off : Nat) : Byte

/-- A byte read from memory outside the package (a host window or the CXL fabric window, 05 R77 R78): one fresh value for
each draw. -/
opaque Config.hostByte (draw pa : Nat) : Byte

/-- A choice the spec leaves to a Reeve job (19 R292 R293), for byte `p` in copy order: whether a byte past those a failed job
completed has landed; whether a byte took what its source held before the job or what it held as the job reached it. -/
opaque Config.copyChoice (draw p : Nat) : Bool

/-- What a failed CPYPL job may have left at byte `p` of its tile (19 R293). -/
opaque Config.tileByte (draw p : Nat) : Byte

/-- An interval the correctly rounded result of 2^x or log2 x is in, where the model's bracket does not decide the
rounding (09 R162): the function (0 exp2, 1 log2), the operand's bits, the two candidates. -/
opaque Config.roundUp (fn : Nat) (bits : Nat) : Bool

/-- The KMAC256 seal of a context image under the seal key of a domain's generation (25 R351). -/
opaque Config.seal (dom gen : Nat) (image : List Byte) : BitVec 256

/-- The signature that a firmware image carries verifies under the public key it carries (25 R362). -/
opaque Config.verifies (image key : List Byte) : Bool

/-- The digest of the firmware's public key that is fused in ROM, and the fused counter of its security version (25 R362). -/
opaque Config.fusedKey : BitVec 256
opaque Config.fusedVersion : Nat

/-- The entry of a kernel's image, at which its first activation starts (31 R400), by domain. -/
opaque Config.kernelEntry (dom : Nat) : Word

/-- The frames that the image of a kernel's domain is loaded into (31 R400), what the loading leaves in a physical line of
them, and the TROOT it leaves (log 91). -/
opaque Config.kernelFrames (dom : Nat) (image : List Byte) : List Nat
/-- See `Config.kernelFrames`. -/
opaque Config.kernelLine (dom : Nat) (image : List Byte) (line : Nat) : LineBits
/-- See `Config.kernelFrames`. -/
opaque Config.kernelRoot (dom : Nat) (image : List Byte) : Word

/-- A Lanyard key derived from another (29 R391). -/
opaque Config.nextKey (key : BitVec 256) : BitVec 256

/-- The ML-DSA-44 signature by the attestation key of the current reset (25 R360 R361 R363), its 2,420 bytes. -/
opaque Config.signature (ms0 : BitVec 256) (bytes : List Byte) (off : Nat) : Byte

/-- The attestation public key and its certificate by the device identity key (25 R361), by byte offset from 0x1000. -/
opaque Config.attestation (ms0 : BitVec 256) (off : Nat) : Byte

/-- The key a Lanyard port agrees on at training, for each slot and direction (29 R390). -/
opaque Config.trainedKey (port draw : Nat) (slot outward : Bool) : BitVec 256

/-- Bytes of a context image whose layout the spec does not give (21 R321): `part` 0 the Splice part, 1 the Reeve part,
2 the tag states of the actors; byte `off` of the part in the image written as number `n`. -/
opaque Config.imageByte (part n off : Nat) : Byte

/-- The set of its home slice that a line lies in, modulo 4,096 (05 R86: the spec gives the number of sets and no index). -/
opaque Config.setOf (dom vline : Nat) : Nat

/-- A choice among things the spec names no order of, such as the line that leaves a full cache: the chosen one's place in
the list, modulo its length. -/
opaque Config.pick (draw : Nat) : Nat

/-- A word whose value the spec does not state: one fresh value for each draw. -/
opaque Config.openValue (draw : Nat) : Word

end Sys2Proof
end

