-- ==== Sys2Proof/Syntax.lean ====
section
/-!
DEFINITION. The instructions and the device's own steps: one constructor of `Instr` for each row of
spec/opcode_table.json. The first part are the words of the opcode map (11 R168); the last part are the steps of the
device that have no word (95), which the machine's agenda names.
-/
namespace Sys2Proof

/-- A scalar register number s0-s63 (R166). -/
abbrev SReg := BitVec 6
/-- A vector register number v0-v31 (R166). -/
abbrev VNum := BitVec 5
/-- A predicate register number p0-p7 (R166). -/
abbrev PNum := BitVec 3
/-- A ring handle number h0-h15 (R166). -/
abbrev HNum := BitVec 4
/-- A message tag number 0-15 (R248). -/
abbrev TagNum := BitVec 4
/-- A code-table slot number 0-3 (R148). -/
abbrev SlotNum := BitVec 2

/-- The format tags of vector registers (R174). -/
inductive Tag where
  | none | i8 | n8 | i16 | n16 | i32 | n32 | i64 | n64
  | f16 | bf16 | f32 | f64 | c8 | c6 | c4
  deriving DecidableEq, Repr

/-- The scopes (R112). -/
inductive Scope where
  | core | cluster | die | package | system
  deriving DecidableEq, Repr

/-- Access width of LDA and STL (R168). -/
inductive Width where
  | b | h | w | d
  deriving DecidableEq, Repr

/-- Width of AMO, RED and CAS (R258). -/
inductive AWidth where
  | w | d
  deriving DecidableEq, Repr

/-- Order suffix of AMO and RED (R168). -/
inductive Order where
  | relaxed | acq | rel | acqrel
  deriving DecidableEq, Repr

/-- Kind of a prefetch (R214). -/
inductive PrefKind where
  | read | write | l2
  deriving DecidableEq, Repr

/-- Rounding argument of VRND (R235). -/
inductive RndArg where
  | rne | rtz | rdn | rup | fmode
  deriving DecidableEq, Repr

/-- Target of MRDACC (R286). -/
inductive AccTarget where
  | f32 | bf16 | f16 | i32 | i8
  | code (slot : SlotNum)
  deriving DecidableEq, Repr

/-- Width operand of CTLDI's offset-integer table (R242). -/
inductive CodeWidth where
  | c8 | c6 | c4
  deriving DecidableEq, Repr

/-- The system registers SYSR and SYSW name (R180). -/
inductive SysReg where
  | epc | ecause | eval | ebt | eds | fmode | fstat
  | lc0 | ls0 | le0 | lc1 | ls1 | le1
  | time | ctxid | troot | pbudget
  | bpa (i : BitVec 3) | wpa (i : BitVec 2) | wpm (i : BitVec 2) | holdc
  deriving DecidableEq, Repr

/-- What an outside host asks for with one CXL.mem request of 64 bytes (05 R109 R110): a read that holds nothing, a
read that holds the line clean, a read that holds it for modification, a write. -/
inductive CxlOp where
  | read | readShared | readOwn
  | write (data : BitVec 512)
  deriving DecidableEq, Repr

/-- The kinds of flit (29 R387). -/
inductive FlitKind where
  | data | marker | retry | idle
  deriving DecidableEq, Repr

/-- A flit as a port sees it (29 R387). `body` is its plaintext, `iv` the IV it is encrypted under (R390), `auth` says whether
its GCM tag verifies under that IV and the key slot it names. -/
structure Flit where
  ctr : BitVec 32
  lseq : BitVec 16
  ackseq : BitVec 16
  ing : BitVec 8
  resync : Bool
  last : Bool
  slot : Bool
  kind : FlitKind
  bytes : Nat
  body : List Byte
  reservedZero : Bool
  iv : BitVec 96
  auth : Bool
  deriving DecidableEq, Repr

/-- A register outside the core that management software writes and that has no row of its own (31 R406, 29 R381,
05 R87): BAR2 of physical function 0 or 1, BAR0 of a function. -/
inductive RegSpace where
  | bar2 (pf : Bool)
  | bar0 (fn : Nat)
  deriving DecidableEq, Repr

/-- One measured energy of R339 with the cost it is measured for. -/
inductive SharedCost where
  | dieDram (die energy : Nat)
  | secondTier (energy : Nat)
  | slice (die slice energy : Nat)
  | idleCore (core energy : Nat)
  | idleLinks (energy : Nat)
  deriving DecidableEq, Repr

/-- A firmware stage's image (25 R362): its bytes, the public key it carries, its security version. -/
structure Firmware where
  image : List Byte
  key : List Byte
  version : Nat
  deriving DecidableEq, Repr

/-- The instructions and device steps of spec/opcode_table.json. -/
inductive Instr where
  -- major 0x01: register arithmetic and logic (R204)
  | add (d a b : SReg) | sub (d a b : SReg) | and (d a b : SReg) | or (d a b : SReg)
  | xor (d a b : SReg) | andn (d a b : SReg) | sll (d a b : SReg) | srl (d a b : SReg)
  | sra (d a b : SReg) | rol (d a b : SReg) | ror (d a b : SReg) | slt (d a b : SReg)
  | sltu (d a b : SReg) | min (d a b : SReg) | max (d a b : SReg) | minu (d a b : SReg)
  | maxu (d a b : SReg) | seq (d a b : SReg) | mul (d a b : SReg) | mulh (d a b : SReg)
  | mulhu (d a b : SReg) | mulhsn (d a b : SReg) | div (d a b : SReg) | divu (d a b : SReg)
  | rem (d a b : SReg) | remu (d a b : SReg)
  | clz (d a : SReg) | ctz (d a : SReg) | popc (d a : SReg) | brev (d a : SReg) | bswap (d a : SReg)
  | sextB (d a : SReg) | sextH (d a : SReg) | sextW (d a : SReg)
  | zextB (d a : SReg) | zextH (d a : SReg) | zextW (d a : SReg)
  | lea1 (d a b : SReg) | lea2 (d a b : SReg) | lea4 (d a b : SReg) | lea8 (d a b : SReg)
  -- majors 0x02-0x0A: immediates (R205 R206 R207)
  | addi (d a : SReg) (imm : BitVec 13) | andi (d a : SReg) (imm : BitVec 13)
  | ori (d a : SReg) (imm : BitVec 13) | xori (d a : SReg) (imm : BitVec 13)
  | slti (d a : SReg) (imm : BitVec 13) | sltin (d a : SReg) (imm : BitVec 13)
  | slli (d a : SReg) (n : BitVec 6) | srli (d a : SReg) (n : BitVec 6)
  | srai (d a : SReg) (n : BitVec 6) | rori (d a : SReg) (n : BitVec 6)
  | liu (d : SReg) (imm : BitVec 19) | addpc (d : SReg) (imm : BitVec 19)
  -- majors 0x0B 0x0C: system registers (R224 R225)
  | sysr (d : SReg) (r : SysReg) | sysw (r : SysReg) (a : SReg)
  -- majors 0x10-0x1F: memory (R210-R215)
  | ldB (d a : SReg) (imm : BitVec 13) | ldH (d a : SReg) (imm : BitVec 13)
  | ldW (d a : SReg) (imm : BitVec 13) | ldD (d a : SReg) (imm : BitVec 13)
  | ldBn (d a : SReg) (imm : BitVec 13) | ldHn (d a : SReg) (imm : BitVec 13)
  | ldWn (d a : SReg) (imm : BitVec 13)
  | stB (a b : SReg) (imm : BitVec 13) | stH (a b : SReg) (imm : BitVec 13)
  | stW (a b : SReg) (imm : BitVec 13) | stD (a b : SReg) (imm : BitVec 13)
  | lda (d a : SReg) (wd : Width) (sc : Scope) | stl (a b : SReg) (wd : Width) (sc : Scope)
  | pref (k : PrefKind) (a : SReg) (imm : BitVec 13)
  | cclean (a : SReg) (sc : Scope) | cinv (a : SReg) (sc : Scope) | cflush (a : SReg) (sc : Scope)
  -- majors 0x20-0x23: scratchpad (R217)
  | spldW (d a : SReg) (imm : BitVec 13) | spldD (d a : SReg) (imm : BitVec 13)
  | spstW (a b : SReg) (imm : BitVec 13) | spstD (a b : SReg) (imm : BitVec 13)
  -- majors 0x24-0x2B: vector memory (R230 R231)
  | vld (t : Tag) (vd : VNum) (a : SReg) (off : BitVec 9) | vst (vd : VNum) (a : SReg) (off : BitVec 9)
  | spvld (t : Tag) (vd : VNum) (a : SReg) (off : BitVec 9) | spvst (vd : VNum) (a : SReg) (off : BitVec 9)
  | vlds (t : Tag) (p : PNum) (vd : VNum) (a b : SReg) | vsts (p : PNum) (vd : VNum) (a b : SReg)
  | vgath (t : Tag) (p : PNum) (vd : VNum) (a : SReg) (vb : VNum)
  | vscat (p : PNum) (vd : VNum) (a : SReg) (vb : VNum)
  -- majors 0x30-0x3A: control transfer (R219-R223)
  | beq (a b : SReg) (off : BitVec 13) | bne (a b : SReg) (off : BitVec 13)
  | blt (a b : SReg) (off : BitVec 13) | bge (a b : SReg) (off : BitVec 13)
  | bltn (a b : SReg) (off : BitVec 13) | bgen (a b : SReg) (off : BitVec 13)
  | bpAny (p : PNum) (off : BitVec 13) | bpAll (p : PNum) (off : BitVec 13) | bpNone (p : PNum) (off : BitVec 13)
  | j (d : SReg) (off : BitVec 19) | jr (d a : SReg) (imm : BitVec 13)
  | loop (lvl : Bool) (a : SReg) (len : BitVec 13)
  | loopi (lvl : Bool) (count : BitVec 11) (len : BitVec 13)
  -- major 0x40: vector arithmetic (R232)
  | vadd (p : PNum) (vd va vb : VNum) | vsub (p : PNum) (vd va vb : VNum) | vmul (p : PNum) (vd va vb : VNum)
  | vmulh (p : PNum) (vd va vb : VNum) | vmin (p : PNum) (vd va vb : VNum) | vmax (p : PNum) (vd va vb : VNum)
  | vabs (p : PNum) (vd va : VNum) | vneg (p : PNum) (vd va : VNum)
  | vadds (p : PNum) (vd va vb : VNum) | vsubs (p : PNum) (vd va vb : VNum)
  | vavg (p : PNum) (vd va vb : VNum) | vdif (p : PNum) (vd va vb : VNum)
  -- major 0x41: vector logic and shifts (R233)
  | vand (p : PNum) (vd va vb : VNum) | vor (p : PNum) (vd va vb : VNum) | vxor (p : PNum) (vd va vb : VNum)
  | vandn (p : PNum) (vd va vb : VNum) | vnot (p : PNum) (vd va : VNum)
  | vshl (p : PNum) (vd va vb : VNum) | vshr (p : PNum) (vd va vb : VNum) | vsra (p : PNum) (vd va vb : VNum)
  | vrot (p : PNum) (vd va vb : VNum)
  | vshli (p : PNum) (vd va : VNum) (n : BitVec 6) | vshri (p : PNum) (vd va : VNum) (n : BitVec 6)
  | vsrai (p : PNum) (vd va : VNum) (n : BitVec 6)
  -- majors 0x42 0x43: fused and special functions (R234 R235)
  | vfma (p : PNum) (vd va vb : VNum) | vfms (p : PNum) (vd va vb : VNum)
  | vdiv (p : PNum) (vd va vb : VNum) | vsqrt (p : PNum) (vd va : VNum) | vrcp (p : PNum) (vd va : VNum)
  | vrsq (p : PNum) (vd va : VNum) | vexp2 (p : PNum) (vd va : VNum) | vlog2 (p : PNum) (vd va : VNum)
  | vrnd (p : PNum) (vd va : VNum) (m : RndArg) | vclass (p : PNum) (vd va : VNum)
  -- major 0x44: compares and select (R236)
  | vceq (p pd : PNum) (va vb : VNum) | vcne (p pd : PNum) (va vb : VNum) | vclt (p pd : PNum) (va vb : VNum)
  | vcle (p pd : PNum) (va vb : VNum) | vsel (p : PNum) (vd va vb : VNum)
  -- major 0x45: permutes, reductions, dot products (R237 R238)
  | vshuf (p : PNum) (vd va vb : VNum) | vzip (p : PNum) (vd va vb : VNum) | vuzp (p : PNum) (vd va vb : VNum)
  | vsld (p : PNum) (vd va : VNum) (k : BitVec 4) | vbcast (p : PNum) (vd va : VNum) (l : BitVec 5)
  | vins (p : PNum) (vd : VNum) (a : SReg) (l : BitVec 5) | vext (d : SReg) (va : VNum) (l : BitVec 5)
  | vredadd (p : PNum) (vd va : VNum) | vredmax (p : PNum) (vd va : VNum) | vredmin (p : PNum) (vd va : VNum)
  | vdot (p : PNum) (vd va vb : VNum)
  -- major 0x46: conversions (R239 R240 R241)
  | vcvt (p : PNum) (vd va : VNum) (u : Tag) | vretag (p : PNum) (vd va : VNum) (u : Tag) | vtag (vd : VNum) (u : Tag)
  | vpack (p : PNum) (vd va vb : VNum) | vunpkl (p : PNum) (vd va : VNum) | vunpkh (p : PNum) (vd va : VNum)
  | venc (p : PNum) (vd va : VNum) (slot : SlotNum) (part : BitVec 3)
  | vdec (p : PNum) (vd va : VNum) (slot : SlotNum) (part : BitVec 3)
  -- major 0x47: code tables (R242)
  | ctld (slot : SlotNum) (a : SReg) | ctldi (slot : SlotNum) (n : BitVec 6) (w : CodeWidth)
  | ctst (slot : SlotNum) (a : SReg) | ctinfo (d : SReg) (slot : SlotNum)
  -- major 0x48: predicates (R244)
  | pand (pd pa pb : PNum) | por (pd pa pb : PNum) | pxor (pd pa pb : PNum) | pnot (pd pa : PNum)
  | pseti (pd : PNum) (n : BitVec 6) | pfrom (pd : PNum) (a : SReg) | pto (d : SReg) (pa : PNum)
  | pcnt (d : SReg) (pa : PNum) | pfirst (d : SReg) (pa : PNum)
  -- major 0x49: moves (R245)
  | vmov (p : PNum) (vd va : VNum) | vzero (vd : VNum) (u : Tag) | vsplati (p : PNum) (vd : VNum) (v : BitVec 6) (u : Tag)
  -- majors 0x50-0x56: Splice (R280-R287)
  | mctx (a : SReg) | mma (d : SReg) (ha hb : HNum) | mmar (d : SReg) (ha hb : HNum)
  | mmarLast (d : SReg) (ha hb : HNum) | mzero (d : SReg) | mrdacc (d : SReg) (ha : HNum) (t : AccTarget)
  | mwait (d a : SReg) | mpoll (d a : SReg)
  -- majors 0x58-0x5E: Reeve (R289-R295); `g` is A[5:2], the group s[4g..4g+3]
  | cpy (d : SReg) (g : BitVec 4) | cpy2 (d : SReg) (g : BitVec 4) | cpypl (d : SReg) (g : BitVec 4)
  | cpyrd (d : SReg) (g : BitVec 4) | cpyfill (d : SReg) (g : BitVec 4)
  | cwait (d a : SReg) | cpoll (d a : SReg)
  -- majors 0x60-0x63: atomics (R258-R261)
  | amoAdd (d a b : SReg) (wd : AWidth) (o : Order) | amoAnd (d a b : SReg) (wd : AWidth) (o : Order)
  | amoOr (d a b : SReg) (wd : AWidth) (o : Order) | amoXor (d a b : SReg) (wd : AWidth) (o : Order)
  | amoMin (d a b : SReg) (wd : AWidth) (o : Order) | amoMax (d a b : SReg) (wd : AWidth) (o : Order)
  | amoMinn (d a b : SReg) (wd : AWidth) (o : Order) | amoMaxn (d a b : SReg) (wd : AWidth) (o : Order)
  | amoSwap (d a b : SReg) (wd : AWidth) (o : Order) | amoFadd (d a b : SReg) (wd : AWidth) (o : Order)
  | redAdd (a b : SReg) (wd : AWidth) (o : Order) | redAnd (a b : SReg) (wd : AWidth) (o : Order)
  | redOr (a b : SReg) (wd : AWidth) (o : Order) | redXor (a b : SReg) (wd : AWidth) (o : Order)
  | redMin (a b : SReg) (wd : AWidth) (o : Order) | redMax (a b : SReg) (wd : AWidth) (o : Order)
  | redMinn (a b : SReg) (wd : AWidth) (o : Order) | redMaxn (a b : SReg) (wd : AWidth) (o : Order)
  | redFadd (a b : SReg) (wd : AWidth) (o : Order)
  | cas (d a b : SReg) (wd : AWidth) | chunk (d a : SReg)
  -- majors 0x64-0x66: fences, barriers, joins, instruction synchronisation (R262-R268)
  | fenceAcq (sc : Scope) | fenceRel (sc : Scope) | fenceFull (sc : Scope)
  | barrive (d a : SReg) | barrived (d a : SReg) | barwait (a b : SReg) | bartry (d a b : SReg)
  | barinit (a b : SReg) (sc : Scope) | jinit (d a b : SReg)
  | isync (sc : Scope)
  -- major 0x68: rings (R270 R271 R272); `n` is the count minus 1
  | rdef (h : HNum) (b : SReg) | rwaitf (h : HNum) (n : BitVec 4) | rwaite (h : HNum) (n : BitVec 4)
  | radvh (h : HNum) (n : BitVec 4) | radvt (h : HNum) (n : BitVec 4) | rinfo (d : SReg) (h : HNum)
  -- majors 0x70-0x75: messages, ends, tasks, safe points (R247-R257)
  | send (e : BitVec 8) (a : SReg) (n : BitVec 3)
  | mpop (d : SReg) (t : TagNum) | mpeek (d : SReg) (t : TagNum)
  | tagen (t : TagNum) | tagdis (t : TagNum) | tagpend (d : SReg) (t : TagNum)
  | endj (a : SReg) | fork (a b : SReg)
  | safept (n : BitVec 8)
  -- majors 0x78-0x7B: traps, breakpoints, meter reads (R226-R228 R299)
  | trap (n : BitVec 13) | bkpt (n : BitVec 13)
  | mtrd (d : SReg) | mtcls (d : SReg) (c : BitVec 4) | pdly (d : SReg) (i : BitVec 6)
  -- major 0x7C: frame transactions (R296 R297)
  | foffer (d a b : SReg) | faccept (d a b : SReg) | fdecline (d a b : SReg) | fwithdraw (d a b : SReg)
  | flend (d a b : SReg) | frecall (d a b : SReg) | frelease (d a b : SReg) | fscrub (d a b : SReg)
  -- words that match no encoding (R169)
  | illegal (w : IWord)
  -- words without operands (R227 R253 R257)
  | endh | eret | psaved
  -- major 0x7D: kernel operations (R302); the three CTXSW rows share one word, s[B] selects the form
  | actload (d a b : SReg) | actunld (d a b : SReg) | actbind (d a b : SReg) | tinv (d a b : SReg)
  | ctxsw (d a b : SReg) | ctxswRestore (d a b : SReg) | ctxswFresh (d a b : SReg)
  | aresume (d a b : SReg) | akill (d a b : SReg) | qset (d a b : SReg) | epreq (d a b : SReg)
  -- steps of the device: arrival, firing, tasks, resumption, ageing, budget (03, 21)
  /-- message `i` in flight reaches its core (R44) -/
  | messageArrival (i : Nat)
  | messageMoveBack (core : Nat)
  | tagFire (core slot : Nat) | dequePop (core slot : Nat)
  | stealPass (core slot : Nat) | stealRequest (i : Nat) | stealReply (i : Nat) | stealRetry (core slot : Nat)
  | activationResume (core : Nat) | priorityAgeing (core slot : Nat)
  | pbudgetExpiry (core slot : Nat) | saveRoutineLimit (core slot : Nat)
  -- engines (19)
  | jobAccept (core slot : Nat)
  | spliceJobStart (eng id : Nat) | spliceJobEnd (eng id : Nat) | mmarForwardLanded (eng id : Nat) (west : Bool)
  | reeveRingSlot (eng id : Nat) | reeveJobEnd (eng id : Nat)
  | barrierDeferLand (i : Nat) | continuationDeferredSend (i : Nat)
  -- memory (05)
  | memoryResponse (core i cycles : Nat) | pageWalk (core i : Nat)
  | recallDeadline (frame : Nat) | recallClusterInvalidate (frame cluster : Nat)
  | lateWrite (frame cluster : Nat) | recallClosingComplete (frame : Nat)
  | cxlMemRequest (host pa : Nat) (op : CxlOp) | backInvalidateResponse (line : Nat) (data : Option LineBits)
  | backInvalidateTimeout (line : Nat)
  -- energy (23) and power (31)
  | chargeApply (i : Nat) | heldSeen (core : Nat)
  | meterTick (meter supply : Nat) (costs : List SharedCost)
  | droopTrip (cluster : Nat) | droopEnd (cluster : Nat)
  | throttleTick (temps : List Nat) (power : Nat) | thermalStop (die : Nat) | thermalResume (die : Nat)
  | railFault | packageReset
  /-- the current bring-up stage ends: `err` the training that failed, 0 for none, the dies whose training failed, the
  second tier's kind, and the firmware images the stage verifies (R362) -/
  | bringupStage (err : Nat) (failed : BitVec 10) (cxlTier : Bool) (images : List Firmware)
  -- security requests (25) and debug commands (27): each serves the oldest one waiting
  | extend | evidence | policy | create | destroy | retire | logread | mode
  | grant | consent | revoke | hold | release | step | snap | trace | window | lock | unlock
  -- links (29)
  | hostIngressWrite (fn off size : Nat) (data : BitVec 512) | hostEgressWrite (fn : Nat)
  | lanyardFlitSend (port : Nat) | lanyardDataFlit (port : Nat) (f : Flit) | lanyardMarker (port : Nat) (f : Flit)
  | lanyardResyncMarker (port : Nat) (f : Flit) | lanyardRetry (port : Nat) (f : Flit) | lanyardIdle (port : Nat) (f : Flit)
  | lanyardAckTimeout (port : Nat) | linkDown (port reason : Nat)
  | linkTrained (port : Nat) (linkId : BitVec 32) (lower : Bool) | kagree (port : Nat)
  | registerWrite (sp : RegSpace) (off : Nat) (v : Word)
  | hostLinkDown | frameFoundUncorrectable (frame : Nat)
  | frameTransactionStatus (core slot : Nat) | kernelOperationStatus (core slot : Nat)
  deriving DecidableEq, Repr

end Sys2Proof
end

