-- ==== Sys2Proof/WellFormed.lean ====
section
/-!
DEFINITION. The operand limits the opcode map puts on an instruction (11 R166-R169, and the limits of the reference
chapters), and the ranges of the numbers a device step names (00 R3, 01 R13-R25).
-/
namespace Sys2Proof

/-- A core's source-core value: 0-1279 compute cores, 1280-1311 system cores (00 R3, 01 R24). -/
def coreOk (c : Nat) : Bool := decide (c < 1312)
/-- One of the 64 slots of a core (01 R21). -/
def slotOk (k : Nat) : Bool := decide (k < 64)
/-- An engine: cluster 16 × die + cluster, 0-159, or 160 + group (23 R344 uses the same numbering for meters). -/
def engineOk (e : Nat) : Bool := decide (e < 164)
/-- A loaded tag is never NONE (11 R168). -/
def loadTagOk (t : Tag) : Bool := decide (t ≠ .none)
/-- LEN of a hardware loop is 1 to 4,095 (11 R169). -/
def loopLenOk (len : BitVec 13) : Bool := decide (len ≠ 0) && decide (len.toNat < 4096)
/-- SEND: the payload registers end at s63, and A is 0 when N is 0 (11 R168). -/
def sendOk (a : SReg) (n : BitVec 3) : Bool :=
  if n = 0 then decide (a = 0) else decide (a.toNat + n.toNat ≤ 64)
/-- MPOP and MPEEK: the first destination is s1 to s56 (17 R248). -/
def mpopOk (d : SReg) : Bool := decide (1 ≤ d.toNat) && decide (d.toNat ≤ 56)
/-- CHUNK: d is even and not 0 (17 R261). -/
def chunkOk (d : SReg) : Bool := decide (d.toNat % 2 = 0) && decide (d ≠ 0)
/-- CTLDI: only table 5 has a width operand (11 R168). -/
def ctldiOk (n : BitVec 6) (w : CodeWidth) : Bool := decide (n = 5) || decide (w = .c8)
/-- PSETI: 0 to 32 (15 R244). -/
def psetiOk (n : BitVec 6) : Bool := decide (n.toNat ≤ 32)
/-- A domain that may own frames: 1-194 (01 R27). -/
def dieOk (d : Nat) : Bool := decide (d < 10)
/-- A Lanyard port (01 R13). -/
def portOk (p : Nat) : Bool := decide (p < 12)
/-- A function of the host link: physical functions 0 and 1, virtual functions as 2 + v (05 R77). -/
def functionOk (f : Nat) : Bool := decide (f < 194)
/-- A 4 KiB frame of the 52-bit physical space (05 R77). -/
def frameOk (f : Nat) : Bool := decide (f < 2 ^ 40)
/-- A 128-byte line of the 52-bit physical space. -/
def lineOk (l : Nat) : Bool := decide (l < 2 ^ 45)

/-- The well-formed instructions and steps: those that a word of the opcode map, or the machine's agenda, can name. -/
def Instr.wf : Instr → Bool
  | .vld t _ _ _ | .spvld t _ _ _ | .vlds t _ _ _ _ | .vgath t _ _ _ _ => loadTagOk t
  | .loop _ _ len | .loopi _ _ len => loopLenOk len
  | .ctldi _ n w => ctldiOk n w
  | .pseti _ n => psetiOk n
  | .chunk d _ => chunkOk d
  | .send _ a n => sendOk a n
  | .mpop d _ | .mpeek d _ => mpopOk d
  | .messageMoveBack c | .activationResume c | .heldSeen c => coreOk c
  | .tagFire c k | .dequePop c k | .stealPass c k | .stealRetry c k | .priorityAgeing c k | .pbudgetExpiry c k
  | .saveRoutineLimit c k | .jobAccept c k | .frameTransactionStatus c k | .kernelOperationStatus c k =>
    coreOk c && slotOk k
  | .spliceJobStart e _ | .spliceJobEnd e _ | .mmarForwardLanded e _ _ | .reeveRingSlot e _ | .reeveJobEnd e _ =>
    engineOk e
  | .memoryResponse c _ _ | .pageWalk c _ => coreOk c
  | .recallDeadline f | .recallClosingComplete f | .frameFoundUncorrectable f => frameOk f
  | .recallClusterInvalidate f e | .lateWrite f e => frameOk f && engineOk e
  | .cxlMemRequest h pa _ => decide (h < 65536) && decide (pa < 2 ^ 52) && decide (pa % 64 = 0)
  | .backInvalidateResponse l _ | .backInvalidateTimeout l => lineOk l
  | .meterTick e _ _ => engineOk e
  | .droopTrip e | .droopEnd e => decide (e < 160)
  | .thermalStop d | .thermalResume d => dieOk d
  | .hostIngressWrite f _ _ _ | .hostEgressWrite f => functionOk f
  | .lanyardFlitSend p | .lanyardDataFlit p _ | .lanyardMarker p _ | .lanyardResyncMarker p _ | .lanyardRetry p _
  | .lanyardIdle p _ | .lanyardAckTimeout p | .linkDown p _ | .linkTrained p _ _ | .kagree p => portOk p
  | _ => true

/-- The rows of the table that are a device's own step and have no word (95). -/
def Instr.isStep : Instr → Bool
  | .messageArrival _ | .messageMoveBack _ | .tagFire _ _ | .dequePop _ _ | .stealPass _ _ | .stealRequest _
  | .stealReply _ | .stealRetry _ _ | .activationResume _ | .priorityAgeing _ _ | .pbudgetExpiry _ _
  | .saveRoutineLimit _ _ | .jobAccept _ _ | .spliceJobStart _ _ | .spliceJobEnd _ _ | .mmarForwardLanded _ _ _
  | .reeveRingSlot _ _ | .reeveJobEnd _ _ | .barrierDeferLand _ | .continuationDeferredSend _
  | .memoryResponse _ _ _ | .pageWalk _ _ | .recallDeadline _ | .recallClusterInvalidate _ _ | .lateWrite _ _
  | .recallClosingComplete _ | .cxlMemRequest _ _ _ | .backInvalidateResponse _ _ | .backInvalidateTimeout _
  | .chargeApply _ | .heldSeen _ | .meterTick _ _ _ | .droopTrip _ | .droopEnd _ | .throttleTick _ _
  | .thermalStop _ | .thermalResume _ | .railFault | .packageReset | .bringupStage _ _ _ _
  | .extend | .evidence | .policy | .create | .destroy | .retire | .logread | .mode
  | .grant | .consent | .revoke | .hold | .release | .step | .snap | .trace | .window | .lock | .unlock
  | .hostIngressWrite _ _ _ _ | .hostEgressWrite _ | .lanyardFlitSend _ | .lanyardDataFlit _ _ | .lanyardMarker _ _
  | .lanyardResyncMarker _ _ | .lanyardRetry _ _ | .lanyardIdle _ _ | .lanyardAckTimeout _ | .linkDown _ _
  | .linkTrained _ _ _ | .kagree _ | .registerWrite _ _ _ | .hostLinkDown
  | .frameFoundUncorrectable _ | .frameTransactionStatus _ _ | .kernelOperationStatus _ _ => true
  | _ => false

/-- The instructions that a word of the opcode map decodes to: no step, and of the three rows of the CTXSW word the
one that names the word (19 R302: s[B] selects the form at execution). -/
def Instr.hasWord (i : Instr) : Bool :=
  !i.isStep && match i with
    | .ctxswRestore _ _ _ | .ctxswFresh _ _ _ | .illegal _ => false
    | _ => true

end Sys2Proof
end

