-- ==== Sys2Proof/Decode.lean ====
section
/-!
DEFINITION. The decoder of 32-bit words, total, rejecting by name, and the encoder, both written from the formats of
11 R165 and the opcode map of 11 R168 (selectors, fields, reserved bits: R166 R167 R169). The decoder tests ILLEGAL
before RESERVED_FIELD (R170).
-/
namespace Sys2Proof

/-- Why a word is no instruction (R169 R170). -/
inductive Reject where
  | illegal
  | reservedField
  | short
  deriving DecidableEq, Repr

/-- OP [6:0] (R164). -/
def fOp (w : IWord) : BitVec 7 := w.extractLsb' 0 7
/-- D [12:7] (R164). -/
def fD (w : IWord) : BitVec 6 := w.extractLsb' 7 6
/-- A [18:13] (R164). -/
def fA (w : IWord) : BitVec 6 := w.extractLsb' 13 6
/-- B [24:19] (R164). -/
def fB (w : IWord) : BitVec 6 := w.extractLsb' 19 6
/-- F [31:25] (R164). -/
def fF (w : IWord) : BitVec 7 := w.extractLsb' 25 7
/-- IMM13 of the I format, OFF13 of the B format, LEN of the L format, SYSREG of the X format: [31:19] (R165). -/
def fImm13 (w : IWord) : BitVec 13 := w.extractLsb' 19 13
/-- IMMHI:IMMLO of the S format (R165). -/
def fImmS (w : IWord) : BitVec 13 := fF w ++ fD w
/-- IMM19 of the U format, OFF19 of the J format: [31:13] (R165). -/
def fImm19 (w : IWord) : BitVec 19 := w.extractLsb' 13 19
/-- SUB [31:28] of the V format (R165). -/
def fSub (w : IWord) : BitVec 4 := w.extractLsb' 28 4
/-- P [27:25] of the V format (R165). -/
def fP (w : IWord) : PNum := w.extractLsb' 25 3
/-- The low five bits of a field that names a vector register (R166). -/
def lo5 (f : BitVec 6) : BitVec 5 := f.extractLsb' 0 5
/-- The low four bits of a field that names a ring handle, a tag or a message tag (R166). -/
def lo4 (f : BitVec 6) : BitVec 4 := f.extractLsb' 0 4
/-- The low three bits of a field that names a predicate register (R166). -/
def lo3 (f : BitVec 6) : BitVec 3 := f.extractLsb' 0 3
/-- The low two bits of a field that names a code-table slot (R168). -/
def lo2 (f : BitVec 6) : BitVec 2 := f.extractLsb' 0 2

/-- The field has only its low `n` bits set (R166 R167). -/
def fits (n : Nat) (f : BitVec 6) : Bool := decide (f.toNat < 2 ^ n)

/-- Tag codes (R174). -/
def Tag.code : Tag → BitVec 4
  | .none => 0 | .i8 => 1 | .n8 => 2 | .i16 => 3 | .n16 => 4 | .i32 => 5 | .n32 => 6 | .i64 => 7 | .n64 => 8
  | .f16 => 9 | .bf16 => 10 | .f32 => 11 | .f64 => 12 | .c8 => 13 | .c6 => 14 | .c4 => 15

/-- The tag of a code (R174). -/
def Tag.ofCode (c : BitVec 4) : Tag :=
  match c.toNat with
  | 0 => .none | 1 => .i8 | 2 => .n8 | 3 => .i16 | 4 => .n16 | 5 => .i32 | 6 => .n32 | 7 => .i64 | 8 => .n64
  | 9 => .f16 | 10 => .bf16 | 11 => .f32 | 12 => .f64 | 13 => .c8 | 14 => .c6 | _ => .c4

/-- Scope codes (07 R112). -/
def Scope.code : Scope → BitVec 3
  | .core => 0 | .cluster => 1 | .die => 2 | .package => 3 | .system => 4

/-- The scope of a code; 5, 6 and 7 are reserved (07 R112). -/
def Scope.ofCode (c : BitVec 3) : Option Scope :=
  match c.toNat with
  | 0 => some .core | 1 => some .cluster | 2 => some .die | 3 => some .package | 4 => some .system | _ => none

/-- Width code of LDA and STL (R168). -/
def Width.code : Width → BitVec 2
  | .b => 0 | .h => 1 | .w => 2 | .d => 3

/-- The width of a code (R168). -/
def Width.ofCode (c : BitVec 2) : Width :=
  match c.toNat with
  | 0 => .b | 1 => .h | 2 => .w | _ => .d

/-- Width bit of the atomics (R168). -/
def AWidth.bit : AWidth → BitVec 1
  | .w => 0 | .d => 1

/-- The width of a bit (R168). -/
def AWidth.ofBit (b : BitVec 1) : AWidth := if b = 0 then .w else .d

/-- Order code (R168). -/
def Order.code : Order → BitVec 2
  | .relaxed => 0 | .acq => 1 | .rel => 2 | .acqrel => 3

/-- The order of a code (R168). -/
def Order.ofCode (c : BitVec 2) : Order :=
  match c.toNat with
  | 0 => .relaxed | 1 => .acq | 2 => .rel | _ => .acqrel

/-- Kind field of PREF (R168). -/
def PrefKind.code : PrefKind → BitVec 6
  | .read => 0 | .write => 1 | .l2 => 2

/-- Mode field of VRND (R168). -/
def RndArg.code : RndArg → BitVec 6
  | .rne => 0 | .rtz => 1 | .rdn => 2 | .rup => 3 | .fmode => 4

/-- Target field of MRDACC (R168). -/
def AccTarget.field : AccTarget → BitVec 6
  | .f32 => 0 | .bf16 => 1 | .f16 => 2 | .i32 => 3 | .i8 => 4
  | .code s => (2 : BitVec 4) ++ s

/-- Width field of CTLDI (R242). -/
def CodeWidth.code : CodeWidth → BitVec 6
  | .c8 => 0 | .c6 => 1 | .c4 => 2

/-- System register numbers (R180). -/
def SysReg.num : SysReg → BitVec 13
  | .epc => 0x000 | .ecause => 0x001 | .eval => 0x002 | .ebt => 0x003 | .eds => 0x004
  | .fmode => 0x010 | .fstat => 0x011
  | .lc0 => 0x020 | .ls0 => 0x021 | .le0 => 0x022 | .lc1 => 0x023 | .ls1 => 0x024 | .le1 => 0x025
  | .time => 0x030 | .ctxid => 0x031 | .troot => 0x100 | .pbudget => 0x101
  | .bpa i => (0x40 : BitVec 10) ++ i
  | .wpa i => (0x84 : BitVec 11) ++ i
  | .wpm i => (0x86 : BitVec 11) ++ i
  | .holdc => 0x220

/-- The system register of a number (R180); an unlisted number is ILLEGAL (R169). -/
def SysReg.ofNum (n : BitVec 13) : Option SysReg :=
  match n.toNat with
  | 0x000 => some .epc | 0x001 => some .ecause | 0x002 => some .eval | 0x003 => some .ebt | 0x004 => some .eds
  | 0x010 => some .fmode | 0x011 => some .fstat
  | 0x020 => some .lc0 | 0x021 => some .ls0 | 0x022 => some .le0
  | 0x023 => some .lc1 | 0x024 => some .ls1 | 0x025 => some .le1
  | 0x030 => some .time | 0x031 => some .ctxid | 0x100 => some .troot | 0x101 => some .pbudget
  | 0x220 => some .holdc
  | _ =>
    if n.extractLsb' 3 10 = 0x40 then some (.bpa (n.extractLsb' 0 3))
    else if n.extractLsb' 2 11 = 0x84 then some (.wpa (n.extractLsb' 0 2))
    else if n.extractLsb' 2 11 = 0x86 then some (.wpm (n.extractLsb' 0 2))
    else none

/-- RESERVED_FIELD unless the condition on the fields holds (R167). -/
def need (c : Bool) (i : Instr) : Except Reject Instr := if c then .ok i else .error .reservedField

/-- A selector value that is not listed (R169). -/
def unlisted : Except Reject Instr := .error .illegal

/-- Field B, the whole of it, is reserved. -/
def bZero (w : IWord) : Bool := decide (fB w = 0)
/-- Field A is reserved. -/
def aZero (w : IWord) : Bool := decide (fA w = 0)
/-- Field D is reserved. -/
def dZero (w : IWord) : Bool := decide (fD w = 0)
/-- Field F is reserved. -/
def fZero (w : IWord) : Bool := decide (fF w = 0)
/-- D, A and B name vector registers (R166). -/
def vvv (w : IWord) : Bool := fits 5 (fD w) && fits 5 (fA w) && fits 5 (fB w)
/-- D and A name vector registers and B is reserved. -/
def vv0 (w : IWord) : Bool := fits 5 (fD w) && fits 5 (fA w) && bZero w
/-- D and A name vector registers. -/
def vv (w : IWord) : Bool := fits 5 (fD w) && fits 5 (fA w)


/-- Major 0x01 (R168). -/
def decAlu (w : IWord) : Except Reject Instr :=
  match (fF w).toNat with
  | 0x00 => .ok (.add (fD w) (fA w) (fB w))
  | 0x01 => .ok (.sub (fD w) (fA w) (fB w))
  | 0x02 => .ok (.and (fD w) (fA w) (fB w))
  | 0x03 => .ok (.or (fD w) (fA w) (fB w))
  | 0x04 => .ok (.xor (fD w) (fA w) (fB w))
  | 0x05 => .ok (.andn (fD w) (fA w) (fB w))
  | 0x08 => .ok (.sll (fD w) (fA w) (fB w))
  | 0x09 => .ok (.srl (fD w) (fA w) (fB w))
  | 0x0A => .ok (.sra (fD w) (fA w) (fB w))
  | 0x0B => .ok (.rol (fD w) (fA w) (fB w))
  | 0x0C => .ok (.ror (fD w) (fA w) (fB w))
  | 0x10 => .ok (.slt (fD w) (fA w) (fB w))
  | 0x11 => .ok (.sltu (fD w) (fA w) (fB w))
  | 0x12 => .ok (.min (fD w) (fA w) (fB w))
  | 0x13 => .ok (.max (fD w) (fA w) (fB w))
  | 0x14 => .ok (.minu (fD w) (fA w) (fB w))
  | 0x15 => .ok (.maxu (fD w) (fA w) (fB w))
  | 0x16 => .ok (.seq (fD w) (fA w) (fB w))
  | 0x18 => .ok (.mul (fD w) (fA w) (fB w))
  | 0x19 => .ok (.mulh (fD w) (fA w) (fB w))
  | 0x1A => .ok (.mulhu (fD w) (fA w) (fB w))
  | 0x1B => .ok (.mulhsn (fD w) (fA w) (fB w))
  | 0x1C => .ok (.div (fD w) (fA w) (fB w))
  | 0x1D => .ok (.divu (fD w) (fA w) (fB w))
  | 0x1E => .ok (.rem (fD w) (fA w) (fB w))
  | 0x1F => .ok (.remu (fD w) (fA w) (fB w))
  | 0x30 => .ok (.lea1 (fD w) (fA w) (fB w))
  | 0x31 => .ok (.lea2 (fD w) (fA w) (fB w))
  | 0x32 => .ok (.lea4 (fD w) (fA w) (fB w))
  | 0x33 => .ok (.lea8 (fD w) (fA w) (fB w))
  | 0x20 => need (bZero w) (.clz (fD w) (fA w))
  | 0x21 => need (bZero w) (.ctz (fD w) (fA w))
  | 0x22 => need (bZero w) (.popc (fD w) (fA w))
  | 0x23 => need (bZero w) (.brev (fD w) (fA w))
  | 0x24 => need (bZero w) (.bswap (fD w) (fA w))
  | 0x28 => need (bZero w) (.sextB (fD w) (fA w))
  | 0x29 => need (bZero w) (.sextH (fD w) (fA w))
  | 0x2A => need (bZero w) (.sextW (fD w) (fA w))
  | 0x2C => need (bZero w) (.zextB (fD w) (fA w))
  | 0x2D => need (bZero w) (.zextH (fD w) (fA w))
  | 0x2E => need (bZero w) (.zextW (fD w) (fA w))
  | _ => unlisted

/-- Major 0x08 (R168): IMM13[12:8] reserved, IMM13[7:6] the kind, IMM13[5:0] the amount. -/
def decShiftImm (w : IWord) : Except Reject Instr :=
  let n := fB w
  let z := decide ((fF w).extractLsb' 2 5 = 0)
  match ((fF w).extractLsb' 0 2).toNat with
  | 0 => need z (.slli (fD w) (fA w) n)
  | 1 => need z (.srli (fD w) (fA w) n)
  | 2 => need z (.srai (fD w) (fA w) n)
  | _ => need z (.rori (fD w) (fA w) n)

/-- Majors 0x0B and 0x0C (R168). -/
def decSys (w : IWord) : Except Reject Instr :=
  match SysReg.ofNum (fImm13 w) with
  | none => unlisted
  | some r =>
    if fOp w = 0x0B then need (aZero w) (.sysr (fD w) r) else need (dZero w) (.sysw r (fA w))

/-- Major 0x1C (R168). -/
def decLda (w : IWord) : Except Reject Instr :=
  match Scope.ofCode ((fF w).extractLsb' 2 3) with
  | none => .error .reservedField
  | some sc =>
    need (bZero w && decide ((fF w).extractLsb' 5 2 = 0)) (.lda (fD w) (fA w) (Width.ofCode ((fF w).extractLsb' 0 2)) sc)

/-- Major 0x1D (R168). -/
def decStl (w : IWord) : Except Reject Instr :=
  match Scope.ofCode ((fF w).extractLsb' 2 3) with
  | none => .error .reservedField
  | some sc =>
    need (dZero w && decide ((fF w).extractLsb' 5 2 = 0)) (.stl (fA w) (fB w) (Width.ofCode ((fF w).extractLsb' 0 2)) sc)

/-- Major 0x1E (R168): D 3-63 reserved. -/
def decPref (w : IWord) : Except Reject Instr :=
  match (fD w).toNat with
  | 0 => .ok (.pref .read (fA w) (fImm13 w))
  | 1 => .ok (.pref .write (fA w) (fImm13 w))
  | 2 => .ok (.pref .l2 (fA w) (fImm13 w))
  | _ => .error .reservedField

/-- A scope code in field B (R215). -/
def scopeB (w : IWord) : Option Scope := if fits 3 (fB w) then Scope.ofCode (lo3 (fB w)) else none

/-- Major 0x1F (R168). -/
def decCacheOp (w : IWord) : Except Reject Instr :=
  let go (k : Scope → Instr) : Except Reject Instr :=
    match scopeB w with
    | none => .error .reservedField
    | some sc => need (dZero w) (k sc)
  match (fF w).toNat with
  | 0 => go (.cclean (fA w))
  | 1 => go (.cinv (fA w))
  | 2 => go (.cflush (fA w))
  | _ => unlisted

/-- OFF9 of the VM format (R165). -/
def fOff9 (w : IWord) : BitVec 9 := w.extractLsb' 23 9
/-- TAG of the VM format (R165). -/
def fTagVm (w : IWord) : BitVec 4 := w.extractLsb' 19 4

/-- Majors 0x24-0x27 (R168): loads TAG 1-15, stores TAG 0. -/
def decVm (w : IWord) : Except Reject Instr :=
  let t := Tag.ofCode (fTagVm w)
  match (fOp w).toNat with
  | 0x24 => need (fits 5 (fD w) && loadTagOk t) (.vld t (lo5 (fD w)) (fA w) (fOff9 w))
  | 0x25 => need (fits 5 (fD w) && decide (fTagVm w = 0)) (.vst (lo5 (fD w)) (fA w) (fOff9 w))
  | 0x26 => need (fits 5 (fD w) && loadTagOk t) (.spvld t (lo5 (fD w)) (fA w) (fOff9 w))
  | _ => need (fits 5 (fD w) && decide (fTagVm w = 0)) (.spvst (lo5 (fD w)) (fA w) (fOff9 w))

/-- Majors 0x28-0x2B (R168): F[6:4] predicate, F[3:0] tag. -/
def decVs (w : IWord) : Except Reject Instr :=
  let p : PNum := (fF w).extractLsb' 4 3
  let c : BitVec 4 := (fF w).extractLsb' 0 4
  let t := Tag.ofCode c
  match (fOp w).toNat with
  | 0x28 => need (fits 5 (fD w) && loadTagOk t) (.vlds t p (lo5 (fD w)) (fA w) (fB w))
  | 0x29 => need (fits 5 (fD w) && decide (c = 0)) (.vsts p (lo5 (fD w)) (fA w) (fB w))
  | 0x2A => need (fits 5 (fD w) && fits 5 (fB w) && loadTagOk t) (.vgath t p (lo5 (fD w)) (fA w) (lo5 (fB w)))
  | _ => need (fits 5 (fD w) && fits 5 (fB w) && decide (c = 0)) (.vscat p (lo5 (fD w)) (fA w) (lo5 (fB w)))

/-- Major 0x36 (R168 R220): [12:10] mode, [9:7] predicate, [18:13] reserved. -/
def decBp (w : IWord) : Except Reject Instr :=
  match ((fD w).extractLsb' 3 3).toNat with
  | 0 => need (aZero w) (.bpAny (lo3 (fD w)) (fImm13 w))
  | 1 => need (aZero w) (.bpAll (lo3 (fD w)) (fImm13 w))
  | 2 => need (aZero w) (.bpNone (lo3 (fD w)) (fImm13 w))
  | _ => .error .reservedField

/-- Majors 0x39 and 0x3A (R165 R169): LEN 0 is ILLEGAL, 4,096 or more reserved. -/
def decLoop (w : IWord) : Except Reject Instr :=
  if fImm13 w = 0 then unlisted
  else if fOp w = 0x39 then
    need (decide ((fD w).extractLsb' 1 5 = 0) && loopLenOk (fImm13 w)) (.loop (w.getLsbD 7) (fA w) (fImm13 w))
  else need (loopLenOk (fImm13 w)) (.loopi (w.getLsbD 7) (w.extractLsb' 8 11) (fImm13 w))

/-- Major 0x40: vector arithmetic (R168). -/
def decV40 (w : IWord) : Except Reject Instr :=
  match (fSub w).toNat with
  | 0 => need (vvv w) (.vadd (fP w) (lo5 (fD w)) (lo5 (fA w)) (lo5 (fB w)))
  | 1 => need (vvv w) (.vsub (fP w) (lo5 (fD w)) (lo5 (fA w)) (lo5 (fB w)))
  | 2 => need (vvv w) (.vmul (fP w) (lo5 (fD w)) (lo5 (fA w)) (lo5 (fB w)))
  | 3 => need (vvv w) (.vmulh (fP w) (lo5 (fD w)) (lo5 (fA w)) (lo5 (fB w)))
  | 4 => need (vvv w) (.vmin (fP w) (lo5 (fD w)) (lo5 (fA w)) (lo5 (fB w)))
  | 5 => need (vvv w) (.vmax (fP w) (lo5 (fD w)) (lo5 (fA w)) (lo5 (fB w)))
  | 6 => need (vv0 w) (.vabs (fP w) (lo5 (fD w)) (lo5 (fA w)))
  | 7 => need (vv0 w) (.vneg (fP w) (lo5 (fD w)) (lo5 (fA w)))
  | 8 => need (vvv w) (.vadds (fP w) (lo5 (fD w)) (lo5 (fA w)) (lo5 (fB w)))
  | 9 => need (vvv w) (.vsubs (fP w) (lo5 (fD w)) (lo5 (fA w)) (lo5 (fB w)))
  | 10 => need (vvv w) (.vavg (fP w) (lo5 (fD w)) (lo5 (fA w)) (lo5 (fB w)))
  | 11 => need (vvv w) (.vdif (fP w) (lo5 (fD w)) (lo5 (fA w)) (lo5 (fB w)))
  | _ => unlisted

/-- Major 0x41: vector logic and shifts (R168). -/
def decV41 (w : IWord) : Except Reject Instr :=
  match (fSub w).toNat with
  | 0 => need (vvv w) (.vand (fP w) (lo5 (fD w)) (lo5 (fA w)) (lo5 (fB w)))
  | 1 => need (vvv w) (.vor (fP w) (lo5 (fD w)) (lo5 (fA w)) (lo5 (fB w)))
  | 2 => need (vvv w) (.vxor (fP w) (lo5 (fD w)) (lo5 (fA w)) (lo5 (fB w)))
  | 3 => need (vvv w) (.vandn (fP w) (lo5 (fD w)) (lo5 (fA w)) (lo5 (fB w)))
  | 4 => need (vv0 w) (.vnot (fP w) (lo5 (fD w)) (lo5 (fA w)))
  | 5 => need (vvv w) (.vshl (fP w) (lo5 (fD w)) (lo5 (fA w)) (lo5 (fB w)))
  | 6 => need (vvv w) (.vshr (fP w) (lo5 (fD w)) (lo5 (fA w)) (lo5 (fB w)))
  | 7 => need (vvv w) (.vsra (fP w) (lo5 (fD w)) (lo5 (fA w)) (lo5 (fB w)))
  | 8 => need (vvv w) (.vrot (fP w) (lo5 (fD w)) (lo5 (fA w)) (lo5 (fB w)))
  | 9 => need (vv w) (.vshli (fP w) (lo5 (fD w)) (lo5 (fA w)) (fB w))
  | 10 => need (vv w) (.vshri (fP w) (lo5 (fD w)) (lo5 (fA w)) (fB w))
  | 11 => need (vv w) (.vsrai (fP w) (lo5 (fD w)) (lo5 (fA w)) (fB w))
  | _ => unlisted

/-- Major 0x42: fused (R168). -/
def decV42 (w : IWord) : Except Reject Instr :=
  match (fSub w).toNat with
  | 0 => need (vvv w) (.vfma (fP w) (lo5 (fD w)) (lo5 (fA w)) (lo5 (fB w)))
  | 1 => need (vvv w) (.vfms (fP w) (lo5 (fD w)) (lo5 (fA w)) (lo5 (fB w)))
  | _ => unlisted

/-- Major 0x43: special functions (R168). -/
def decV43 (w : IWord) : Except Reject Instr :=
  match (fSub w).toNat with
  | 0 => need (vvv w) (.vdiv (fP w) (lo5 (fD w)) (lo5 (fA w)) (lo5 (fB w)))
  | 1 => need (vv0 w) (.vsqrt (fP w) (lo5 (fD w)) (lo5 (fA w)))
  | 2 => need (vv0 w) (.vrcp (fP w) (lo5 (fD w)) (lo5 (fA w)))
  | 3 => need (vv0 w) (.vrsq (fP w) (lo5 (fD w)) (lo5 (fA w)))
  | 4 => need (vv0 w) (.vexp2 (fP w) (lo5 (fD w)) (lo5 (fA w)))
  | 5 => need (vv0 w) (.vlog2 (fP w) (lo5 (fD w)) (lo5 (fA w)))
  | 6 => match (fB w).toNat with
    | 0 => need (vv w) (.vrnd (fP w) (lo5 (fD w)) (lo5 (fA w)) .rne)
    | 1 => need (vv w) (.vrnd (fP w) (lo5 (fD w)) (lo5 (fA w)) .rtz)
    | 2 => need (vv w) (.vrnd (fP w) (lo5 (fD w)) (lo5 (fA w)) .rdn)
    | 3 => need (vv w) (.vrnd (fP w) (lo5 (fD w)) (lo5 (fA w)) .rup)
    | 4 => need (vv w) (.vrnd (fP w) (lo5 (fD w)) (lo5 (fA w)) .fmode)
    | _ => .error .reservedField
  | 7 => need (vv0 w) (.vclass (fP w) (lo5 (fD w)) (lo5 (fA w)))
  | _ => unlisted

/-- Major 0x44: compares and select (R168). -/
def decV44 (w : IWord) : Except Reject Instr :=
  match (fSub w).toNat with
  | 0 => need (fits 3 (fD w) && fits 5 (fA w) && fits 5 (fB w)) (.vceq (fP w) (lo3 (fD w)) (lo5 (fA w)) (lo5 (fB w)))
  | 1 => need (fits 3 (fD w) && fits 5 (fA w) && fits 5 (fB w)) (.vcne (fP w) (lo3 (fD w)) (lo5 (fA w)) (lo5 (fB w)))
  | 2 => need (fits 3 (fD w) && fits 5 (fA w) && fits 5 (fB w)) (.vclt (fP w) (lo3 (fD w)) (lo5 (fA w)) (lo5 (fB w)))
  | 3 => need (fits 3 (fD w) && fits 5 (fA w) && fits 5 (fB w)) (.vcle (fP w) (lo3 (fD w)) (lo5 (fA w)) (lo5 (fB w)))
  | 8 => need (vvv w) (.vsel (fP w) (lo5 (fD w)) (lo5 (fA w)) (lo5 (fB w)))
  | _ => unlisted

/-- Major 0x45: permutes, reductions, dot products (R168). -/
def decV45 (w : IWord) : Except Reject Instr :=
  match (fSub w).toNat with
  | 0 => need (vvv w) (.vshuf (fP w) (lo5 (fD w)) (lo5 (fA w)) (lo5 (fB w)))
  | 1 => need (vvv w) (.vzip (fP w) (lo5 (fD w)) (lo5 (fA w)) (lo5 (fB w)))
  | 2 => need (vvv w) (.vuzp (fP w) (lo5 (fD w)) (lo5 (fA w)) (lo5 (fB w)))
  | 3 => need (vv w && fits 4 (fB w)) (.vsld (fP w) (lo5 (fD w)) (lo5 (fA w)) (lo4 (fB w)))
  | 4 => need (vv w && fits 5 (fB w)) (.vbcast (fP w) (lo5 (fD w)) (lo5 (fA w)) (lo5 (fB w)))
  | 5 => need (fits 5 (fD w) && fits 5 (fB w)) (.vins (fP w) (lo5 (fD w)) (fA w) (lo5 (fB w)))
  | 6 => need (decide (fP w = 0) && fits 5 (fA w) && fits 5 (fB w)) (.vext (fD w) (lo5 (fA w)) (lo5 (fB w)))
  | 7 => need (vv0 w) (.vredadd (fP w) (lo5 (fD w)) (lo5 (fA w)))
  | 8 => need (vv0 w) (.vredmax (fP w) (lo5 (fD w)) (lo5 (fA w)))
  | 9 => need (vv0 w) (.vredmin (fP w) (lo5 (fD w)) (lo5 (fA w)))
  | 10 => need (vvv w) (.vdot (fP w) (lo5 (fD w)) (lo5 (fA w)) (lo5 (fB w)))
  | _ => unlisted

/-- Major 0x46: conversions (R168). -/
def decV46 (w : IWord) : Except Reject Instr :=
  match (fSub w).toNat with
  | 0 => need (vv w && fits 4 (fB w)) (.vcvt (fP w) (lo5 (fD w)) (lo5 (fA w)) (Tag.ofCode (lo4 (fB w))))
  | 1 => need (vv w && fits 4 (fB w)) (.vretag (fP w) (lo5 (fD w)) (lo5 (fA w)) (Tag.ofCode (lo4 (fB w))))
  | 2 => need (fits 5 (fD w) && aZero w && decide (fP w = 0) && fits 4 (fB w)) (.vtag (lo5 (fD w)) (Tag.ofCode (lo4 (fB w))))
  | 3 => need (vvv w) (.vpack (fP w) (lo5 (fD w)) (lo5 (fA w)) (lo5 (fB w)))
  | 4 => need (vv0 w) (.vunpkl (fP w) (lo5 (fD w)) (lo5 (fA w)))
  | 5 => need (vv0 w) (.vunpkh (fP w) (lo5 (fD w)) (lo5 (fA w)))
  | 6 => need (vv w && fits 5 (fB w)) (.venc (fP w) (lo5 (fD w)) (lo5 (fA w)) (lo2 (fB w)) ((fB w).extractLsb' 2 3))
  | 7 => need (vv w && fits 5 (fB w)) (.vdec (fP w) (lo5 (fD w)) (lo5 (fA w)) (lo2 (fB w)) ((fB w).extractLsb' 2 3))
  | _ => unlisted

/-- Major 0x49: moves (R168). -/
def decV49 (w : IWord) : Except Reject Instr :=
  match (fSub w).toNat with
  | 0 => need (vv0 w) (.vmov (fP w) (lo5 (fD w)) (lo5 (fA w)))
  | 1 => need (fits 5 (fD w) && aZero w && decide (fP w = 0) && fits 4 (fB w)) (.vzero (lo5 (fD w)) (Tag.ofCode (lo4 (fB w))))
  | 2 => need (fits 5 (fD w) && fits 4 (fB w)) (.vsplati (fP w) (lo5 (fD w)) (fA w) (Tag.ofCode (lo4 (fB w))))
  | _ => unlisted

/-- Major 0x47 (R168 R242). -/
def decTable (w : IWord) : Except Reject Instr :=
  match (fF w).toNat with
  | 0 => need (fits 2 (fD w) && bZero w) (.ctld (lo2 (fD w)) (fA w))
  | 1 =>
    match (fA w).toNat with
    | 0 => need (fits 2 (fD w)) (.ctldi (lo2 (fD w)) (fB w) .c8)
    | 1 => need (fits 2 (fD w) && decide (fB w = 5)) (.ctldi (lo2 (fD w)) (fB w) .c6)
    | 2 => need (fits 2 (fD w) && decide (fB w = 5)) (.ctldi (lo2 (fD w)) (fB w) .c4)
    | _ => .error .reservedField
  | 2 => need (fits 2 (fD w) && bZero w) (.ctst (lo2 (fD w)) (fA w))
  | 3 => need (fits 2 (fB w) && aZero w) (.ctinfo (fD w) (lo2 (fB w)))
  | _ => unlisted

/-- Major 0x48 (R168 R244). -/
def decPred (w : IWord) : Except Reject Instr :=
  match (fF w).toNat with
  | 0 => need (fits 3 (fD w) && fits 3 (fA w) && fits 3 (fB w)) (.pand (lo3 (fD w)) (lo3 (fA w)) (lo3 (fB w)))
  | 1 => need (fits 3 (fD w) && fits 3 (fA w) && fits 3 (fB w)) (.por (lo3 (fD w)) (lo3 (fA w)) (lo3 (fB w)))
  | 2 => need (fits 3 (fD w) && fits 3 (fA w) && fits 3 (fB w)) (.pxor (lo3 (fD w)) (lo3 (fA w)) (lo3 (fB w)))
  | 3 => need (fits 3 (fD w) && fits 3 (fA w) && bZero w) (.pnot (lo3 (fD w)) (lo3 (fA w)))
  | 4 => need (fits 3 (fD w) && aZero w && psetiOk (fB w)) (.pseti (lo3 (fD w)) (fB w))
  | 5 => need (fits 3 (fD w) && bZero w) (.pfrom (lo3 (fD w)) (fA w))
  | 6 => need (fits 3 (fA w) && bZero w) (.pto (fD w) (lo3 (fA w)))
  | 7 => need (fits 3 (fA w) && bZero w) (.pcnt (fD w) (lo3 (fA w)))
  | 8 => need (fits 3 (fA w) && bZero w) (.pfirst (fD w) (lo3 (fA w)))
  | _ => unlisted

/-- Majors 0x50-0x56 (R168). -/
def decSplice (w : IWord) : Except Reject Instr :=
  match (fOp w).toNat with
  | 0x50 => need (dZero w && bZero w && fZero w) (.mctx (fA w))
  | 0x51 => need (fits 4 (fA w) && fits 4 (fB w) && fZero w) (.mma (fD w) (lo4 (fA w)) (lo4 (fB w)))
  | 0x52 =>
    if (fF w).extractLsb' 1 6 = 0 then
      need (fits 4 (fA w) && fits 4 (fB w))
        (if (fF w).getLsbD 0 then .mmarLast (fD w) (lo4 (fA w)) (lo4 (fB w)) else .mmar (fD w) (lo4 (fA w)) (lo4 (fB w)))
    else .error .reservedField
  | 0x53 => need (aZero w && bZero w && fZero w) (.mzero (fD w))
  | 0x54 =>
    let ok := fits 4 (fA w) && fZero w
    let mk (t : AccTarget) : Except Reject Instr := need ok (.mrdacc (fD w) (lo4 (fA w)) t)
    match (fB w).toNat with
    | 0 => mk .f32
    | 1 => mk .bf16
    | 2 => mk .f16
    | 3 => mk .i32
    | 4 => mk .i8
    | _ => if (fB w).extractLsb' 2 4 = 2 then mk (.code (lo2 (fB w))) else .error .reservedField
  | 0x55 => need (bZero w && fZero w) (.mwait (fD w) (fA w))
  | _ => need (bZero w && fZero w) (.mpoll (fD w) (fA w))

/-- Majors 0x58-0x5E (R168): A[1:0] of a group is zero. -/
def decReeve (w : IWord) : Except Reject Instr :=
  let g : BitVec 4 := (fA w).extractLsb' 2 4
  let ok := decide (lo2 (fA w) = 0) && bZero w && fZero w
  match (fOp w).toNat with
  | 0x58 => need ok (.cpy (fD w) g)
  | 0x59 => need ok (.cpy2 (fD w) g)
  | 0x5A => need ok (.cpypl (fD w) g)
  | 0x5B => need ok (.cpyrd (fD w) g)
  | 0x5C => need ok (.cpyfill (fD w) g)
  | 0x5D => need (bZero w && fZero w) (.cwait (fD w) (fA w))
  | _ => need (bZero w && fZero w) (.cpoll (fD w) (fA w))

/-- Major 0x60 (R168): F[3:0] op, F[4] width, F[6:5] order. -/
def decAmo (w : IWord) : Except Reject Instr :=
  let wd := AWidth.ofBit ((fF w).extractLsb' 4 1)
  let o := Order.ofCode ((fF w).extractLsb' 5 2)
  match ((fF w).extractLsb' 0 4).toNat with
  | 0 => .ok (.amoAdd (fD w) (fA w) (fB w) wd o)
  | 1 => .ok (.amoAnd (fD w) (fA w) (fB w) wd o)
  | 2 => .ok (.amoOr (fD w) (fA w) (fB w) wd o)
  | 3 => .ok (.amoXor (fD w) (fA w) (fB w) wd o)
  | 4 => .ok (.amoMin (fD w) (fA w) (fB w) wd o)
  | 5 => .ok (.amoMax (fD w) (fA w) (fB w) wd o)
  | 6 => .ok (.amoMinn (fD w) (fA w) (fB w) wd o)
  | 7 => .ok (.amoMaxn (fD w) (fA w) (fB w) wd o)
  | 8 => .ok (.amoSwap (fD w) (fA w) (fB w) wd o)
  | 9 => .ok (.amoFadd (fD w) (fA w) (fB w) wd o)
  | _ => unlisted

/-- Major 0x61 (R168): as AMO, without op 8. -/
def decRed (w : IWord) : Except Reject Instr :=
  let wd := AWidth.ofBit ((fF w).extractLsb' 4 1)
  let o := Order.ofCode ((fF w).extractLsb' 5 2)
  match ((fF w).extractLsb' 0 4).toNat with
  | 0 => need (dZero w) (.redAdd (fA w) (fB w) wd o)
  | 1 => need (dZero w) (.redAnd (fA w) (fB w) wd o)
  | 2 => need (dZero w) (.redOr (fA w) (fB w) wd o)
  | 3 => need (dZero w) (.redXor (fA w) (fB w) wd o)
  | 4 => need (dZero w) (.redMin (fA w) (fB w) wd o)
  | 5 => need (dZero w) (.redMax (fA w) (fB w) wd o)
  | 6 => need (dZero w) (.redMinn (fA w) (fB w) wd o)
  | 7 => need (dZero w) (.redMaxn (fA w) (fB w) wd o)
  | 9 => need (dZero w) (.redFadd (fA w) (fB w) wd o)
  | _ => unlisted

/-- Major 0x64 (R168 R262): F[2:0] scope, F[4:3] kind. -/
def decFence (w : IWord) : Except Reject Instr :=
  match Scope.ofCode ((fF w).extractLsb' 0 3) with
  | none => .error .reservedField
  | some sc =>
    let ok := dZero w && aZero w && bZero w && decide ((fF w).extractLsb' 5 2 = 0)
    match ((fF w).extractLsb' 3 2).toNat with
    | 0 => need ok (.fenceAcq sc)
    | 1 => need ok (.fenceRel sc)
    | 2 => need ok (.fenceFull sc)
    | _ => .error .reservedField

/-- Major 0x65 (R168 R263): F[2:0] op, F[5:3] scope for BARINIT only, F[6] reserved. -/
def decBarrier (w : IWord) : Except Reject Instr :=
  let z := decide ((fF w).extractLsb' 3 4 = 0)
  match ((fF w).extractLsb' 0 3).toNat with
  | 0 => need (z && bZero w) (.barrive (fD w) (fA w))
  | 1 => need (z && bZero w) (.barrived (fD w) (fA w))
  | 2 => need (z && dZero w) (.barwait (fA w) (fB w))
  | 3 => need z (.bartry (fD w) (fA w) (fB w))
  | 4 =>
    match Scope.ofCode ((fF w).extractLsb' 3 3) with
    | none => .error .reservedField
    | some sc => need (dZero w && decide ((fF w).extractLsb' 6 1 = 0)) (.barinit (fA w) (fB w) sc)
  | 5 => need z (.jinit (fD w) (fA w) (fB w))
  | _ => unlisted

/-- Major 0x66 (R168). -/
def decIsync (w : IWord) : Except Reject Instr :=
  match Scope.ofCode ((fF w).extractLsb' 0 3) with
  | none => .error .reservedField
  | some sc => need (dZero w && aZero w && bZero w && decide ((fF w).extractLsb' 3 4 = 0)) (.isync sc)

/-- Major 0x68 (R168): F[6:3] reserved. -/
def decRing (w : IWord) : Except Reject Instr :=
  let z := decide ((fF w).extractLsb' 3 4 = 0) && fits 4 (fA w)
  match ((fF w).extractLsb' 0 3).toNat with
  | 0 => need (z && dZero w) (.rdef (lo4 (fA w)) (fB w))
  | 1 => need (z && dZero w && fits 4 (fB w)) (.rwaitf (lo4 (fA w)) (lo4 (fB w)))
  | 2 => need (z && dZero w && fits 4 (fB w)) (.rwaite (lo4 (fA w)) (lo4 (fB w)))
  | 3 => need (z && dZero w && fits 4 (fB w)) (.radvh (lo4 (fA w)) (lo4 (fB w)))
  | 4 => need (z && dZero w && fits 4 (fB w)) (.radvt (lo4 (fA w)) (lo4 (fB w)))
  | 5 => need (z && bZero w) (.rinfo (fD w) (lo4 (fA w)))
  | _ => unlisted

/-- Major 0x70, the M format (R165 R168). -/
def decSend (w : IWord) : Except Reject Instr :=
  let n : BitVec 3 := w.extractLsb' 21 3
  let a : SReg := w.extractLsb' 15 6
  need (decide (w.extractLsb' 24 8 = 0) && sendOk a n) (.send (w.extractLsb' 7 8) a n)

/-- Major 0x71 (R168). -/
def decMpop (w : IWord) : Except Reject Instr :=
  match (fF w).toNat with
  | 0 => need (aZero w && fits 4 (fB w) && mpopOk (fD w)) (.mpop (fD w) (lo4 (fB w)))
  | 1 => need (aZero w && fits 4 (fB w) && mpopOk (fD w)) (.mpeek (fD w) (lo4 (fB w)))
  | _ => unlisted

/-- Major 0x72 (R168). -/
def decTagOp (w : IWord) : Except Reject Instr :=
  match (fF w).toNat with
  | 0 => need (aZero w && fits 4 (fB w) && dZero w) (.tagen (lo4 (fB w)))
  | 1 => need (aZero w && fits 4 (fB w) && dZero w) (.tagdis (lo4 (fB w)))
  | 2 => need (aZero w && fits 4 (fB w)) (.tagpend (fD w) (lo4 (fB w)))
  | _ => unlisted

/-- Major 0x73 (R168). -/
def decEnd (w : IWord) : Except Reject Instr :=
  match (fF w).toNat with
  | 0 => need (dZero w && aZero w && bZero w) .endh
  | 1 => need (dZero w && bZero w) (.endj (fA w))
  | _ => unlisted

/-- Major 0x75 (R168 R256): D selects. -/
def decSafept (w : IWord) : Except Reject Instr :=
  match (fD w).toNat with
  | 0 => need (aZero w && decide ((fImm13 w).extractLsb' 8 5 = 0)) (.safept ((fImm13 w).extractLsb' 0 8))
  | 1 => need (aZero w && decide (fImm13 w = 0)) .psaved
  | _ => unlisted

/-- Major 0x7B (R168 R299). -/
def decMeter (w : IWord) : Except Reject Instr :=
  match (fF w).toNat with
  | 0 => need (aZero w && bZero w) (.mtrd (fD w))
  | 1 => need (aZero w && fits 4 (fB w)) (.mtcls (fD w) (lo4 (fB w)))
  | 2 => need (aZero w) (.pdly (fD w) (fB w))
  | _ => unlisted

/-- Major 0x7C (R168). -/
noncomputable def decFrame (w : IWord) : Except Reject Instr :=
  match (fF w).toNat with
  | 0 => .ok (.foffer (fD w) (fA w) (fB w))
  | 1 => .ok (.faccept (fD w) (fA w) (fB w))
  | 2 => .ok (.fdecline (fD w) (fA w) (fB w))
  | 3 => .ok (.fwithdraw (fD w) (fA w) (fB w))
  | 4 => .ok (.flend (fD w) (fA w) (fB w))
  | 5 => .ok (.frecall (fD w) (fA w) (fB w))
  | 6 => .ok (.frelease (fD w) (fA w) (fB w))
  | 7 => .ok (.fscrub (fD w) (fA w) (fB w))
  | _ => unlisted

/-- Major 0x7D (R168). -/
noncomputable def decKernel (w : IWord) : Except Reject Instr :=
  match (fF w).toNat with
  | 0 => .ok (.actload (fD w) (fA w) (fB w))
  | 1 => .ok (.actunld (fD w) (fA w) (fB w))
  | 2 => .ok (.actbind (fD w) (fA w) (fB w))
  | 3 => .ok (.tinv (fD w) (fA w) (fB w))
  | 4 => .ok (.ctxsw (fD w) (fA w) (fB w))
  | 5 => .ok (.aresume (fD w) (fA w) (fB w))
  | 6 => .ok (.akill (fD w) (fA w) (fB w))
  | 7 => .ok (.qset (fD w) (fA w) (fB w))
  | 8 => .ok (.epreq (fD w) (fA w) (fB w))
  | _ => unlisted

/-- The decoder of every major but 0x7C and 0x7D (R168 R169). -/
def decodeMain (w : IWord) : Except Reject Instr :=
  match (fOp w).toNat with
  | 0x01 => decAlu w
  | 0x02 => .ok (.addi (fD w) (fA w) (fImm13 w))
  | 0x03 => .ok (.andi (fD w) (fA w) (fImm13 w))
  | 0x04 => .ok (.ori (fD w) (fA w) (fImm13 w))
  | 0x05 => .ok (.xori (fD w) (fA w) (fImm13 w))
  | 0x06 => .ok (.slti (fD w) (fA w) (fImm13 w))
  | 0x07 => .ok (.sltin (fD w) (fA w) (fImm13 w))
  | 0x08 => decShiftImm w
  | 0x09 => .ok (.liu (fD w) (fImm19 w))
  | 0x0A => .ok (.addpc (fD w) (fImm19 w))
  | 0x0B => decSys w
  | 0x0C => decSys w
  | 0x10 => .ok (.ldB (fD w) (fA w) (fImm13 w))
  | 0x11 => .ok (.ldH (fD w) (fA w) (fImm13 w))
  | 0x12 => .ok (.ldW (fD w) (fA w) (fImm13 w))
  | 0x13 => .ok (.ldD (fD w) (fA w) (fImm13 w))
  | 0x14 => .ok (.ldBn (fD w) (fA w) (fImm13 w))
  | 0x15 => .ok (.ldHn (fD w) (fA w) (fImm13 w))
  | 0x16 => .ok (.ldWn (fD w) (fA w) (fImm13 w))
  | 0x18 => .ok (.stB (fA w) (fB w) (fImmS w))
  | 0x19 => .ok (.stH (fA w) (fB w) (fImmS w))
  | 0x1A => .ok (.stW (fA w) (fB w) (fImmS w))
  | 0x1B => .ok (.stD (fA w) (fB w) (fImmS w))
  | 0x1C => decLda w
  | 0x1D => decStl w
  | 0x1E => decPref w
  | 0x1F => decCacheOp w
  | 0x20 => .ok (.spldW (fD w) (fA w) (fImm13 w))
  | 0x21 => .ok (.spldD (fD w) (fA w) (fImm13 w))
  | 0x22 => .ok (.spstW (fA w) (fB w) (fImmS w))
  | 0x23 => .ok (.spstD (fA w) (fB w) (fImmS w))
  | 0x24 => decVm w
  | 0x25 => decVm w
  | 0x26 => decVm w
  | 0x27 => decVm w
  | 0x28 => decVs w
  | 0x29 => decVs w
  | 0x2A => decVs w
  | 0x2B => decVs w
  | 0x30 => .ok (.beq (fD w) (fA w) (fImm13 w))
  | 0x31 => .ok (.bne (fD w) (fA w) (fImm13 w))
  | 0x32 => .ok (.blt (fD w) (fA w) (fImm13 w))
  | 0x33 => .ok (.bge (fD w) (fA w) (fImm13 w))
  | 0x34 => .ok (.bltn (fD w) (fA w) (fImm13 w))
  | 0x35 => .ok (.bgen (fD w) (fA w) (fImm13 w))
  | 0x36 => decBp w
  | 0x37 => .ok (.j (fD w) (fImm19 w))
  | 0x38 => .ok (.jr (fD w) (fA w) (fImm13 w))
  | 0x39 => decLoop w
  | 0x3A => decLoop w
  | 0x40 => decV40 w
  | 0x41 => decV41 w
  | 0x42 => decV42 w
  | 0x43 => decV43 w
  | 0x44 => decV44 w
  | 0x45 => decV45 w
  | 0x46 => decV46 w
  | 0x47 => decTable w
  | 0x48 => decPred w
  | 0x49 => decV49 w
  | 0x50 => decSplice w
  | 0x51 => decSplice w
  | 0x52 => decSplice w
  | 0x53 => decSplice w
  | 0x54 => decSplice w
  | 0x55 => decSplice w
  | 0x56 => decSplice w
  | 0x58 => decReeve w
  | 0x59 => decReeve w
  | 0x5A => decReeve w
  | 0x5B => decReeve w
  | 0x5C => decReeve w
  | 0x5D => decReeve w
  | 0x5E => decReeve w
  | 0x60 => decAmo w
  | 0x61 => decRed w
  | 0x62 => need (decide ((fF w).extractLsb' 1 6 = 0)) (.cas (fD w) (fA w) (fB w) (AWidth.ofBit ((fF w).extractLsb' 0 1)))
  | 0x63 => need (bZero w && fZero w && chunkOk (fD w)) (.chunk (fD w) (fA w))
  | 0x64 => decFence w
  | 0x65 => decBarrier w
  | 0x66 => decIsync w
  | 0x68 => decRing w
  | 0x70 => decSend w
  | 0x71 => decMpop w
  | 0x72 => decTagOp w
  | 0x73 => decEnd w
  | 0x74 => need (dZero w && fZero w) (.fork (fA w) (fB w))
  | 0x75 => decSafept w
  | 0x78 => need (dZero w && aZero w) (.trap (fImm13 w))
  | 0x79 => need (dZero w && aZero w && decide (fImm13 w = 0)) .eret
  | 0x7A => need (dZero w && aZero w) (.bkpt (fImm13 w))
  | 0x7B => decMeter w
  | _ => unlisted

/-- The decoder (R168 R169): every word gives an instruction or is rejected by name. (`noncomputable` says only that the
compiler does not translate it: compiled code cannot build a value whose constructor stands after the 244th of its
type. The kernel evaluates it.) -/
noncomputable def decodeWord (w : IWord) : Except Reject Instr :=
  if fOp w = 0x7D then decKernel w else if fOp w = 0x7C then decFrame w else decodeMain w

/-- The 32-bit word of four bytes, little-endian (R163). -/
def wordOfBytes (b0 b1 b2 b3 : Byte) : IWord := b3 ++ b2 ++ b1 ++ b0

/-- The decoder on bytes: the first instruction and the bytes after it. -/
noncomputable def decodeBytes : List Byte → Except Reject (Instr × List Byte)
  | b0 :: b1 :: b2 :: b3 :: rest =>
    match decodeWord (wordOfBytes b0 b1 b2 b3) with
    | .ok i => .ok (i, rest)
    | .error e => .error e
  | _ => .error .short

/-- The four bytes of a word as memory holds them (R163). -/
def bytesOfWord (w : IWord) : List Byte :=
  [w.extractLsb' 0 8, w.extractLsb' 8 8, w.extractLsb' 16 8, w.extractLsb' 24 8]

/-- The instruction the decoder reads from a table row's word; every instruction has one 32-bit word (R163), so bits
above `nbits` are 0. -/
noncomputable def decodeTableWord (nbits w : Nat) : Option Instr :=
  match decodeBytes (bytesOfWord (BitVec.ofNat 32 (w % 2 ^ nbits))) with
  | .ok (i, _) => some i
  | .error _ => none

/-- R format (R165). -/
def fmtR (f : BitVec 7) (b a d : BitVec 6) (op : BitVec 7) : IWord := f ++ b ++ a ++ d ++ op
/-- I, B, L and X formats (R165). -/
def fmtI (imm : BitVec 13) (a d : BitVec 6) (op : BitVec 7) : IWord := imm ++ a ++ d ++ op
/-- S format (R165). -/
def fmtS (imm : BitVec 13) (b a : BitVec 6) (op : BitVec 7) : IWord :=
  imm.extractLsb' 6 7 ++ b ++ a ++ imm.extractLsb' 0 6 ++ op
/-- U and J formats (R165). -/
def fmtU (imm : BitVec 19) (d : BitVec 6) (op : BitVec 7) : IWord := imm ++ d ++ op
/-- V format (R165). -/
def fmtV (sub : BitVec 4) (p : PNum) (b a d : BitVec 6) (op : BitVec 7) : IWord := sub ++ p ++ b ++ a ++ d ++ op
/-- VM format (R165). -/
def fmtVM (off : BitVec 9) (t : BitVec 4) (a d : BitVec 6) (op : BitVec 7) : IWord := off ++ t ++ a ++ d ++ op
/-- M format (R165). -/
def fmtM (n : BitVec 3) (a : BitVec 6) (e : BitVec 8) (op : BitVec 7) : IWord := (0 : BitVec 8) ++ n ++ a ++ e ++ op

/-- A vector register number in a six-bit field (R166). -/
def up5 (v : BitVec 5) : BitVec 6 := (0 : BitVec 1) ++ v
/-- A ring handle, tag or message tag in a six-bit field (R166). -/
def up4 (h : BitVec 4) : BitVec 6 := (0 : BitVec 2) ++ h
/-- A predicate register number in a six-bit field (R166). -/
def up3 (q : BitVec 3) : BitVec 6 := (0 : BitVec 3) ++ q
/-- A code-table slot in a six-bit field (R168). -/
def up2 (s : BitVec 2) : BitVec 6 := (0 : BitVec 4) ++ s

/-- F of LDA and STL (R168). -/
def fLda (wd : Width) (sc : Scope) : BitVec 7 := (0 : BitVec 2) ++ sc.code ++ wd.code
/-- F of AMO and RED (R168). -/
def fAmo (op : BitVec 4) (wd : AWidth) (o : Order) : BitVec 7 := o.code ++ wd.bit ++ op
/-- F of the strided and gathered accesses (R168). -/
def fVs (p : PNum) (t : BitVec 4) : BitVec 7 := p ++ t

/-- The encoder: the word of an instruction (R165 R168); none for a step of the device, which has no word. -/
def encode : Instr → Option IWord
  | .add d a b => some (fmtR 0x00 b a d 0x01)
  | .sub d a b => some (fmtR 0x01 b a d 0x01)
  | .and d a b => some (fmtR 0x02 b a d 0x01)
  | .or d a b => some (fmtR 0x03 b a d 0x01)
  | .xor d a b => some (fmtR 0x04 b a d 0x01)
  | .andn d a b => some (fmtR 0x05 b a d 0x01)
  | .sll d a b => some (fmtR 0x08 b a d 0x01)
  | .srl d a b => some (fmtR 0x09 b a d 0x01)
  | .sra d a b => some (fmtR 0x0A b a d 0x01)
  | .rol d a b => some (fmtR 0x0B b a d 0x01)
  | .ror d a b => some (fmtR 0x0C b a d 0x01)
  | .slt d a b => some (fmtR 0x10 b a d 0x01)
  | .sltu d a b => some (fmtR 0x11 b a d 0x01)
  | .min d a b => some (fmtR 0x12 b a d 0x01)
  | .max d a b => some (fmtR 0x13 b a d 0x01)
  | .minu d a b => some (fmtR 0x14 b a d 0x01)
  | .maxu d a b => some (fmtR 0x15 b a d 0x01)
  | .seq d a b => some (fmtR 0x16 b a d 0x01)
  | .mul d a b => some (fmtR 0x18 b a d 0x01)
  | .mulh d a b => some (fmtR 0x19 b a d 0x01)
  | .mulhu d a b => some (fmtR 0x1A b a d 0x01)
  | .mulhsn d a b => some (fmtR 0x1B b a d 0x01)
  | .div d a b => some (fmtR 0x1C b a d 0x01)
  | .divu d a b => some (fmtR 0x1D b a d 0x01)
  | .rem d a b => some (fmtR 0x1E b a d 0x01)
  | .remu d a b => some (fmtR 0x1F b a d 0x01)
  | .lea1 d a b => some (fmtR 0x30 b a d 0x01)
  | .lea2 d a b => some (fmtR 0x31 b a d 0x01)
  | .lea4 d a b => some (fmtR 0x32 b a d 0x01)
  | .lea8 d a b => some (fmtR 0x33 b a d 0x01)
  | .clz d a => some (fmtR 0x20 0 a d 0x01)
  | .ctz d a => some (fmtR 0x21 0 a d 0x01)
  | .popc d a => some (fmtR 0x22 0 a d 0x01)
  | .brev d a => some (fmtR 0x23 0 a d 0x01)
  | .bswap d a => some (fmtR 0x24 0 a d 0x01)
  | .sextB d a => some (fmtR 0x28 0 a d 0x01)
  | .sextH d a => some (fmtR 0x29 0 a d 0x01)
  | .sextW d a => some (fmtR 0x2A 0 a d 0x01)
  | .zextB d a => some (fmtR 0x2C 0 a d 0x01)
  | .zextH d a => some (fmtR 0x2D 0 a d 0x01)
  | .zextW d a => some (fmtR 0x2E 0 a d 0x01)
  | .addi d a imm => some (fmtI imm a d 0x02)
  | .andi d a imm => some (fmtI imm a d 0x03)
  | .ori d a imm => some (fmtI imm a d 0x04)
  | .xori d a imm => some (fmtI imm a d 0x05)
  | .slti d a imm => some (fmtI imm a d 0x06)
  | .sltin d a imm => some (fmtI imm a d 0x07)
  | .slli d a n => some (fmtR 0 n a d 0x08)
  | .srli d a n => some (fmtR 1 n a d 0x08)
  | .srai d a n => some (fmtR 2 n a d 0x08)
  | .rori d a n => some (fmtR 3 n a d 0x08)
  | .liu d imm => some (fmtU imm d 0x09)
  | .addpc d imm => some (fmtU imm d 0x0A)
  | .sysr d r => some (fmtI r.num 0 d 0x0B)
  | .sysw r a => some (fmtI r.num a 0 0x0C)
  | .ldB d a imm => some (fmtI imm a d 0x10)
  | .ldH d a imm => some (fmtI imm a d 0x11)
  | .ldW d a imm => some (fmtI imm a d 0x12)
  | .ldD d a imm => some (fmtI imm a d 0x13)
  | .ldBn d a imm => some (fmtI imm a d 0x14)
  | .ldHn d a imm => some (fmtI imm a d 0x15)
  | .ldWn d a imm => some (fmtI imm a d 0x16)
  | .spldW d a imm => some (fmtI imm a d 0x20)
  | .spldD d a imm => some (fmtI imm a d 0x21)
  | .stB a b imm => some (fmtS imm b a 0x18)
  | .stH a b imm => some (fmtS imm b a 0x19)
  | .stW a b imm => some (fmtS imm b a 0x1A)
  | .stD a b imm => some (fmtS imm b a 0x1B)
  | .spstW a b imm => some (fmtS imm b a 0x22)
  | .spstD a b imm => some (fmtS imm b a 0x23)
  | .lda d a wd sc => some (fmtR (fLda wd sc) 0 a d 0x1C)
  | .stl a b wd sc => some (fmtR (fLda wd sc) b a 0 0x1D)
  | .pref k a imm => some (fmtI imm a k.code 0x1E)
  | .cclean a sc => some (fmtR 0 (up3 sc.code) a 0 0x1F)
  | .cinv a sc => some (fmtR 1 (up3 sc.code) a 0 0x1F)
  | .cflush a sc => some (fmtR 2 (up3 sc.code) a 0 0x1F)
  | .vld t vd a off => some (fmtVM off t.code a (up5 vd) 0x24)
  | .vst vd a off => some (fmtVM off 0 a (up5 vd) 0x25)
  | .spvld t vd a off => some (fmtVM off t.code a (up5 vd) 0x26)
  | .spvst vd a off => some (fmtVM off 0 a (up5 vd) 0x27)
  | .vlds t p vd a b => some (fmtR (fVs p t.code) b a (up5 vd) 0x28)
  | .vsts p vd a b => some (fmtR (fVs p 0) b a (up5 vd) 0x29)
  | .vgath t p vd a vb => some (fmtR (fVs p t.code) (up5 vb) a (up5 vd) 0x2A)
  | .vscat p vd a vb => some (fmtR (fVs p 0) (up5 vb) a (up5 vd) 0x2B)
  | .beq a b off => some (fmtI off b a 0x30)
  | .bne a b off => some (fmtI off b a 0x31)
  | .blt a b off => some (fmtI off b a 0x32)
  | .bge a b off => some (fmtI off b a 0x33)
  | .bltn a b off => some (fmtI off b a 0x34)
  | .bgen a b off => some (fmtI off b a 0x35)
  | .bpAny p off => some (fmtI off 0 ((0 : BitVec 3) ++ p) 0x36)
  | .bpAll p off => some (fmtI off 0 ((1 : BitVec 3) ++ p) 0x36)
  | .bpNone p off => some (fmtI off 0 ((2 : BitVec 3) ++ p) 0x36)
  | .j d off => some (fmtU off d 0x37)
  | .jr d a imm => some (fmtI imm a d 0x38)
  | .loop lvl a len => some (fmtI len a ((0 : BitVec 5) ++ BitVec.ofBool lvl) 0x39)
  | .loopi lvl count len => some (len ++ count ++ BitVec.ofBool lvl ++ (0x3A : BitVec 7))
  | .vadd p vd va vb => some (fmtV 0 p (up5 vb) (up5 va) (up5 vd) 0x40)
  | .vsub p vd va vb => some (fmtV 1 p (up5 vb) (up5 va) (up5 vd) 0x40)
  | .vmul p vd va vb => some (fmtV 2 p (up5 vb) (up5 va) (up5 vd) 0x40)
  | .vmulh p vd va vb => some (fmtV 3 p (up5 vb) (up5 va) (up5 vd) 0x40)
  | .vmin p vd va vb => some (fmtV 4 p (up5 vb) (up5 va) (up5 vd) 0x40)
  | .vmax p vd va vb => some (fmtV 5 p (up5 vb) (up5 va) (up5 vd) 0x40)
  | .vadds p vd va vb => some (fmtV 8 p (up5 vb) (up5 va) (up5 vd) 0x40)
  | .vsubs p vd va vb => some (fmtV 9 p (up5 vb) (up5 va) (up5 vd) 0x40)
  | .vavg p vd va vb => some (fmtV 10 p (up5 vb) (up5 va) (up5 vd) 0x40)
  | .vdif p vd va vb => some (fmtV 11 p (up5 vb) (up5 va) (up5 vd) 0x40)
  | .vabs p vd va => some (fmtV 6 p 0 (up5 va) (up5 vd) 0x40)
  | .vneg p vd va => some (fmtV 7 p 0 (up5 va) (up5 vd) 0x40)
  | .vand p vd va vb => some (fmtV 0 p (up5 vb) (up5 va) (up5 vd) 0x41)
  | .vor p vd va vb => some (fmtV 1 p (up5 vb) (up5 va) (up5 vd) 0x41)
  | .vxor p vd va vb => some (fmtV 2 p (up5 vb) (up5 va) (up5 vd) 0x41)
  | .vandn p vd va vb => some (fmtV 3 p (up5 vb) (up5 va) (up5 vd) 0x41)
  | .vshl p vd va vb => some (fmtV 5 p (up5 vb) (up5 va) (up5 vd) 0x41)
  | .vshr p vd va vb => some (fmtV 6 p (up5 vb) (up5 va) (up5 vd) 0x41)
  | .vsra p vd va vb => some (fmtV 7 p (up5 vb) (up5 va) (up5 vd) 0x41)
  | .vrot p vd va vb => some (fmtV 8 p (up5 vb) (up5 va) (up5 vd) 0x41)
  | .vnot p vd va => some (fmtV 4 p 0 (up5 va) (up5 vd) 0x41)
  | .vshli p vd va n => some (fmtV 9 p n (up5 va) (up5 vd) 0x41)
  | .vshri p vd va n => some (fmtV 10 p n (up5 va) (up5 vd) 0x41)
  | .vsrai p vd va n => some (fmtV 11 p n (up5 va) (up5 vd) 0x41)
  | .vfma p vd va vb => some (fmtV 0 p (up5 vb) (up5 va) (up5 vd) 0x42)
  | .vfms p vd va vb => some (fmtV 1 p (up5 vb) (up5 va) (up5 vd) 0x42)
  | .vdiv p vd va vb => some (fmtV 0 p (up5 vb) (up5 va) (up5 vd) 0x43)
  | .vsqrt p vd va => some (fmtV 1 p 0 (up5 va) (up5 vd) 0x43)
  | .vrcp p vd va => some (fmtV 2 p 0 (up5 va) (up5 vd) 0x43)
  | .vrsq p vd va => some (fmtV 3 p 0 (up5 va) (up5 vd) 0x43)
  | .vexp2 p vd va => some (fmtV 4 p 0 (up5 va) (up5 vd) 0x43)
  | .vlog2 p vd va => some (fmtV 5 p 0 (up5 va) (up5 vd) 0x43)
  | .vclass p vd va => some (fmtV 7 p 0 (up5 va) (up5 vd) 0x43)
  | .vsel p vd va vb => some (fmtV 8 p (up5 vb) (up5 va) (up5 vd) 0x44)
  | .vceq p pd va vb => some (fmtV 0 p (up5 vb) (up5 va) (up3 pd) 0x44)
  | .vcne p pd va vb => some (fmtV 1 p (up5 vb) (up5 va) (up3 pd) 0x44)
  | .vclt p pd va vb => some (fmtV 2 p (up5 vb) (up5 va) (up3 pd) 0x44)
  | .vcle p pd va vb => some (fmtV 3 p (up5 vb) (up5 va) (up3 pd) 0x44)
  | .vshuf p vd va vb => some (fmtV 0 p (up5 vb) (up5 va) (up5 vd) 0x45)
  | .vzip p vd va vb => some (fmtV 1 p (up5 vb) (up5 va) (up5 vd) 0x45)
  | .vuzp p vd va vb => some (fmtV 2 p (up5 vb) (up5 va) (up5 vd) 0x45)
  | .vdot p vd va vb => some (fmtV 10 p (up5 vb) (up5 va) (up5 vd) 0x45)
  | .vredadd p vd va => some (fmtV 7 p 0 (up5 va) (up5 vd) 0x45)
  | .vredmax p vd va => some (fmtV 8 p 0 (up5 va) (up5 vd) 0x45)
  | .vredmin p vd va => some (fmtV 9 p 0 (up5 va) (up5 vd) 0x45)
  | .vpack p vd va vb => some (fmtV 3 p (up5 vb) (up5 va) (up5 vd) 0x46)
  | .vunpkl p vd va => some (fmtV 4 p 0 (up5 va) (up5 vd) 0x46)
  | .vunpkh p vd va => some (fmtV 5 p 0 (up5 va) (up5 vd) 0x46)
  | .vmov p vd va => some (fmtV 0 p 0 (up5 va) (up5 vd) 0x49)
  | .vrnd p vd va m => some (fmtV 6 p m.code (up5 va) (up5 vd) 0x43)
  | .vsld p vd va k => some (fmtV 3 p (up4 k) (up5 va) (up5 vd) 0x45)
  | .vbcast p vd va l => some (fmtV 4 p (up5 l) (up5 va) (up5 vd) 0x45)
  | .vins p vd a l => some (fmtV 5 p (up5 l) a (up5 vd) 0x45)
  | .vext d va l => some (fmtV 6 0 (up5 l) (up5 va) d 0x45)
  | .vcvt p vd va u => some (fmtV 0 p (up4 u.code) (up5 va) (up5 vd) 0x46)
  | .vretag p vd va u => some (fmtV 1 p (up4 u.code) (up5 va) (up5 vd) 0x46)
  | .vtag vd u => some (fmtV 2 0 (up4 u.code) 0 (up5 vd) 0x46)
  | .venc p vd va slot part => some (fmtV 6 p ((0 : BitVec 1) ++ part ++ slot) (up5 va) (up5 vd) 0x46)
  | .vdec p vd va slot part => some (fmtV 7 p ((0 : BitVec 1) ++ part ++ slot) (up5 va) (up5 vd) 0x46)
  | .ctld slot a => some (fmtR 0 0 a (up2 slot) 0x47)
  | .ctldi slot n wd => some (fmtR 1 n wd.code (up2 slot) 0x47)
  | .ctst slot a => some (fmtR 2 0 a (up2 slot) 0x47)
  | .ctinfo d slot => some (fmtR 3 (up2 slot) 0 d 0x47)
  | .pand pd pa pb => some (fmtR 0 (up3 pb) (up3 pa) (up3 pd) 0x48)
  | .por pd pa pb => some (fmtR 1 (up3 pb) (up3 pa) (up3 pd) 0x48)
  | .pxor pd pa pb => some (fmtR 2 (up3 pb) (up3 pa) (up3 pd) 0x48)
  | .pnot pd pa => some (fmtR 3 0 (up3 pa) (up3 pd) 0x48)
  | .pseti pd n => some (fmtR 4 n 0 (up3 pd) 0x48)
  | .pfrom pd a => some (fmtR 5 0 a (up3 pd) 0x48)
  | .pto d pa => some (fmtR 6 0 (up3 pa) d 0x48)
  | .pcnt d pa => some (fmtR 7 0 (up3 pa) d 0x48)
  | .pfirst d pa => some (fmtR 8 0 (up3 pa) d 0x48)
  | .vzero vd u => some (fmtV 1 0 (up4 u.code) 0 (up5 vd) 0x49)
  | .vsplati p vd v u => some (fmtV 2 p (up4 u.code) v (up5 vd) 0x49)
  | .mctx a => some (fmtR 0 0 a 0 0x50)
  | .mma d ha hb => some (fmtR 0 (up4 hb) (up4 ha) d 0x51)
  | .mmar d ha hb => some (fmtR 0 (up4 hb) (up4 ha) d 0x52)
  | .mmarLast d ha hb => some (fmtR 1 (up4 hb) (up4 ha) d 0x52)
  | .mzero d => some (fmtR 0 0 0 d 0x53)
  | .mrdacc d ha t => some (fmtR 0 t.field (up4 ha) d 0x54)
  | .mwait d a => some (fmtR 0 0 a d 0x55)
  | .mpoll d a => some (fmtR 0 0 a d 0x56)
  | .cpy d g => some (fmtR 0 0 (g ++ (0 : BitVec 2)) d 0x58)
  | .cpy2 d g => some (fmtR 0 0 (g ++ (0 : BitVec 2)) d 0x59)
  | .cpypl d g => some (fmtR 0 0 (g ++ (0 : BitVec 2)) d 0x5A)
  | .cpyrd d g => some (fmtR 0 0 (g ++ (0 : BitVec 2)) d 0x5B)
  | .cpyfill d g => some (fmtR 0 0 (g ++ (0 : BitVec 2)) d 0x5C)
  | .cwait d a => some (fmtR 0 0 a d 0x5D)
  | .cpoll d a => some (fmtR 0 0 a d 0x5E)
  | .amoAdd d a b wd o => some (fmtR (fAmo 0 wd o) b a d 0x60)
  | .amoAnd d a b wd o => some (fmtR (fAmo 1 wd o) b a d 0x60)
  | .amoOr d a b wd o => some (fmtR (fAmo 2 wd o) b a d 0x60)
  | .amoXor d a b wd o => some (fmtR (fAmo 3 wd o) b a d 0x60)
  | .amoMin d a b wd o => some (fmtR (fAmo 4 wd o) b a d 0x60)
  | .amoMax d a b wd o => some (fmtR (fAmo 5 wd o) b a d 0x60)
  | .amoMinn d a b wd o => some (fmtR (fAmo 6 wd o) b a d 0x60)
  | .amoMaxn d a b wd o => some (fmtR (fAmo 7 wd o) b a d 0x60)
  | .amoSwap d a b wd o => some (fmtR (fAmo 8 wd o) b a d 0x60)
  | .amoFadd d a b wd o => some (fmtR (fAmo 9 wd o) b a d 0x60)
  | .redAdd a b wd o => some (fmtR (fAmo 0 wd o) b a 0 0x61)
  | .redAnd a b wd o => some (fmtR (fAmo 1 wd o) b a 0 0x61)
  | .redOr a b wd o => some (fmtR (fAmo 2 wd o) b a 0 0x61)
  | .redXor a b wd o => some (fmtR (fAmo 3 wd o) b a 0 0x61)
  | .redMin a b wd o => some (fmtR (fAmo 4 wd o) b a 0 0x61)
  | .redMax a b wd o => some (fmtR (fAmo 5 wd o) b a 0 0x61)
  | .redMinn a b wd o => some (fmtR (fAmo 6 wd o) b a 0 0x61)
  | .redMaxn a b wd o => some (fmtR (fAmo 7 wd o) b a 0 0x61)
  | .redFadd a b wd o => some (fmtR (fAmo 9 wd o) b a 0 0x61)
  | .cas d a b wd => some (fmtR ((0 : BitVec 6) ++ wd.bit) b a d 0x62)
  | .chunk d a => some (fmtR 0 0 a d 0x63)
  | .fenceAcq sc => some (fmtR ((0 : BitVec 2) ++ (0 : BitVec 2) ++ sc.code) 0 0 0 0x64)
  | .fenceRel sc => some (fmtR ((0 : BitVec 2) ++ (1 : BitVec 2) ++ sc.code) 0 0 0 0x64)
  | .fenceFull sc => some (fmtR ((0 : BitVec 2) ++ (2 : BitVec 2) ++ sc.code) 0 0 0 0x64)
  | .barrive d a => some (fmtR 0 0 a d 0x65)
  | .barrived d a => some (fmtR 1 0 a d 0x65)
  | .barwait a b => some (fmtR 2 b a 0 0x65)
  | .bartry d a b => some (fmtR 3 b a d 0x65)
  | .barinit a b sc => some (fmtR ((0 : BitVec 1) ++ sc.code ++ (4 : BitVec 3)) b a 0 0x65)
  | .jinit d a b => some (fmtR 5 b a d 0x65)
  | .isync sc => some (fmtR ((0 : BitVec 4) ++ sc.code) 0 0 0 0x66)
  | .rdef h b => some (fmtR 0 b (up4 h) 0 0x68)
  | .rwaitf h n => some (fmtR 1 (up4 n) (up4 h) 0 0x68)
  | .rwaite h n => some (fmtR 2 (up4 n) (up4 h) 0 0x68)
  | .radvh h n => some (fmtR 3 (up4 n) (up4 h) 0 0x68)
  | .radvt h n => some (fmtR 4 (up4 n) (up4 h) 0 0x68)
  | .rinfo d h => some (fmtR 5 0 (up4 h) d 0x68)
  | .send ep a n => some (fmtM n a ep 0x70)
  | .mpop d t => some (fmtR 0 (up4 t) 0 d 0x71)
  | .mpeek d t => some (fmtR 1 (up4 t) 0 d 0x71)
  | .tagen t => some (fmtR 0 (up4 t) 0 0 0x72)
  | .tagdis t => some (fmtR 1 (up4 t) 0 0 0x72)
  | .tagpend d t => some (fmtR 2 (up4 t) 0 d 0x72)
  | .endh => some (fmtR 0 0 0 0 0x73)
  | .endj a => some (fmtR 1 0 a 0 0x73)
  | .fork a b => some (fmtR 0 b a 0 0x74)
  | .safept n => some (fmtI ((0 : BitVec 5) ++ n) 0 0 0x75)
  | .psaved => some (fmtI 0 0 1 0x75)
  | .trap n => some (fmtI n 0 0 0x78)
  | .eret => some (fmtI 0 0 0 0x79)
  | .bkpt n => some (fmtI n 0 0 0x7A)
  | .mtrd d => some (fmtR 0 0 0 d 0x7B)
  | .mtcls d c => some (fmtR 1 (up4 c) 0 d 0x7B)
  | .pdly d i => some (fmtR 2 i 0 d 0x7B)
  | .foffer d a b => some (fmtR 0 b a d 0x7C)
  | .faccept d a b => some (fmtR 1 b a d 0x7C)
  | .fdecline d a b => some (fmtR 2 b a d 0x7C)
  | .fwithdraw d a b => some (fmtR 3 b a d 0x7C)
  | .flend d a b => some (fmtR 4 b a d 0x7C)
  | .frecall d a b => some (fmtR 5 b a d 0x7C)
  | .frelease d a b => some (fmtR 6 b a d 0x7C)
  | .fscrub d a b => some (fmtR 7 b a d 0x7C)
  | .actload d a b => some (fmtR 0 b a d 0x7D)
  | .actunld d a b => some (fmtR 1 b a d 0x7D)
  | .actbind d a b => some (fmtR 2 b a d 0x7D)
  | .tinv d a b => some (fmtR 3 b a d 0x7D)
  | .ctxsw d a b => some (fmtR 4 b a d 0x7D)
  | .aresume d a b => some (fmtR 5 b a d 0x7D)
  | .akill d a b => some (fmtR 6 b a d 0x7D)
  | .qset d a b => some (fmtR 7 b a d 0x7D)
  | .epreq d a b => some (fmtR 8 b a d 0x7D)
  | .ctxswRestore d a b => some (fmtR 4 b a d 0x7D)
  | .ctxswFresh d a b => some (fmtR 4 b a d 0x7D)
  | .illegal w => some w
  | _ => none

/-- The word an executing instruction stands in, for a trap whose EVAL is the word (R184). -/
def Instr.word (i : Instr) : IWord := (encode i).getD 0

end Sys2Proof
end

