-- ==== Sys2Proof/Machine/State.lean ====
section
/-!
DEFINITION. The state of the package: every piece of state the spec names (INVENTORY.md, State), plain data, the reasons
a step can stop, and the state after package reset.
-/
namespace Sys2Proof.Machine

/-- A sparse table: pairs of a key and a value, keys strictly rising. -/
abbrev Tab (α : Type) := List (Nat × α)

/-- Bytes by address (05 R77), addresses strictly rising, no entry equal to what an unlisted address reads as. -/
abbrev Memory := List Host.Cell

/-- Trap causes (11 R184). -/
inductive Cause where
  | illegal | reservedField | delaySlot | privilege | tagMismatch | tagNone | shiftRange | misaligned | loopNest
  | pageAbsent | pagePerm | pteReserved | frameNotOwned | frameRevoked | window | dataLost
  | endpoint | msgType | mpopTag | ring | engineOperand | table
  | breakpoint | watchpoint | step | trap | saveFault
  deriving DecidableEq, Repr

/-- What ends a run of the machine. -/
inductive Fault where
  /-- Raised by `step` alone, when the agenda (the model's own list, log 1) names as a device step an instruction that
  has a word and so is no device step. Safe: no run of the hardware is shown. -/
  | notAStep
  deriving DecidableEq, Repr

/-- What the machine does not run. -/
inductive Refusal where
  /-- Raised by `exec`'s arm of an instruction that has no meaning yet. Safe: nothing is shown of it. -/
  | notModelled (mnemonic : String)
  deriving DecidableEq, Repr

/-- A vector register (11 R174). -/
structure VReg where
  bits : Quad
  tag : Tag
  deriving DecidableEq, Repr

/-- The registers an activation owns (11 R172-R176 R182, 09 R141 R142, 27 R366). -/
structure Regs where
  s : Vector Word 64
  v : Vector VReg 32
  p : Vector (BitVec 32) 8
  lc0 : Word
  ls0 : Word
  le0 : Word
  lc1 : Word
  ls1 : Word
  le1 : Word
  fmode : Word
  fstat : Word
  epc : Word
  ecause : Word
  eval : Word
  ebt : Word
  eds : Word
  holdc : Word
  deriving DecidableEq, Repr

/-- Every register at its start value (11 R177). -/
def Regs.start : Regs :=
  { s := Vector.replicate 64 0, v := Vector.replicate 32 { bits := 0, tag := .none }, p := Vector.replicate 8 0,
    lc0 := 0, ls0 := 0, le0 := 0, lc1 := 0, ls1 := 0, le1 := 0, fmode := 0, fstat := 0,
    epc := 0, ecause := 0, eval := 0, ebt := 0, eds := 0, holdc := 0 }

/-- What an activation waits for (03 R65; 19 R273 R296 R300; 05 R110). -/
inductive Wait where
  /-- MPOP on a tag with no message in the store -/
  | mpop (tag : Nat)
  /-- MWAIT (`splice`) or CWAIT on a job id -/
  | job (splice : Bool) (id : Nat)
  /-- BARWAIT on a block and a phase -/
  | barrier (addr phase : Word)
  /-- RWAITF or RWAITE (`empty`) on a handle -/
  | ring (empty : Bool) (h n : Nat)
  /-- a full injection queue (R45), with the entry SEND read first (R247) -/
  | inject (entry : Word)
  /-- a full engine queue (R18 R273) -/
  | port (splice : Bool)
  /-- a line an outside host holds (R110) -/
  | line (pl : Nat)
  /-- the arithmetic clocks of the die of a core, on which what the word would change stands still (31 R405) -/
  | clock (core : Nat)
  /-- the status of a kernel operation (R300) -/
  | kernelOp
  /-- the status of a frame transaction (R296) -/
  | frameOp
  deriving DecidableEq, Repr

/-- Why an activation is requested to stop (21 R315). -/
inductive Request where
  | evict | quota | halt
  deriving DecidableEq, Repr

/-- A pending pre-emption request: its cause, when it was raised, and the budget of R314. -/
structure Preempt where
  why : Request
  at_ : Nat
  budget : Nat
  deriving DecidableEq, Repr

/-- A running save routine (03 R69 R70): the SAFEPT's address, its number, the instructions retired in the routine. -/
structure SaveRun where
  addr : Word
  n : Nat
  retired : Nat
  deriving DecidableEq, Repr

/-- Whether an activation runs, is parked by a trap (21 R307), or is held in a save record (03 R70 R72). -/
inductive Status where
  | running | parked
  /-- saved in a hardware dump, or at a safe point; `parked`: it was parked when saved -/
  | saved (dump parked : Bool)
  deriving DecidableEq, Repr

/-- Why an activation is halted by a debug hold (27 R370-R372). -/
inductive Halt where
  | none
  /-- halted by a hold command, or with its group -/
  | group
  /-- halted by a breakpoint register, a watchpoint, BKPT, or a step -/
  | hit (c : Cause)
  /-- it runs one word and halts again (27 R371) -/
  | step
  deriving DecidableEq, Repr

/-- One activation in its slot (03 R32). -/
structure Act where
  regs : Regs
  pc : Word
  /-- delay slots owed from `pc` (11 R185) -/
  owed : Nat
  /-- where execution goes after the owed slots -/
  btarget : Word
  dom : Nat
  kernel : Bool
  prio : Nat
  /-- the effective class after ageing (03 R64) -/
  aged : Nat
  actor : Option Nat
  tag : Nat
  /-- s5 at the start (21 R310) -/
  s5 : Word
  /-- the entry it started at (27 R375) -/
  entry : Word
  /-- the restore routine of the safe point it was saved at (03 R68 R71) -/
  restore : Word
  status : Status
  wait : Option Wait
  /-- orders the stalls of one core: the earlier stall has the lower number (17 R248) -/
  stallNo : Nat
  preempt : Option Preempt
  saving : Option SaveRun
  halt : Halt
  /-- the next fetch does not match breakpoint registers (27 R371 R372) -/
  noBreak : Bool
  /-- the functions of R30 it started under, bit 0 first row; 1 host-assisted -/
  modes : BitVec 6
  /-- a number no other activation has -/
  serial : Nat
  /-- energy charged at its start and at the retire of its instructions (27 R375) -/
  eu : Nat
  /-- the route tag of R375 -/
  route : Word
  /-- when a saved activation became due for resumption (21 R316) -/
  due : Option Nat
  /-- an ARESUME or AKILL of a parked, saved activation has been recorded (21 R311) -/
  decided : Bool
  /-- the second trap actor's or TRAP2's message was used: the kernel whose trap endpoint received it (19 R303) -/
  trapKernel : Nat
  /-- its trap message is under way and not yet placed (21 R310) -/
  trapOut : Bool
  /-- the number of its latest issue, 0 for none since it started or became ready (03 R64) -/
  lastIssue : Nat
  /-- TIME at which it became ready, or last issued (03 R64) -/
  ready : Nat
  /-- what it waited for has been seen to hold, so that it is ready (03 R65) -/
  ended : Bool
  /-- a debug release passed over the BKPT it stands at while it was saved (27 R372) -/
  skip : Bool
  /-- its latest start was that of its restore routine (03 R71) -/
  restored : Bool
  deriving DecidableEq, Repr

/-- The start state (11 R177) of an activation of domain 0 at address 0. -/
def Act.blank : Act :=
  { regs := Regs.start, pc := 0, owed := 0, btarget := 0, dom := 0, kernel := false, prio := 0, aged := 0, actor := none,
    tag := 0, s5 := 0, entry := 0, restore := 0, status := .running, wait := none, stallNo := 0, preempt := none, saving := none, halt := .none,
    noBreak := false, modes := 0, serial := 0, eu := 0, route := 0, due := none, decided := false, trapKernel := 0,
    trapOut := false, lastIssue := 0, ready := 0, ended := false, skip := false,
    restored := false }

/-- A message (03 R40): where it goes, its header, its payload; `via`, what s7 holds of a homeless one (21 R327);
`src`, the entry it went through, as source-core value × 256 + index; `reached`, whether it waits at its core (R45). -/
structure Msg where
  dom : Nat
  core : Nat
  actor : Nat
  tag : Nat
  hdr : Word
  words : List Word
  via : Word
  src : Nat
  reached : Bool
  /-- the scope its claim acquires at, where that is not the smallest one that covers both cores (07 R118, 30 R397) -/
  acq : Option Scope := none
  deriving DecidableEq, Repr

/-- A message in an arrival store (03 R44 R52), with its arrival number and the slot it is reserved to. -/
structure Stored where
  msg : Msg
  arrived : Nat
  slot : Option Nat
  deriving DecidableEq, Repr

/-- A message an agent sends to another package or host, waiting in an injection queue (03 R45). -/
structure Outgoing where
  /-- 0 this package, p + 1 the peer on port p -/
  pkg : Nat
  msg : Msg
  deriving DecidableEq, Repr

/-- A tag of a loaded actor (03 R35) with its tag state (R47). -/
structure TagEnt where
  present : Bool
  entry : Word
  prio : Nat
  fire : Nat
  len : Nat
  en : Bool
  slog : Nat
  sbase : Word
  head : Nat
  tail : Nat
  /-- the ring could not be written: later spills go homeless (R47) -/
  broken : Bool
  /-- the messages between `head` and `tail` as they were spilled -/
  ring : List Stored
  deriving DecidableEq, Repr

/-- An actor loaded on a core (03 R33 R34). -/
structure Actor where
  kernel : Bool
  conc : Bool
  spoff : Nat
  spsize : Nat
  mbase : Word
  msize : Nat
  dqbase : Word
  dqlog : Nat
  steal : Nat
  savebase : Word
  tags : List TagEnt
  deriving DecidableEq, Repr

/-- A ring handle (17 R269). -/
structure Ring where
  desc : Word
  head : BitVec 16
  tail : BitVec 16
  meta_ : List Word
  /-- which RDEF defined it, by the order of issues -/
  born : Nat
  deriving DecidableEq, Repr

/-- A code-table slot (09 R148 R149): its header and its 256 entries. -/
structure CodeSlot where
  hdr : BitVec 32
  ents : List (BitVec 32)
  deriving DecidableEq, Repr

/-- A Splice format context (19 R280 R281) with the tables it copied. -/
structure SpliceCtx where
  word : Word
  atab : Option CodeSlot
  btab : Option CodeSlot
  deriving DecidableEq, Repr

/-- What a Splice job does (19 R282-R286). -/
inductive SpliceOp where
  | mma (ha hb : Nat)
  | mmar (ha hb : Nat)
  | mmarLast (ha hb : Nat)
  | mzero
  | mrdacc (ha : Nat) (t : AccTarget) (tab : Option CodeSlot)
  deriving DecidableEq, Repr

/-- A slot of a ring that a Splice job took at its start, with the metadata it then had (19 R282 R286). -/
structure TakenSlot where
  slot : Nat
  meta_ : Word
  deriving DecidableEq, Repr

/-- No slot taken yet. -/
def TakenSlot.none : TakenSlot := { slot := 0, meta_ := 0 }

/-- An accepted Splice job that has not ended (19 R273 R282). -/
structure SpliceJob where
  core : Nat
  id : Nat
  op : SpliceOp
  ctx : SpliceCtx
  dom : Nat
  running : Bool
  /-- MMAR: the tests of its start have passed, and a slot of each neighbour's ring is kept for its tile (R283) -/
  passed : Bool
  /-- ta and tb of R282, or in `ta` the free slot of MRDACC (R286), as taken at its start -/
  ta : TakenSlot
  tb : TakenSlot
  /-- a number no other job has -/
  serial : Nat
  /-- MMAR: which forwarded tiles have landed, the neighbour's TAIL advanced (R283) -/
  westTail : Bool
  northTail : Bool
  deriving DecidableEq, Repr

/-- The five Reeve forms (19 R290). -/
inductive ReeveForm where
  | cpy | cpy2 | cpypl | cpyrd | cpyfill
  deriving DecidableEq, Repr

/-- An accepted Reeve job that has not ended (19 R289). -/
structure ReeveJob where
  core : Nat
  id : Nat
  form : ReeveForm
  src : Word
  dst : Word
  shape : Word
  ctl : Word
  dom : Nat
  kernel : Bool
  modes : BitVec 6
  running : Bool
  /-- the slot of RH it fills, once it has one -/
  slot : Option Nat
  /-- held at a translation unit for an absent entry (R99), and the kernel's answer -/
  held : Bool
  killed : Bool
  trapKernel : Nat
  trapOut : Bool
  /-- the number of the activation that issued it -/
  issuer : Nat
  /-- bytes completed before it was held at a translation unit -/
  done : Nat
  /-- its units have gone to a Lanyard port, and the bytes of those acknowledged (R394 R396) -/
  sent : Bool
  acked : Nat
  /-- a number no other job has -/
  serial : Nat
  /-- the Lanyard port that its units have gone to (R394) -/
  port : Option Nat
  /-- the port has told its end, and the cause of one that failed, while the clocks of its die stood still (31 R405) -/
  ending : Option (Option Cause)
  deriving DecidableEq, Repr

/-- A job that ended while its context was under a debug hold (19 R276, 27 R372). -/
structure Unseen where
  splice : Bool
  core : Nat
  id : Nat
  dom : Nat
  status : Word
  notify : Bool
  ep : Nat
  words : List Word
  deriving DecidableEq, Repr

/-- The statuses of the jobs of one core in one engine (19 R274): the next sequence number and the 256 newest. -/
structure JobTable where
  seq : Nat
  jobs : List (Nat × Word)
  deriving DecidableEq, Repr

/-- A deferred barrier arrival (17 R265): the block, the arriving domain, core and mode, and the numbers of the Reeve jobs
that have not landed. -/
structure Defer where
  dom : Nat
  core : Nat
  kernel : Bool
  block : Word
  jobs : List Nat
  deriving DecidableEq, Repr

/-- A byte's release stamp (07 R128): the releasing core and the scope. -/
structure Stamp where
  core : Nat
  scope : Scope
  deriving DecidableEq, Repr

/-- The leaf bits a line records (05 R81 R91). -/
structure Perms where
  r : Bool
  w : Bool
  x : Bool
  k : Bool
  deriving DecidableEq, Repr

/-- A line of an L1 data cache (05 R81). -/
structure L1Line where
  dom : Nat
  /-- virtual line number, bits [56:7] -/
  vl : Nat
  data : LineBits
  valid : BitVec 128
  dirty : BitVec 128
  perms : Perms
  keyid : Nat
  /-- the physical line it was filled from -/
  pl : Nat
  stamps : Tab Stamp
  deriving DecidableEq, Repr

/-- A line of an L1 instruction cache (05 R82, 07 R134). -/
structure ILine where
  dom : Nat
  vl : Nat
  data : LineBits
  perms : Perms
  pl : Nat
  deriving DecidableEq, Repr

/-- A line of L2 in its home slice (05 R84 R85), keyed in the state by its physical line. -/
structure L2Line where
  /-- the canonical tag (R97) -/
  dom : Nat
  vl : Nat
  data : LineBits
  dirty : Bool
  perms : Perms
  keyid : Nat
  /-- the generation of KEYID's key that seals it (R85 R107) -/
  gen : Nat
  /-- the way of its set that it lies in (R86) -/
  way : Nat
  deriving DecidableEq, Repr

/-- A translation entry of a translation unit (05 R95). -/
structure TEntry where
  unit : Nat
  dom : Nat
  /-- log2 of its page: 12, 16, 21 or 30 -/
  log : Nat
  /-- virtual address over 2^log -/
  vpn : Nat
  /-- physical address over 2^log -/
  ppn : Nat
  perms : Perms
  g : Bool
  /-- the table frames read for it, the root's last -/
  tables : List Nat
  deriving DecidableEq, Repr

/-- A walk-cache entry (05 R95): the table of `level` for the addresses with this prefix. -/
structure WEntry where
  unit : Nat
  dom : Nat
  level : Nat
  prefix_ : Nat
  frame : Nat
  /-- the table frames read for it, the root's last -/
  tables : List Nat
  deriving DecidableEq, Repr

/-- STATE of a frame (05 R101). -/
inductive FrameState where
  | free | owned | offered | lent | recalling | scrubbing | retired
  deriving DecidableEq, Repr

/-- A frame ownership entry (05 R101), with the recall's deadline and the closing's progress (R106). -/
structure Frame where
  late : Nat
  dclass : Nat
  state : FrameState
  keyid : Nat
  peer : Nat
  owner : Nat
  /-- TIME at which a RECALLING frame's loan closes (R105) -/
  deadline : Nat
  /-- the deadline has passed and closing runs (R106) -/
  closing : Bool
  /-- clusters still to process the invalidation, and those found dirty -/
  pending : List Nat
  dirtied : List Nat
  /-- cluster and number of lines of kept bytes written back after the deadline (LATE_WRITE) -/
  lateLines : List (Nat × Nat)
  deriving DecidableEq, Repr

/-- A request of the core's outstanding ones (27 R376, 13 R214): which accumulator its response credits, and the
prefetch it answers. -/
structure Pending where
  da : Option Nat
  /-- a prefetch: domain, address, kernel mode, kind; `walked`: its translation is done, `reads` the table reads it made,
  which are charged when its line comes (23 R336) -/
  pref : Option (Nat × Word × Bool × PrefKind)
  walked : Bool
  reads : List (Nat × Nat)
  deriving DecidableEq, Repr

/-- An entry of a residency table (21 R325): an evicted actor with its tag state. -/
structure Resident where
  dom : Nat
  index : Nat
  block : Word
  actor : Actor
  /-- tags of which a message went homeless since the eviction -/
  gone : List Nat
  deriving DecidableEq, Repr

/-- Two residency entries are for one block of one actor. -/
def Resident.same (a b : Resident) : Bool :=
  decide (a.dom = b.dom) && decide (a.index = b.index) && decide (a.block = b.block)

/-- A thief's state (03 R62). -/
structure Steal where
  /-- slot held for the outstanding request -/
  slot : Option Nat
  /-- the last victim visited, and the victims of this pass still to visit -/
  last : Nat
  left : List Nat
  /-- the pass has begun and not ended -/
  active : Bool
  /-- TIME of the next pass after one that obtained nothing -/
  retry : Nat
  deriving DecidableEq, Repr

/-- A hardware FSCRUB whose frames are SCRUBBING (05 R103, 19 R296): the waiting activation and its word's registers, the
domain it is issued for, the release asked for, the first frame and the number requested, the frames that entered
SCRUBBING, the frames excluded so far, the RESULT so far, the receipt buffer. -/
structure Scrub where
  core : Nat
  slot : Nat
  d : SReg
  a : SReg
  b : SReg
  for_ : Nat
  rel : Bool
  first : Nat
  asked : Nat
  entered : List Nat
  excluded : List Nat
  result : Nat
  buffer : Word
  deriving DecidableEq, Repr

/-- An eviction under way (21 R320): the issuing activation's core and slot and its word's registers, the image's address
in the context, the activations that were saved before it began. -/
structure Evict where
  byCore : Nat
  bySlot : Nat
  d : SReg
  a : SReg
  b : SReg
  image : Word
  before : Nat
  deriving DecidableEq, Repr

/-- A core (01 R21 R25). -/
structure Core where
  /-- the context that holds it (R22) -/
  dom : Option Nat
  spad : Memory
  l1 : List L1Line
  l1i : List ILine
  endpoints : Tab Word
  store : List Stored
  ovf : List Stored
  inj : List Outgoing
  deque : List (List Word)
  ringHead : Nat
  ringTail : Nat
  rings : Tab Ring
  code : Tab CodeSlot
  bank : Tab (BitVec 32)
  splice : Option SpliceCtx
  spliceTab : JobTable
  reeveTab : JobTable
  /-- the scope of a Reeve job, by its id (19 R289, 07 R118) -/
  reeveScopes : Tab Scope
  da : Tab Nat
  wt : Nat
  open_ : Bool
  pending : List Pending
  actors : Tab Actor
  resident : List Resident
  steal : Steal
  /-- 16 × actor + tag moved back last (03 R46) -/
  moved : Option Nat
  heldSeen : Bool
  /-- how long each context has held the core since the last tick, in ns (23 R339) -/
  holding : Tab Nat
  evict : Option Evict
  deriving DecidableEq, Repr

/-- A core at reset: held by none, its in-core state empty (01 R22, 21 R324). -/
def Core.blank : Core :=
  { dom := none, spad := [], l1 := [], l1i := [], endpoints := [], store := [], ovf := [], inj := [], deque := [],
    ringHead := 0, ringTail := 0, rings := [], code := [], bank := [], splice := none,
    spliceTab := { seq := 0, jobs := [] }, reeveTab := { seq := 0, jobs := [] }, reeveScopes := [], da := [], wt := 0, open_ := true,
    pending := [], actors := [], resident := [],
    steal := { slot := none, last := 0, left := [], active := false, retry := 0 }, moved := none, heldSeen := false, holding := [],
    evict := none }

/-- What a context image holds (21 R321), as it stood at the eviction: the core, the withdrawn jobs, and of each saved
activation what its record has no field for. Of these a restore takes the parts whose layout in the image the spec does
not give; the others it reads from the image. -/
structure ContextSave where
  core : Nat
  dom : Nat
  /-- the image's address in the domain -/
  image : Word
  saved : Core
  spliceJobs : List SpliceJob
  reeveJobs : List ReeveJob
  acts : Tab Act
  /-- no restore of the context has taken it or a later image since it was written -/
  live : Bool
  deriving DecidableEq, Repr

/-- A cluster or a group of system cores (01 R17 R24): its meter, its engines, its detector. -/
structure Cluster where
  cscale : Nat
  hscale : Nat
  residue : Tab Nat
  sum : Nat
  droop : Bool
  lock : Bool
  splice : List SpliceJob
  reeve : List ReeveJob
  /-- jobs of restored contexts that wait for a place in their engine's queue (01 R18, 21 R322) -/
  spliceBack : List SpliceJob
  reeveBack : List ReeveJob
  unseen : List (Unseen × Word)
  /-- the index of the core whose job each engine accepted last (01 R18) -/
  lastSplice : Nat
  lastReeve : Nat
  deriving DecidableEq, Repr

/-- A cluster at reset (23 R332 R333). -/
def Cluster.blank : Cluster :=
  { cscale := 256, hscale := 256, residue := [], sum := 0, droop := false, lock := false, splice := [], reeve := [],
    spliceBack := [], reeveBack := [], unseen := [], lastSplice := 7, lastReeve := 7 }

/-- A domain (01 R27 R30, 23 R340, 25 R349 R354 R356 R358). -/
structure Dom where
  exists_ : Bool
  /-- counts the keys drawn for it -/
  gen : Nat
  troot : Word
  pbudget : Word
  modes : BitVec 6
  qbal : Word
  used : Nat
  held : Bool
  /-- TIME of the latest crossing (R343) -/
  heldAt : Nat
  accept : BitVec 256
  send : BitVec 256
  cs : List (BitVec 256)
  halted : Bool
  /-- NOTICE and HOMELESS of domains 1 and 2 (21 R306) -/
  notice : Word
  homeless : Word
  deriving DecidableEq, Repr

/-- A domain that does not exist, every register of it at its reset value. -/
def Dom.blank : Dom :=
  { exists_ := false, gen := 0, troot := 0, pbudget := 50000, modes := 0, qbal := 0, used := 0, held := false, heldAt := 0,
    accept := 0, send := 0, cs := List.replicate 4 0, halted := false, notice := 0, homeless := 0 }

/-- A notice or a homeless message that waits for its kernel's endpoint (21 R306). -/
structure Waiting where
  kernel : Nat
  homeless : Bool
  /-- SCORE of a notice (03 R41) -/
  score : Nat
  hdr : Word
  via : Word
  words : List Word
  deriving DecidableEq, Repr

/-- A charge on its way to the quota store (23 R341). -/
structure Charge where
  dom : Nat
  meter : Nat
  eu : Nat
  cls : Nat
  /-- TIME of its event -/
  at_ : Nat
  deriving DecidableEq, Repr

/-- A steal request or reply on the bight network (03 R62): a request has no answer yet, an empty answer no record. -/
structure StealMsg where
  thief : Nat
  victim : Nat
  answer : Option (List Word)
  deriving DecidableEq, Repr

/-- An entry of the event log (25 R359). -/
structure LogEnt where
  index : Nat
  type : Nat
  dom : Nat
  slot : Nat
  time : Nat
  digest : BitVec 256
  deriving DecidableEq, Repr

/-- A debug grant (27 R367 R369). -/
structure Grant where
  grantee : Nat
  prof : Bool
  granted : Bool
  consent : Bool
  /-- BPA: 8 × core + index; WPA and WPM: 4 × cluster + index -/
  bpa : Tab Word
  wpa : Tab Word
  wpm : Tab Word
  holds : List Nat
  locks : List Nat
  /-- physical address of the trace ring (R375), and the next record number -/
  trace : Option Nat
  traceSeq : Nat
  deriving DecidableEq, Repr

/-- A command a SYSW of HOLDC sent (27 R366): the issuing domain and core, and the word. -/
structure DebugCmd where
  dom : Nat
  core : Nat
  word : Word
  deriving DecidableEq, Repr

/-- A function of the host link (29 R381-R384). -/
structure HostFn where
  egbase : Word
  eglog : Nat
  eghead : Nat
  egtail : Nat
  vec : Nat
  ingerr : Nat
  ingress : Tab Word
  egress : List Msg
  deriving DecidableEq, Repr

/-- BAR0 of a function at reset (29 R381). -/
def HostFn.blank : HostFn :=
  { egbase := 0, eglog := 0, eghead := 0, egtail := 0, vec := 0, ingerr := 0, ingress := [], egress := [] }

/-- The body of a DATA flit waiting at a Lanyard port: a SEND's 64-byte unit, or up to 224 bytes of a Reeve job's units
(29 R388). -/
structure Body where
  ing : Nat
  bytes : List Byte
  last : Bool
  dom : Nat
  /-- DDOM of the endpoint entry it went through -/
  ddom : Nat
  /-- the Reeve job it belongs to: its number, and the job's bytes up to the end of this body -/
  job : Option (Nat × Nat)
  deriving DecidableEq, Repr

/-- One key slot of one direction of a port (29 R390). -/
structure KeySlot where
  key : BitVec 256
  data : Nat
  ctl : Nat
  deriving DecidableEq, Repr

/-- A flit as sent, kept for resending (29 R392), with the unit it carries. -/
structure SentFlit where
  flit : Flit
  unit : Option Body
  deriving DecidableEq, Repr

/-- A job or message whose units arrive at a port (29 R389 R409): its ingress entry as it stood at the first unit, for
LAND = 1 the core, the ring, which RDEF defined the ring and the slot of it that the bytes fill, the bytes landed, the bytes dropped
and why (0 none, 1 to 3 as R409), the bytes of a unit that straddles flits. -/
structure Landing where
  entry : Word
  ring : Option (Nat × Nat)
  born : Nat
  slot : Nat
  off : Nat
  dropped : Nat
  reason : Nat
  part : List Byte
  /-- a flit of it was dropped for want of an entry, and how many bytes of the unit cut off by that are still to come -/
  lost : Bool
  skip : Nat
  deriving DecidableEq, Repr

/-- LSTATE (31 R406). -/
inductive LinkState where
  | down | training | up
  deriving DecidableEq, Repr

/-- A Lanyard port (29 R385-R394, 31 R406). -/
structure Port where
  lstate : LinkState
  pdom : Nat
  /-- PDOM in force since the last training -/
  bound : Nat
  /-- key rollover is host-assisted since the last training (01 R30) -/
  assisted : Bool
  drop : Nat
  keynext : BitVec 256
  kagree : Bool
  linkId : BitVec 32
  lower : Bool
  txSlot : Bool
  rxSlot : Bool
  tx0 : KeySlot
  tx1 : KeySlot
  rx0 : KeySlot
  rx1 : KeySlot
  lseq : Nat
  expect : Nat
  /-- bodies of DATA flits not yet sent -/
  queue : List Body
  /-- flits sent and not acknowledged, the oldest first -/
  sent : List SentFlit
  /-- TIME of the last acknowledgement, or of the first flit after it -/
  lastAck : Nat
  /-- a MARKER that rolls over is sent and not acknowledged -/
  marker : Bool
  /-- a fresh key has been agreed into the idle slot (R391) -/
  fresh : Bool
  /-- failed authentications by LSEQ (R393) -/
  fails : Tab Nat
  /-- a resynchronising MARKER is sent and the peer's has not come -/
  resync : Bool
  /-- the LSEQs of the peer's resynchronising MARKERs that sending has resumed for and that are not yet accepted in order -/
  resumed : List Nat
  /-- stored flits still to be resent, and the ACKSEQ they are resent for (R392 R398) -/
  resend : List Flit
  resendFor : Nat
  /-- the resend was begun by a RETRY (R398) -/
  byRetry : Bool
  landing : Option Landing
  /-- the flits put out, in order -/
  out : List Flit
  deriving DecidableEq, Repr

/-- A Lanyard port at reset: down (31 R406). -/
def Port.blank : Port :=
  let k : KeySlot := { key := 0, data := 0, ctl := 0 }
  { lstate := .down, pdom := 0, bound := 0, assisted := false, drop := 0, keynext := 0, kagree := false, linkId := 0, lower := false,
    txSlot := false, rxSlot := false, tx0 := k, tx1 := k, rx0 := k, rx1 := k, lseq := 0, expect := 0, queue := [],
    sent := [], lastAck := 0, marker := false, fresh := false, fails := [], resync := false, resumed := [], resend := [],
    resendFor := 0, byRetry := false, landing := none, out := [] }

/-- A line an outside host holds (05 R110), and since when a back-invalidation waits for its answer. -/
structure ExtHold where
  host : Nat
  modified : Bool
  since : Option Nat
  /-- the domain for which the host was served -/
  dom : Nat
  deriving DecidableEq, Repr

/-- A compute die's registers (31 R406). -/
structure DieRegs where
  droop : Nat
  step : Nat
  tthr : Nat
  temp : Nat
  stopped : Bool
  /-- TIME of the stop -/
  stopAt : Nat
  deriving DecidableEq, Repr

/-- A die's registers at reset. -/
def DieRegs.blank : DieRegs := { droop := 0, step := 8, tthr := 100, temp := 0, stopped := false, stopAt := 0 }

/-- A host-identity entry (05 R109, 31 R406): the three words as written. -/
structure HostIdent where
  ctl : Word
  base : Word
  limit : Word
  deriving DecidableEq, Repr

/-- A host's write that waits in the host link's posted queue (29 R382): to an ingress slot, or of a register. -/
inductive PostedWrite where
  | ingress (fn off size : Nat) (data : BitVec 512)
  | register (sp : RegSpace) (off : Nat) (v : Word)
  deriving DecidableEq, Repr

/-- A write to memory outside the package (05 R78, 29 R384): function or window, address, bytes. -/
structure HostWrite where
  fn : Nat
  addr : Nat
  bytes : List Byte
  deriving DecidableEq, Repr

/-- A write of the security core or of tracing that waits for a line an outside host holds (05 R110): the domain, the
meter, the physical address, the bytes within one line. -/
structure HeldWrite where
  dom : Nat
  meter : Nat
  pa : Nat
  bytes : List Byte
  deriving DecidableEq, Repr

/-- The answer to an outside host's CXL.mem request (05 R109 R110): the data of a read, a write done, an unsupported
request, poisoned data. -/
inductive CxlAnswer where
  | data (d : BitVec 512)
  | written
  | unsupported
  | poison
  deriving DecidableEq, Repr

/-- Which agent moves next (log 1): the issue of an activation, a device step, the passing of time, the next message of a
core's injection queue, and the moves the spec leaves to the hardware at any time (evictions from an L1, from L2, from a
translation unit). -/
inductive Turn where
  | issue (core slot : Nat)
  | event (i : Instr)
  | elapse (ns : Nat)
  | inject (core : Nat)
  | evictL1 (core dom vl : Nat)
  | evictL2 (pl : Nat)
  | evictTlb (unit : Nat)
  deriving DecidableEq, Repr

/-- The state of the package. -/
structure State where
  /-- the activation whose turn it is, its core and slot, and whether there is one (log 3) -/
  act : Act
  core : Nat
  slot : Nat
  live : Bool
  /-- every other activation, by 64 × core + slot -/
  acts : Tab Act
  cores : Tab Core
  clusters : Tab Cluster
  doms : Tab Dom
  dies : Tab DieRegs
  mem : Memory
  /-- the key a physical line is sealed under (05 R102 R107), by line and by whole frame: domain, generation -/
  sealLine : Tab (Nat × Nat)
  sealFrame : Tab (Nat × Nat)
  l2 : Tab L2Line
  /-- the release stamps of bytes, by physical line and byte (07 R128) -/
  stamps : Tab (Tab Stamp)
  waymask : Tab (BitVec 24)
  tlb : List TEntry
  walk : List WEntry
  frames : Tab Frame
  scrubs : List Scrub
  ext : Tab ExtHold
  heldWrites : List HeldWrite
  /-- the poisoned-lost lines (05 R110), each with the bytes that jobs which write it whole have written of it so far, by the
  job's number: those bytes and their mask -/
  lost : Tab (Tab (LineBits × BitVec 128))
  /-- SCOPE_MISS notices sent (07 R129): detecting agent, releasing core, physical line, scope code, TIME -/
  missSent : List (Nat × Nat × Nat × Nat × Nat)
  hostTab : Tab HostIdent
  flight : List Msg
  waiting : List Waiting
  charges : List Charge
  device : Nat
  costs : List Nat
  steals : List StealMsg
  conts : List Msg
  defers : List Defer
  /-- requests at the security core (25 R353), debug commands (27 R366) -/
  requests : List Msg
  commands : List DebugCmd
  grants : Tab Grant
  ms : Vector (BitVec 256) 24
  log : List LogEnt
  logCount : Nat
  logh : BitVec 256
  evidence : Nat
  receipts : Nat
  fns : Tab HostFn
  /-- the host link's posted queue while it stalls (29 R382), the oldest first -/
  posted : List PostedWrite
  hostOut : List HostWrite
  msix : List (Nat × Nat)
  /-- answers to outside hosts' CXL.mem requests (05 R109): host, address, answer -/
  cxlOut : List (Nat × Nat × CxlAnswer)
  ports : Tab Port
  lanIngress : Tab Word
  /-- context images by the number their seal is -/
  images : Tab ContextSave
  stage : Nat
  err : Nat
  diemask : BitVec 10
  plimit : Nat
  pwr : Nat
  cxlTier : Bool
  inReset : Bool
  time : Nat
  /-- the model's own counters: activations and messages numbered, free values drawn -/
  serial : Nat
  free : Nat
  /-- words issued, which orders the latest issues of activations (03 R64) -/
  issues : Nat
  /-- the model's own order of moves (log 1) -/
  agenda : List Turn
  deriving DecidableEq, Repr

/-- The cost table before bring-up stage 3 writes it (23 R331; log 3). -/
def noCosts : List Nat := List.replicate 16 0

/-- The package right after reset (31 R400 R406): bring-up has not begun, no context holds a core, no activation
exists. -/
def State.reset : State :=
  { act := Act.blank, core := 0, slot := 0, live := false, acts := [], cores := [], clusters := [], doms := [],
    dies := [], mem := [], sealLine := [], sealFrame := [], l2 := [], stamps := [], waymask := [], tlb := [], walk := [], frames := [], scrubs := [],
    ext := [], heldWrites := [], lost := [], missSent := [], hostTab := [], flight := [], waiting := [], charges := [], device := 0, costs := noCosts,
    steals := [], conts := [], defers := [], requests := [], commands := [], grants := [], ms := Vector.replicate 24 0, log := [],
    logCount := 0, logh := 0, evidence := 0, receipts := 0, fns := [], posted := [], hostOut := [], msix := [], cxlOut := [], ports := [],
    lanIngress := [], images := [], stage := 0, err := 0, diemask := 0, plimit := 4800, pwr := 0, cxlTier := false,
    inReset := true, time := 0, serial := 0, free := 0, issues := 0, agenda := [] }

end Sys2Proof.Machine
end

