-- ==== Sys2Proof/Machine/Tab.lean ====
section
/-!
DEFINITION. Sparse tables and byte memories: reading, writing, the canonical form, and the helpers over bytes, bits and
lines that every access uses.
-/
namespace Sys2Proof.Machine

/-- The value at a key, if listed. -/
def tabFind {α : Type} (t : Tab α) (k : Nat) : Option α :=
  match t with
  | [] => none
  | (j, a) :: r => if j = k then some a else tabFind r k

/-- The value at a key, or the default. -/
def tabGet {α : Type} (d : α) (t : Tab α) (k : Nat) : α := (tabFind t k).getD d

/-- The table with a key set; keys stay rising. -/
def tabPut {α : Type} (t : Tab α) (k : Nat) (a : α) : Tab α :=
  match t with
  | [] => [(k, a)]
  | (j, b) :: r => if k < j then (k, a) :: (j, b) :: r else if j = k then (k, a) :: r else (j, b) :: tabPut r k a

/-- The table without a key. -/
def tabErase {α : Type} (t : Tab α) (k : Nat) : Tab α :=
  match t with
  | [] => []
  | (j, b) :: r => if j = k then r else (j, b) :: tabErase r k

/-- What a byte of memory that nothing has written is stored as (05 R77; log 6: DESIGN CHOICE, the stored byte, which a
read shows only under the key that sealed its line). -/
def memDefault : Byte := 0

/-- The byte stored at an address. -/
def memGet (m : Memory) (a : Nat) : Byte :=
  match m with
  | [] => memDefault
  | (j, b) :: r => if j = a then b else if a < j then memDefault else memGet r a

/-- The memory with a listed byte: the entry goes where its address belongs. -/
def memInsert (m : Memory) (a : Nat) (b : Byte) : Memory :=
  match m with
  | [] => [(a, b)]
  | (j, c) :: r => if a < j then (a, b) :: (j, c) :: r else if j = a then (a, b) :: r else (j, c) :: memInsert r a b

/-- The memory without an entry at an address. -/
def memErase (m : Memory) (a : Nat) : Memory :=
  match m with
  | [] => []
  | (j, c) :: r => if j = a then r else (j, c) :: memErase r a

/-- The memory with a byte written; the canonical form is kept. -/
def memPut (m : Memory) (a : Nat) (b : Byte) : Memory :=
  if b = memDefault then memErase m a else memInsert m a b

/-- Addresses strictly rising above `lo`, no entry at its default. -/
def memWfFrom (lo : Option Nat) (m : Memory) : Bool :=
  match m with
  | [] => true
  | (j, b) :: r => (match lo with | none => true | some l => decide (l < j)) && decide (b ≠ memDefault) && memWfFrom (some j) r

/-- The canonical form of a byte memory. -/
def Memory.wf (m : Memory) : Bool := memWfFrom none m

/-- Bytes from an address up. -/
def memBytes (m : Memory) (a : Nat) : Nat → List Byte
  | 0 => []
  | n + 1 => memGet m a :: memBytes m (a + 1) n

/-- The memory with bytes written from an address up. -/
def memPutBytes (m : Memory) (a : Nat) : List Byte → Memory
  | [] => m
  | b :: r => memPutBytes (memPut m a b) (a + 1) r

/-- The number whose little-endian bytes these are (00 R4). -/
def leNat : List Byte → Nat
  | [] => 0
  | b :: r => b.toNat + 256 * leNat r

/-- The `n` little-endian bytes of a number (00 R4). -/
def leBytes : Nat → Nat → List Byte
  | 0, _ => []
  | n + 1, x => BitVec.ofNat 8 x :: leBytes n (x / 256)

/-- The list with the first `n` elements that satisfy a test changed. -/
def mapFirst {α : Type} (p : α → Bool) (f : α → α) : Nat → List α → List α
  | 0, l => l
  | _, [] => []
  | n + 1, a :: r => if p a then f a :: mapFirst p f n r else a :: mapFirst p f (n + 1) r

/-- The list with the elements that satisfy a test changed, but for the first `n` of them. -/
def mapPast {α : Type} (p : α → Bool) (f : α → α) : Nat → List α → List α
  | _, [] => []
  | n, a :: r => if !p a then a :: mapPast p f n r else match n with
    | 0 => f a :: mapPast p f 0 r
    | m + 1 => a :: mapPast p f m r

/-- The list without the `n`-th of the elements that satisfy a test, counted from 0. -/
def dropNth {α : Type} (p : α → Bool) : Nat → List α → List α
  | _, [] => []
  | n, a :: r => if !p a then a :: dropNth p n r else match n with
    | 0 => r
    | m + 1 => a :: dropNth p m r

/-- Bits hi down to lo of a word, as a number. -/
def bitsOf (w : Word) (hi lo : Nat) : Nat := (w.toNat >>> lo) % 2 ^ (hi + 1 - lo)

/-- A number placed at bit `lo` of a word. -/
def at_ (x lo : Nat) : Word := BitVec.ofNat 64 (x <<< lo)

/-- The 16 bits, or any other number of bits, of a flag. -/
def flag (b : Bool) : Nat := if b then 1 else 0

/-- The number 0, 1, … n - 1. -/
def upto (n : Nat) : List Nat := List.range n

/-- A mask with a bit for each byte of a line, spread to the line's bits (05 R81). -/
def spreadMask (m : BitVec 128) : LineBits :=
  (upto 128).foldl (fun acc i => if m.getLsbD i then acc ||| ((255 : LineBits) <<< (8 * i)) else acc) 0

/-- A line with the masked bytes taken from `new`. -/
def mergeLine (old new : LineBits) (m : BitVec 128) : LineBits :=
  let k := spreadMask m
  (old &&& ~~~k) ||| (new &&& k)

/-- The mask of `n` bytes from offset `off`. -/
def byteMask (off n : Nat) : BitVec 128 := BitVec.ofNat 128 ((2 ^ n - 1) <<< off)

/-- Byte `i` of a line. -/
def lineByte (d : LineBits) (i : Nat) : Byte := (d >>> (8 * i)).setWidth 8

/-- The number in `n` bytes of a line from offset `off`. -/
def lineNat (d : LineBits) (off n : Nat) : Nat := (d.toNat >>> (8 * off)) % 2 ^ (8 * n)

/-- A line that holds a number's `n` bytes at offset `off`, zero elsewhere. -/
def lineOf (off n x : Nat) : LineBits := BitVec.ofNat 1024 ((x % 2 ^ (8 * n)) <<< (8 * off))

/-- The stored bytes of a physical line. -/
def memLine (m : Memory) (pl : Nat) : LineBits :=
  m.foldl (fun acc c => if c.1 / 128 = pl then acc ||| ((c.2.setWidth 1024 : LineBits) <<< (8 * (c.1 % 128))) else acc) 0

/-- The memory with a physical line's bytes stored. -/
def memPutLine (m : Memory) (pl : Nat) (d : LineBits) : Memory :=
  (upto 128).foldl (fun acc i => memPut acc (128 * pl + i) (lineByte d i)) m

/-- The first element that satisfies a test, with the list without it. -/
def takeFirst {α : Type} (f : α → Bool) : List α → Option (α × List α)
  | [] => none
  | a :: r => if f a then some (a, r) else (takeFirst f r).map fun x => (x.1, a :: x.2)

/-- The list with the first element that satisfies a test replaced, or the new one added at the end. -/
def replaceOrAdd {α : Type} (f : α → Bool) (b : α) : List α → List α
  | [] => [b]
  | a :: r => if f a then b :: r else a :: replaceOrAdd f b r

/-- The list with every element that satisfies a test changed. -/
def mapIf {α : Type} (f : α → Bool) (g : α → α) (l : List α) : List α := l.map fun a => if f a then g a else a

/-- Whether every bit of a word outside the given fields (highest bit, lowest bit) is zero. -/
def onlyFields (w : Word) (fs : List (Nat × Nat)) : Bool :=
  decide ((fs.foldl (fun (acc : Word) f => acc &&& ~~~ at_ (2 ^ (f.1 + 1 - f.2) - 1) f.2) w) = 0)

/-- The smallest value in a list by a key, earlier ones first. -/
def minBy {α : Type} (key : α → Nat) : List α → Option α
  | [] => none
  | a :: r => match minBy key r with
    | none => some a
    | some b => if key b < key a then some b else some a

/-- A list with an element put before the first one of a greater key. -/
def insertBy {α : Type} (key : α → Nat) (a : α) : List α → List α
  | [] => [a]
  | b :: r => if key a < key b then a :: b :: r else b :: insertBy key a r

/-- A list sorted by a key, equal keys in their order. -/
def sortBy {α : Type} (key : α → Nat) (l : List α) : List α := l.foldl (fun acc a => insertBy key a acc) []

/-- Words packed little-endian into bytes. -/
def wordBytes (ws : List Word) : List Byte := ws.foldr (fun w acc => leBytes 8 w.toNat ++ acc) []

/-- The 64-bit words in a list of bytes. -/
def wordsOf : Nat → List Byte → List Word
  | 0, _ => []
  | n + 1, bs => BitVec.ofNat 64 (leNat (bs.take 8)) :: wordsOf n (bs.drop 8)

/-- A list cut or filled with zeros to a length. -/
def padTo {α : Type} (z : α) (n : Nat) (l : List α) : List α := (l ++ List.replicate n z).take n

end Sys2Proof.Machine
end

