-- ==== Sys2Proof/Machine/Access.lean ====
section
/-!
DEFINITION. Every read and write of a piece of the state goes through an accessor of this file: activations in their
slots, cores, clusters, domains, frames, and the registers of the activation whose turn it is.
-/
namespace Sys2Proof.Machine

/-- The number of a trap cause (11 R184). -/
def Cause.code : Cause → Nat
  | .illegal => 0x01 | .reservedField => 0x02 | .delaySlot => 0x03 | .privilege => 0x04 | .tagMismatch => 0x05
  | .tagNone => 0x06 | .shiftRange => 0x07 | .misaligned => 0x08 | .loopNest => 0x09 | .pageAbsent => 0x10
  | .pagePerm => 0x11 | .pteReserved => 0x12 | .frameNotOwned => 0x13 | .frameRevoked => 0x14 | .window => 0x15
  | .dataLost => 0x16 | .endpoint => 0x20 | .msgType => 0x21 | .mpopTag => 0x22 | .ring => 0x23
  | .engineOperand => 0x24 | .table => 0x25 | .breakpoint => 0x30 | .watchpoint => 0x31 | .step => 0x32 | .trap => 0x38
  | .saveFault => 0x3F

/-- The number of compute cores (01 R13). -/
def computeCores : Nat := 1280

/-- Whether a core is a system core (01 R24). -/
def isSystem (c : Nat) : Bool := decide (1280 ≤ c)

/-- The cluster of a core, 16 × die + cluster, or 160 + group (23 R344). -/
def clusterOf (c : Nat) : Nat := if c < 1280 then c / 8 else 160 + (c - 1280) / 8

/-- The index of a core in its cluster or group (00 R3). -/
def coreIndex (c : Nat) : Nat := c % 8

/-- The die of a core; 15 is the hub die (00 R3). -/
def dieOf (c : Nat) : Nat := if c < 1280 then c / 128 else 15

/-- The cores of a cluster or group. -/
def clusterCores (g : Nat) : List Nat := (upto 8).map fun i => if g < 160 then 8 * g + i else 1280 + 8 * (g - 160) + i

/-- The size of a core's scratchpad (01 R21 R25). -/
def spadSize (c : Nat) : Nat := if isSystem c then 0x20000 else 0x80000

/-- The kernel of a domain (01 R28, 05 R93). -/
def kernelOf (d : Nat) : Nat := if d = 1 then 1 else 2

/-- Whether a domain number is a tenant's (01 R27). -/
def isTenant (d : Nat) : Bool := decide (3 ≤ d) && decide (d ≤ 194)

/-- The domain that owns a function of the host link: f = 0 physical function 0 (01 R27). -/
def fnDomain (f : Nat) : Nat := f + 1

namespace State

/-- The record of the activation in a slot. -/
def findAct (s : State) (c k : Nat) : Option Act :=
  if s.live && decide (64 * c + k = 64 * s.core + s.slot) then some s.act else tabFind s.acts (64 * c + k)

/-- The state with a slot's activation record written. -/
def putAct (s : State) (c k : Nat) (a : Act) : State :=
  if s.live && decide (64 * c + k = 64 * s.core + s.slot) then { s with act := a }
  else { s with acts := tabPut s.acts (64 * c + k) a }

/-- The state with a slot freed. -/
def dropAct (s : State) (c k : Nat) : State :=
  if s.live && decide (64 * c + k = 64 * s.core + s.slot) then { s with live := false, act := Act.blank }
  else { s with acts := tabErase s.acts (64 * c + k) }

/-- The state with a slot's record changed, if there is one. -/
def modAct (s : State) (c k : Nat) (f : Act → Act) : State :=
  match s.findAct c k with
  | some a => s.putAct c k (f a)
  | none => s

/-- Every occupied slot: core, slot, record. -/
def allActs (s : State) : List (Nat × Nat × Act) :=
  (if s.live then [(s.core, s.slot, s.act)] else []) ++ s.acts.map fun x => (x.1 / 64, x.1 % 64, x.2)

/-- The occupied slots of a core. -/
def coreActs (s : State) (c : Nat) : List (Nat × Act) :=
  (s.allActs.filter fun x => decide (x.1 = c)).map fun x => x.2

/-- The activation of a slot takes its turn: its record becomes the selected one, and the selected one goes back to its
slot. -/
def select (s : State) (c k : Nat) : State :=
  if s.live && decide (64 * c + k = 64 * s.core + s.slot) then s
  else
    let acts := if s.live then tabPut s.acts (64 * s.core + s.slot) s.act else s.acts
    match tabFind acts (64 * c + k) with
    | some a => { s with acts := tabErase acts (64 * c + k), act := a, core := c, slot := k, live := true }
    | none => s

/-- A core. -/
def getCore (s : State) (c : Nat) : Core := tabGet Core.blank s.cores c
/-- The state with a core written. -/
def setCore (s : State) (c : Nat) (x : Core) : State := { s with cores := tabPut s.cores c x }
/-- The state with a core changed. -/
def modCore (s : State) (c : Nat) (f : Core → Core) : State := s.setCore c (f (s.getCore c))
/-- A cluster or group. -/
def getCluster (s : State) (g : Nat) : Cluster := tabGet Cluster.blank s.clusters g
/-- The state with a cluster written. -/
def setCluster (s : State) (g : Nat) (x : Cluster) : State := { s with clusters := tabPut s.clusters g x }
/-- The state with a cluster changed. -/
def modCluster (s : State) (g : Nat) (f : Cluster → Cluster) : State := s.setCluster g (f (s.getCluster g))
/-- A domain. -/
def getDom (s : State) (d : Nat) : Dom := tabGet Dom.blank s.doms d
/-- The state with a domain written. -/
def setDom (s : State) (d : Nat) (x : Dom) : State := { s with doms := tabPut s.doms d x }
/-- The state with a domain changed. -/
def modDom (s : State) (d : Nat) (f : Dom → Dom) : State := s.setDom d (f (s.getDom d))
/-- A die's registers. -/
def getDie (s : State) (d : Nat) : DieRegs := tabGet DieRegs.blank s.dies d
/-- The state with a die's registers changed. -/
def modDie (s : State) (d : Nat) (f : DieRegs → DieRegs) : State := { s with dies := tabPut s.dies d (f (s.getDie d)) }
/-- A function of the host link. -/
def getFn (s : State) (f : Nat) : HostFn := tabGet HostFn.blank s.fns f
/-- The state with a function changed. -/
def modFn (s : State) (f : Nat) (g : HostFn → HostFn) : State := { s with fns := tabPut s.fns f (g (s.getFn f)) }
/-- A Lanyard port. -/
def getPort (s : State) (p : Nat) : Port := tabGet Port.blank s.ports p
/-- The state with a port changed. -/
def modPort (s : State) (p : Nat) (g : Port → Port) : State := { s with ports := tabPut s.ports p (g (s.getPort p)) }

/-- A scalar register of the activation; s0 reads as zero (11 R172). -/
def getS (s : State) (r : SReg) : Word := if r = 0 then 0 else s.act.regs.s[r.toNat]'(r.isLt)

/-- A scalar register written; writes to s0 are discarded (11 R172). -/
def setS (s : State) (r : SReg) (w : Word) : State :=
  if r = 0 then s
  else { s with act := { s.act with regs := { s.act.regs with s := s.act.regs.s.set r.toNat w (r.isLt) } } }

/-- A vector register of the activation. -/
def getV (s : State) (r : VNum) : VReg := s.act.regs.v[r.toNat]'(r.isLt)

/-- A vector register written. -/
def setV (s : State) (r : VNum) (x : VReg) : State :=
  { s with act := { s.act with regs := { s.act.regs with v := s.act.regs.v.set r.toNat x (r.isLt) } } }

/-- A predicate register; p0 reads as all ones (11 R175). -/
def getP (s : State) (r : PNum) : BitVec 32 :=
  if r = 0 then BitVec.allOnes 32 else s.act.regs.p[r.toNat]'(r.isLt)

/-- A predicate register written; writes to p0 are discarded (11 R175). -/
def setP (s : State) (r : PNum) (x : BitVec 32) : State :=
  if r = 0 then s
  else { s with act := { s.act with regs := { s.act.regs with p := s.act.regs.p.set r.toNat x (r.isLt) } } }

/-- The activation's registers changed. -/
def modRegs (s : State) (f : Regs → Regs) : State := { s with act := { s.act with regs := f s.act.regs } }

/-- The core that the activation is on. -/
def here (s : State) : Core := s.getCore s.core

/-- A fresh free value's number: the counter as it stands, and the state with it advanced (log 7). -/
def draw (s : State) : Nat × State := (s.free, { s with free := s.free + 1 })

end State

/-- s6 of an activation in a slot of a core (03 R51). -/
def identity (c k : Nat) : Word :=
  let hi := if c < 1280 then c / 8 else 15 * 16 + (c - 1280) / 8
  at_ hi 9 ||| at_ (c % 8) 6 ||| at_ k 0

/-- The top of a slot's stack area (03 R50). -/
def stackTop (c k : Nat) : Word :=
  BitVec.ofNat 64 (if isSystem c then 0x10400 + 0x400 * k else 0x41000 + 0x1000 * k)

/-- Slots of a core that an activation may start in: not occupied, and not held for a steal (03 R62, 21 R316). -/
def freeSlots (s : State) (c : Nat) : List Nat :=
  (upto 64).filter fun k => (s.findAct c k).isNone && decide ((s.getCore c).steal.slot ≠ some k)

end Sys2Proof.Machine
end

