-- ==== Sys2Proof/Machine/Energy.lean ====
section
/-!
DEFINITION. Energy charges (23 R330-R336): the terms of an event, the meter's residue, the charges on their way to the
quota store, and the hop counts of R14 and R335.
-/
namespace Sys2Proof.Machine

/-- A place on the package: the die (15 the hub die) and the grid position on it (23 R335). -/
structure Place where
  die : Nat
  x : Nat
  y : Nat
  deriving DecidableEq, Repr

/-- The place of a cluster, or of a group of system cores (01 R15, 23 R335). -/
def placeOf (g : Nat) : Place :=
  if g < 160 then { die := g / 16, x := g % 4, y := (g % 16) / 4 } else { die := 15, x := 0, y := 0 }

/-- The place of a core. -/
def corePlace (c : Nat) : Place := placeOf (clusterOf c)

/-- The hub die's place. -/
def hubPlace : Place := { die := 15, x := 0, y := 0 }

/-- The distance of two numbers. -/
def dist (a b : Nat) : Nat := (a - b) + (b - a)

/-- Pass links on the path between two dies (01 R14). -/
def passLinks (a b : Nat) : Nat :=
  if a = b then 0
  else if a = 15 then (1 - b / 5) + 1
  else if b = 15 then (1 - a / 5) + 1
  else dist (a / 5) (b / 5) + dist (a % 5) (b % 5)

/-- The hop count between two places (23 R335). -/
def hops (a b : Place) : Nat := dist a.x b.x + dist a.y b.y + 4 * passLinks a.die b.die

/-- One term of a charge: units and class (23 R333). -/
abbrev Term := Nat × Nat

/-- The cost-table entry of a class (23 R331). -/
def costOf (s : State) (cls : Nat) : Nat := s.costs.getD cls 0

/-- The number of the device account where a domain number stands. -/
def deviceAccount : Nat := 255

/-- Σ floor(u × entry × σ × num / den) over the terms (23 R333). -/
def termSum (s : State) (scale num den : Nat) (ts : List Term) : Nat :=
  ts.foldl (fun acc t => acc + t.1 * costOf s t.2 * scale * num / den) 0

/-- A charge under a scale the caller chose (23 R332 R333): whole units go to the quota store's queue, the rest stays in
the meter's residue; a charge to the device account keeps no residue. Answers the whole units. -/
def chargeWith (s : State) (assisted : Bool) (dom meter num den : Nat) (ts : List Term) : Nat × State :=
  let m := s.getCluster meter
  let s := s.setCluster meter { m with sum := m.sum + termSum s m.cscale num den ts }
  let m := s.getCluster meter
  if dom = deviceAccount then
    let whole := termSum s m.cscale num den ts / 256
    (whole, { s with device := min (s.device + whole) (2 ^ 64 - 1) })
  else
    let scale := if assisted then m.hscale else m.cscale
    let t := tabGet 0 m.residue dom + termSum s scale num den ts
    let s := s.setCluster meter { m with residue := tabPut m.residue dom (t % 256) }
    (t / 256, { s with charges := s.charges ++ [{ dom := dom, meter := meter, eu := t / 256, cls := (ts.headD (0, 0)).2, at_ := s.time }] })

/-- The modes under which a domain is charged (01 R30, 23 R332): of the activation whose turn it is, on its own meter, those
it started under; else those the domain has now (log 75). -/
def chargeModes (s : State) (dom meter : Nat) : BitVec 6 :=
  if s.live && decide (s.act.dom = dom) && decide (clusterOf s.core = meter) then s.act.modes else (s.getDom dom).modes

/-- A charge to a domain (23 R332 R338). -/
def charge (s : State) (dom meter : Nat) (ts : List Term) : State :=
  (chargeWith s ((chargeModes s dom meter).getLsbD 5) dom meter 1 1 ts).2

/-- A charge whose units are multiplied by a fraction (23 R334: MRDACC). -/
def chargeFrac (s : State) (dom meter num den : Nat) (ts : List Term) : State :=
  (chargeWith s ((chargeModes s dom meter).getLsbD 5) dom meter num den ts).2

/-- A charge to the device account. -/
def chargeDevice (s : State) (meter : Nat) (ts : List Term) : State := (chargeWith s false deviceAccount meter 1 1 ts).2

/-- Energy of the device that the cost table has no terms for, Lanyard traffic and the bight network's (23 R336): its amount
is open (log 22). -/
def chargeOpen (s : State) : State :=
  let (n, s) := s.draw
  { s with device := min (s.device + (Config.openValue n).toNat) (2 ^ 64 - 1) }

/-- A message that the device sends from the hub die for no domain (23 R336), by meter 160 (log 22). -/
def chargeNotice (s : State) (to_ : Place) : State := chargeDevice s 160 [(1, 8), (hops hubPlace to_, 9)]

/-- A charge of an activation, which also adds to the energy R375 records for it. -/
def chargeAct (s : State) (ts : List Term) : State :=
  let r := chargeWith s (s.act.modes.getLsbD 5) s.act.dom (clusterOf s.core) 1 1 ts
  { r.2 with act := { s.act with eu := s.act.eu + r.1 } }

/-- The terms of a retired instruction by its major (23 R334), its home-slice hops excepted. -/
def retireTerms (w : IWord) : List Term :=
  let m := (fOp w).toNat
  let f := (fF w).toNat
  let vec := (0x24 ≤ m && m ≤ 0x2B) || (0x40 ≤ m && m ≤ 0x49)
  let l1 := (0x10 ≤ m && m ≤ 0x1F) || m = 0x24 || m = 0x25 || (0x28 ≤ m && m ≤ 0x2B)
    || (m = 0x47 && (f % 8 = 0 || f % 8 = 2)) || (0x60 ≤ m && m ≤ 0x65) || (m = 0x73 && f = 1)
  let sp := (0x20 ≤ m && m ≤ 0x23) || m = 0x26 || m = 0x27
  [(1, if vec then 1 else 0)] ++ (if l1 then [(1, 2)] else []) ++ (if sp then [(1, 3)] else [])

/-- The physical address lies in bonded DRAM (05 R77). -/
def inBonded (pa : Nat) : Bool := decide (pa < 10 * 0x800000000)
/-- The physical address lies in the second tier (05 R77). -/
def inSecond (pa : Nat) : Bool := decide (0x010000000000 ≤ pa) && decide (pa < 0x020000000000)

/-- The die whose memory controller holds an address, 15 for the second tier (23 R334). -/
def dieOfAddr (pa : Nat) : Nat := if inBonded pa then pa / 0x800000000 else 15

/-- The charge of `n` 64-byte parts at the controller of an address (23 R334). -/
def chargeDram (s : State) (dom meter pa n : Nat) : State :=
  if inBonded pa then charge s dom meter [(n, 5)] else if inSecond pa then charge s dom meter [(n, 6)] else s

/-- The charge of one line moved between an L1 and its home slice (23 R334). -/
def chargeMove (s : State) (dom core home : Nat) : State :=
  charge s dom (clusterOf core) [(1, 4), (4 * passLinks (dieOf core) (home / 16), 9)]

end Sys2Proof.Machine
end

