-- ==== Sys2Proof/Machine/Memory.lean ====
section
/-!
DEFINITION. The physical map (05 R77-R79), the frame ownership table as accesses see it (R101 R102), the seals of memory
lines (R102 R107, 25 R350), and reading and writing one physical line.
-/
namespace Sys2Proof.Machine

/-- What a physical address names (05 R77). -/
inductive Region where
  | bonded | second
  | hostWindow (fn : Nat)
  | cxl
  | coreWindow (core : Nat)
  | security
  | control (slice : Nat)
  | unpopulated
  deriving DecidableEq, Repr

/-- The region of a physical address (05 R77). -/
def regionOf (pa : Nat) : Region :=
  if inBonded pa then .bonded
  else if inSecond pa then .second
  else if 0x080000000000 ≤ pa ∧ pa < 0x080000000000 + 194 * 0x1000000000 then .hostWindow ((pa - 0x080000000000) / 0x1000000000)
  else if 0x200000000000 ≤ pa ∧ pa < 0x300000000000 then .cxl
  else if 0xF00000000000 ≤ pa ∧ pa < 0xF00000000000 + 1312 * 0x100000 then .coreWindow ((pa - 0xF00000000000) / 0x100000)
  else if 0xFF0000000000 ≤ pa ∧ pa < 0xFF8000000000 then .security
  else if 0xFF8000000000 ≤ pa ∧ pa < 0xFF8000000000 + 160 * 0x1000 then .control ((pa - 0xFF8000000000) / 0x1000)
  else .unpopulated

/-- Memory the package holds: bonded DRAM or the second tier. -/
def isDram (pa : Nat) : Bool := inBonded pa || inSecond pa

/-- Whether a compute die is in service (31 R401). Before stage 4 no die has been left out. -/
def dieInService (s : State) (d : Nat) : Bool := decide (s.stage < 4) || s.diemask.getLsbD d

/-- The host link answers more than configuration requests (31 R400): it is trained, at the end of stage 2, and bring-up has
not failed. -/
def linkServes (s : State) : Bool := decide (3 ≤ s.stage) && decide (s.err = 0)

/-- A frame's entry where no transaction has changed it (05 R101, 31 R401). -/
def frameAtReset (s : State) (f : Nat) : Frame :=
  let base : Frame := { late := 0, dclass := 0, state := .free, keyid := 0, peer := 255, owner := 255, deadline := 0,
                        closing := false, pending := [], dirtied := [], lateLines := [] }
  if 0x01FF40000000 ≤ 4096 * f ∧ 4096 * f < 0x020000000000 then { base with state := .owned, peer := 0, owner := 0 }
  else if inBonded (4096 * f) && !dieInService s (dieOfAddr (4096 * f)) then { base with state := .retired }
  else base

/-- A frame's ownership entry (05 R101). -/
def getFrame (s : State) (f : Nat) : Frame := (tabFind s.frames f).getD (frameAtReset s f)

/-- The state with a frame's entry written. -/
def setFrame (s : State) (f : Nat) (x : Frame) : State := { s with frames := tabPut s.frames f x }

/-- STATE's code (05 R101). -/
def FrameState.code : FrameState → Nat
  | .free => 0 | .owned => 1 | .offered => 2 | .lent => 3 | .recalling => 4 | .scrubbing => 5 | .retired => 6

/-- The ownership entry as a word (05 R101). -/
def Frame.word (f : Frame) : Word :=
  at_ (min f.late 3) 30 ||| at_ f.dclass 27 ||| at_ f.state.code 24 ||| at_ f.keyid 16 ||| at_ f.peer 8 ||| at_ f.owner 0

/-- Whether a domain may translate a frame to a leaf at a time; the cause if not (05 R102). -/
def frameDenies (f : Frame) (d now : Nat) : Option Cause :=
  let peer := decide (f.peer = d) && decide (f.peer ≠ f.owner)
  let owner := decide (f.owner = d)
  match f.state with
  | .free | .scrubbing | .retired | .offered => some .frameNotOwned
  | .owned => if owner then none else if peer then some .frameRevoked else some .frameNotOwned
  | .lent => if owner || peer then none else some .frameNotOwned
  | .recalling =>
    if owner then none
    else if peer then (if f.closing || decide (f.deadline ≤ now) then some .frameRevoked else none)
    else some .frameNotOwned

/-- Whether a table frame may be read for a domain's walk (05 R93). -/
def tableFrameOk (s : State) (d frame : Nat) : Bool :=
  let f := getFrame s frame
  isDram (4096 * frame)
    && (((decide (f.owner = d) || decide (f.owner = kernelOf d)) && (frameDenies f f.owner s.time).isNone)
      || (decide (f.peer = d) && decide (f.peer ≠ f.owner) && (frameDenies f d s.time).isNone))

/-- Whether a leaf of a domain may map a physical address: the range (05 R78), then the frame's entry (R102). -/
def leafDenies (s : State) (d : Nat) (k : Bool) (pa : Nat) : Option Cause :=
  match regionOf pa with
  | .bonded | .second => frameDenies (getFrame s (pa / 4096)) d s.time
  | .hostWindow f => if fnDomain f = d then none else some .frameNotOwned
  | .cxl => if d = 1 then none else some .frameNotOwned
  | .control _ => if k && (decide (d = 1) || decide (d = 2)) then none else some .frameNotOwned
  | .coreWindow _ | .security | .unpopulated => some .window

/-- The key a frame's accesses are sealed under: its KEYID (05 R102), or for a window outside the ownership table the
domain that may translate it (29 R380). -/
def keyOf (s : State) (d pa : Nat) : Nat := if isDram pa then (getFrame s (pa / 4096)).keyid else d

/-- The key a stored line is sealed under (05 R107). -/
def sealOf (s : State) (pl : Nat) : Option (Nat × Nat) := (tabFind s.sealLine pl).orElse fun _ => tabFind s.sealFrame (pl / 32)

/-- A line that was sealed under one key unsealed under the key a domain has now: its bytes if they are one key, else free
values (05 R107; log 7). -/
def unsealLine (s : State) (key pl : Nat) (under : Option (Nat × Nat)) (raw : LineBits) : LineBits :=
  let g := (s.getDom key).gen
  if under = some (key, g) then raw
  else
    let u := match under with | none => 0 | some (k, h) => 1 + k + 256 * h
    (upto 128).foldl (fun acc i => acc ||| ((Config.leftover key g pl u raw i).setWidth 1024 <<< (8 * i))) 0

/-- A line read from a memory controller under a key (05 R107). -/
def readSealed (s : State) (key pl : Nat) : LineBits := unsealLine s key pl (sealOf s pl) (memLine s.mem pl)

/-- A whole line written to a memory controller as it was sealed: under a domain's key of a generation. -/
def writeUnder (s : State) (key gen pl : Nat) (d : LineBits) : State :=
  { s with mem := memPutLine s.mem pl d, sealLine := tabPut s.sealLine pl (key, gen) }

/-- A whole line written to a memory controller under a key. -/
def writeSealed (s : State) (key pl : Nat) (d : LineBits) : State := writeUnder s key (s.getDom key).gen pl d

/-- What an L2 line unseals to: its bytes, free values where its key has been erased since (01 R19, 05 R85 R107). -/
def l2Data (s : State) (pl : Nat) (l : L2Line) : LineBits := unsealLine s l.keyid pl (some (l.keyid, l.gen)) l.data

/-- The set of its home slice that a line lies in (05 R86). -/
def l2Set (d vl : Nat) : Nat := Config.setOf d vl % 4096

/-- The home slice of a line, 16 × die + slice (05 R84). -/
def homeOf (d vl : Nat) : Nat :=
  let b (hi lo : Nat) := (vl >>> lo) % 2 ^ (hi + 1 - lo)
  (b 15 0 ^^^ b 31 16 ^^^ b 47 32 ^^^ b 49 48 ^^^ (d <<< 5)) % 160

/-- The way mask of a domain in a slice (05 R86 R87). -/
def wayMask (s : State) (slice d : Nat) : BitVec 24 := tabGet 0xFFFFFF s.waymask (256 * slice + d)

/-- The occupancy of a domain in a slice (05 R86 R87). -/
def occupancy (s : State) (slice d : Nat) : Nat :=
  (s.l2.filter fun x => decide (x.2.dom = d) && decide (homeOf x.2.dom x.2.vl = slice)).length

/-- The 64-bit register at an offset of a slice's control page; reserved offsets read zero (05 R87, 00 R7). -/
def controlReg (s : State) (slice off : Nat) : Word :=
  if off / 8 < 255 then (wayMask s slice (off / 8)).setWidth 64
  else if 0x100 ≤ off / 8 ∧ off / 8 < 0x100 + 255 then BitVec.ofNat 64 (occupancy s slice (off / 8 - 0x100))
  else 0

/-- A line of a control page. -/
def controlLine (s : State) (slice off : Nat) : LineBits :=
  (upto 16).foldl (fun acc i => acc ||| lineOf (8 * i) 8 (controlReg s slice (off + 8 * i)).toNat) 0

/-- Masked bytes written to a line of a control page by a domain: the host kernel writes domain 1's masks, the
accelerator kernel those of 2-194, every other write is ignored (05 R87). -/
def controlWrite (s : State) (writer slice off : Nat) (d : LineBits) (m : BitVec 128) : State :=
  let new := mergeLine (controlLine s slice off) d m
  (upto 16).foldl (fun s i =>
    let n := off / 8 + i
    let touched := decide ((m >>> (8 * i)).setWidth 8 ≠ (0 : BitVec 8))
    let may := (decide (writer = 1) && decide (n = 1)) || (decide (writer = 2) && decide (2 ≤ n) && decide (n ≤ 194))
    if touched && may then { s with waymask := tabPut s.waymask (256 * slice + n) (BitVec.ofNat 24 (lineNat new (8 * i) 8)) }
    else s) s

/-- A line of memory outside the package: free values, one draw for the line (05 R78 R380; log 7). -/
def hostLine (s : State) (pl : Nat) : LineBits × State :=
  let (n, s) := s.draw
  ((upto 128).foldl (fun acc i => acc ||| ((Config.hostByte n (128 * pl + i)).setWidth 1024 <<< (8 * i))) 0, s)

/-- The runs of consecutive masked bytes of a line: offset and bytes. -/
def maskRuns (d : LineBits) (m : BitVec 128) : List (Nat × List Byte) :=
  ((upto 128).foldr (fun i acc =>
    if m.getLsbD i then
      match acc with
      | (o, bs) :: r => if o = i + 1 then (i, lineByte d i :: bs) :: r else (i, [lineByte d i]) :: acc
      | [] => [(i, [lineByte d i])]
    else acc) [])

/-- Masked bytes written to memory outside the package (05 R78), under the device's own physical address: what address they
carry outside the spec does not say (log 96). -/
def hostWrite (s : State) (pl : Nat) (d : LineBits) (m : BitVec 128) : State :=
  let fn := match regionOf (128 * pl) with | .hostWindow f => f | _ => 194
  { s with hostOut := s.hostOut ++ (maskRuns d m).map fun r => { fn := fn, addr := 128 * pl + r.1, bytes := r.2 } }

/-- A physical line read at its place, past L2: memory under a key, a window outside, a control page. -/
def backRead (s : State) (key pl : Nat) : LineBits × State :=
  match regionOf (128 * pl) with
  | .bonded | .second => (readSealed s key pl, s)
  | .hostWindow _ | .cxl => hostLine s pl
  | .control n => (controlLine s n (128 * pl % 4096), s)
  | _ => (0, s)

/-- Masked bytes written at a physical line's place, past L2, by an agent of a domain. -/
def backWrite (s : State) (writer key pl : Nat) (d : LineBits) (m : BitVec 128) : State :=
  match regionOf (128 * pl) with
  | .bonded | .second => writeSealed s key pl (mergeLine (readSealed s key pl) d m)
  | .hostWindow _ | .cxl => hostWrite s pl d m
  | .control n => controlWrite s writer n (128 * pl % 4096) d m
  | _ => s

/-- Bytes of the stamps after masked bytes of a line are written with or without a stamp (07 R128). -/
def stampsAfter (old : Tab Stamp) (m : BitVec 128) (new : Nat → Option Stamp) : Tab Stamp :=
  let kept := old.filter fun x => !m.getLsbD x.1
  (upto 128).foldl (fun acc i => if m.getLsbD i then
    (match new i with | some t => tabPut acc i t | none => acc) else acc) kept

/-- The 64-byte halves of a line that a mask touches. -/
def maskHalves (m : BitVec 128) : Nat :=
  flag (decide (m.setWidth 64 ≠ (0 : BitVec 64))) + flag (decide ((m >>> 64).setWidth 64 ≠ (0 : BitVec 64)))

/-- Masked bytes arrive at the home slice of a physical line: merged into its L2 line, sealed anew, if there is one, else
written at its place, charged to the meter given (05 R83 R85 R86, 07 R123 R128, 23 R334). -/
def homeStore (s : State) (writer meter key pl : Nat) (d : LineBits) (m : BitVec 128) (st : Nat → Option Stamp) : State :=
  let s := match stampsAfter (tabGet [] s.stamps pl) m st with
    | [] => { s with stamps := tabErase s.stamps pl }
    | t => { s with stamps := tabPut s.stamps pl t }
  match tabFind s.l2 pl with
  | some l => { s with l2 := tabPut s.l2 pl { l with data := mergeLine (l2Data s pl l) d m, dirty := true,
                                                     gen := (s.getDom l.keyid).gen } }
  | none => chargeDram (backWrite s writer key pl d m) writer meter (128 * pl) (maskHalves m)

end Sys2Proof.Machine
end

