-- ==== Sys2Proof/Machine/Translate.lean ====
section
/-!
DEFINITION. Translation (05 R88-R100 R408): the page-table walk as recursion on the level, the walk caches, the
translation entries and the contiguous hint, the checks of R100 in order.
-/
namespace Sys2Proof.Machine

/-- Why an access does not complete now: a fault with its EVAL, or a line that an outside host holds (05 R110). -/
inductive AccErr where
  /-- cause and EVAL; `s` is the state with the memory traffic before the fault, such as table reads (23 R336) -/
  | fault (c : Cause) (v : Word) (s : State)
  | wait (pl : Nat)
  deriving DecidableEq, Repr

/-- The state after an access that does not complete: with the traffic before a fault, unchanged by a wait. -/
def AccErr.after (s : State) : AccErr → State
  | .fault _ _ t => t
  | .wait _ => s

/-- A state with the traffic of a device access that failed in `t`: its charges (23 R334) and what walks kept (05 R95)
(log 80). -/
def keepTraffic (s t : State) : State :=
  { s with tlb := t.tlb, walk := t.walk, clusters := t.clusters, charges := t.charges, device := t.device }

/-- The state `t` after an access that charges nothing, made in `s` (23 R336). -/
def uncharged (s t : State) : State := { t with clusters := s.clusters, charges := s.charges, device := s.device }

/-- Outside hosts' holding of a line is asked back (05 R110). -/
def askBack (s : State) (pl : Nat) : State :=
  { s with ext := match tabFind s.ext pl with
    | some h => tabPut s.ext pl { h with since := some (h.since.getD s.time) }
    | none => s.ext }

/-- An access's answer. -/
abbrev Acc (α : Type) := Except AccErr α

/-- What an access needs of the leaf (05 R94). -/
inductive Need where
  | load | store | both | fetch
  deriving DecidableEq, Repr

/-- Whether the leaf bits allow an access in a mode (05 R94). -/
def Perms.allow (p : Perms) (n : Need) (kernel : Bool) : Bool :=
  (match n with | .load => p.r | .store => p.w | .both => p.r && p.w | .fetch => p.x) && (kernel || !p.k)

/-- EVAL of a memory fault: the address in [56:0] (05 R100). -/
def memEval (va : Word) : Word := va &&& at_ (2 ^ 57 - 1) 0

/-- Virtual line number of an address (05 R81). -/
def vlineOf (va : Word) : Nat := bitsOf va 56 7

/-- The translation unit a miss of a line goes to, 8 × die + unit (05 R88). -/
def unitOf (d : Nat) (va : Word) : Nat :=
  8 * (homeOf d (vlineOf va) / 16) + ((bitsOf va 56 12 ^^^ d) % 8)

/-- A leaf found by translation. -/
structure Leaf where
  pa : Nat
  perms : Perms
  deriving DecidableEq, Repr

/-- The doubleword of a table at an index: from the line's L2 copy if there is one, else from memory under the table
frame's key (05 R408). -/
def readPte (s : State) (frame idx : Nat) : Word :=
  let pa := 4096 * frame + 8 * idx
  let pl := pa / 128
  let d := match tabFind s.l2 pl with
    | some l => l2Data s pl l
    | none => readSealed s (getFrame s frame).keyid pl
  BitVec.ofNat 64 (lineNat d (pa % 128) 8)

/-- The leaf bits of an entry (05 R91). -/
def pteLeafPerms (e : Word) : Perms :=
  { r := e.getLsbD 1, w := e.getLsbD 2, x := e.getLsbD 3, k := e.getLsbD 4 }

/-- FRAME of an entry (05 R91). -/
def pteFrame (e : Word) : Nat := bitsOf e 51 12

/-- Whether an entry of a level is a leaf (05 R92). -/
def pteLeaf (e : Word) (level : Nat) : Bool := decide (level = 1) || ((decide (level = 2) || decide (level = 3)) && e.getLsbD 7)

/-- The checks of R92 on an entry of a level, in their order. -/
def pteFault (e : Word) (level : Nat) : Option Cause :=
  if bitsOf e 63 52 ≠ 0 then some .pteReserved
  else if !e.getLsbD 0 then some .pageAbsent
  else if 4 ≤ level ∧ e.getLsbD 7 then some .pteReserved
  else if !pteLeaf e level && decide (bitsOf e 6 1 ≠ 0) then some .pteReserved
  else if pteLeaf e level && decide (level ≠ 1) && e.getLsbD 6 then some .pteReserved
  else if pteLeaf e level && decide (level = 3) && decide (bitsOf e 29 12 ≠ 0) then some .pteReserved
  else if pteLeaf e level && decide (level = 2) && decide (bitsOf e 20 12 ≠ 0) then some .pteReserved
  else if pteLeaf e level && e.getLsbD 2 && !e.getLsbD 1 then some .pteReserved
  else none

/-- EVAL of a walk fault at a level (05 R100). -/
def walkEval (c : Cause) (va : Word) (level : Nat) : Word :=
  match c with
  | .pteReserved => (va &&& at_ (2 ^ 54 - 1) 3) ||| at_ level 0
  | .frameNotOwned => memEval va ||| at_ 1 63 ||| at_ level 60
  | _ => memEval va

/-- log2 of the bytes an entry of a level maps (05 R90). -/
def levelLog (level : Nat) : Nat := 12 + 9 * (level - 1)

/-- The index of an address at a level (05 R90). -/
def levelIndex (va : Word) (level : Nat) : Nat := (va.toNat >>> levelLog level) % 512

/-- Whether the aligned group of 16 level-1 entries around an index forms one 64 KiB entry for a domain (05 R96). -/
def contiguous (s : State) (d frame idx : Nat) : Bool :=
  let es := (upto 16).map fun i => readPte s frame (idx / 16 * 16 + i)
  let e0 := es.headD 0
  decide (pteFrame e0 % 16 = 0)
    && (upto 16).all fun i =>
      let e := es.getD i 0
      (pteFault e 1).isNone && e.getLsbD 6 && decide (bitsOf e 5 1 = bitsOf e0 5 1) && decide (pteFrame e = pteFrame e0 + i)
        && (leafDenies s d (e.getLsbD 4) (4096 * pteFrame e)).isNone

/-- A translation entry kept by its unit, which holds 16,384 (01 R16): the one that leaves a full unit is open (log 5). -/
def putT (s : State) (t : TEntry) : State :=
  let mine := fun (x : TEntry) => decide (x.unit = t.unit)
  let n := (s.tlb.filter mine).length
  if n < 16384 then { s with tlb := t :: s.tlb }
  else
    let (k, s) := s.draw
    { s with tlb := t :: dropNth mine (Config.pick k % n) s.tlb }

/-- A non-leaf entry kept by a walk cache if the table frame it names passes R93 (05 R95, 22 R329). -/
def putW (s : State) (w : WEntry) : State := if tableFrameOk s w.dom w.frame then { s with walk := w :: s.walk } else s

/-- A walk from the table of a level down (05 R90-R93): the leaf, with the entries that the unit keeps; the entry that
fails a check, and a table frame that does, are kept nowhere (22 R329). A read that L2 serves is no read at a controller
(R408, 23 R334). `above`, the table frames read before. (log 106) -/
def walkFrom (s : State) (d meter : Nat) (va : Word) (above : List Nat) : Nat → Nat → Acc (Leaf × State)
  | 0, _ => .error (.fault .pteReserved (walkEval .pteReserved va 0) s)
  | n + 1, frame =>
    let level := n + 1
    if !tableFrameOk s d frame then .error (.fault .frameNotOwned (walkEval .frameNotOwned va level) s)
    else
      let idx := levelIndex va level
      let pl := (4096 * frame + 8 * idx) / 128
      if (tabFind s.ext pl).isSome then .error (.wait pl)
      else if (tabFind s.lost pl).isSome then .error (.fault .dataLost (memEval va) s)
      else
        let s := if (tabFind s.l2 pl).isSome then s else chargeDram s d meter (4096 * frame) (if level = 1 then 2 else 1)
        let e := readPte s frame idx
        match pteFault e level with
        | some c => .error (.fault c (walkEval c va level) s)
        | none =>
          if pteLeaf e level then
            let log := levelLog level
            let base := 4096 * pteFrame e
            let off := va.toNat % 2 ^ log
            let big := decide (level = 1) && e.getLsbD 6 && contiguous s d frame idx
            let t : TEntry :=
              if big then { unit := unitOf d va, dom := d, log := 16, vpn := bitsOf va 56 16, ppn := (base + off) / 2 ^ 16,
                            perms := pteLeafPerms e, g := e.getLsbD 5, tables := frame :: above }
              else { unit := unitOf d va, dom := d, log := log, vpn := va.toNat / 2 ^ log, ppn := base / 2 ^ log,
                     perms := pteLeafPerms e, g := e.getLsbD 5, tables := frame :: above }
            .ok ({ pa := base + off, perms := pteLeafPerms e }, putT s t)
          else
            let w : WEntry :=
              { unit := unitOf d va, dom := d, level := n, prefix_ := va.toNat / 2 ^ levelLog level,
                frame := pteFrame e, tables := frame :: above }
            walkFrom (putW s w) d meter va (frame :: above) n (pteFrame e)

/-- The translation entry that covers an address at its unit (05 R95). -/
def findT (s : State) (d : Nat) (va : Word) : Option TEntry :=
  s.tlb.find? fun t => decide (t.unit = unitOf d va) && decide (t.dom = d) && decide (t.vpn = va.toNat / 2 ^ t.log)

/-- The lowest table a walk-cache entry gives for an address (05 R95): its level and frame. -/
def findW (s : State) (d : Nat) (va : Word) : Option WEntry :=
  [1, 2, 3, 4].findSome? fun level => s.walk.find? fun w =>
    decide (w.unit = unitOf d va) && decide (w.dom = d) && decide (w.level = level)
      && decide (w.prefix_ = va.toNat / 2 ^ levelLog (level + 1))

/-- Steps 4 of R100 without the leaf's bits: the translation entry, or the walk. -/
def findLeaf (s : State) (d meter : Nat) (va : Word) : Acc (Leaf × State) :=
  match findT s d va with
  | some t => .ok ({ pa := t.ppn * 2 ^ t.log + va.toNat % 2 ^ t.log, perms := t.perms }, s)
  | none =>
    let root := (s.getDom d).troot
    if !root.getLsbD 0 then .error (.fault .pageAbsent (memEval va) s)
    else
      match findW s d va with
      | some w => walkFrom s d meter va w.tables w.level w.frame
      | none => walkFrom s d meter va [] 5 (bitsOf root 51 12)

/-- Steps 4 to 6 of R100 for a miss: the leaf, its bits, its range, its frame. -/
def leafCheck (s : State) (d meter : Nat) (kernel : Bool) (need : Need) (va : Word) : Acc (Leaf × State) :=
  match findLeaf s d meter va with
  | .error e => .error e
  | .ok (l, s) =>
    if !l.perms.allow need kernel then .error (.fault .pagePerm (memEval va) s)
    else match leafDenies s d l.perms.k l.pa with
      | some c => .error (.fault c (memEval va) s)
      | none => .ok (l, s)

/-- Steps 4 to 7 of R100 for a miss, then a line that an outside host holds (R110). `heal`: the write that R110 lets
through to a poisoned-lost line. -/
def translate (s : State) (d meter : Nat) (kernel : Bool) (need : Need) (va : Word) (heal : Bool) : Acc (Leaf × State) :=
  match leafCheck s d meter kernel need va with
  | .error e => .error e
  | .ok (l, s) =>
    if (tabFind s.lost (l.pa / 128)).isSome && !heal then .error (.fault .dataLost (memEval va) s)
    else if (tabFind s.ext (l.pa / 128)).isSome then .error (.wait (l.pa / 128))
    else .ok (l, s)

end Sys2Proof.Machine
end

