-- ==== Sys2Proof/Machine/Cache.lean ====
section
/-!
DEFINITION. The caches (05 R80-R87 R97, 07 R128-R133): a line at its home slice, fills, write-backs, releases, acquires,
invalidations, and the access of an activation to the bytes of one line.
-/
namespace Sys2Proof.Machine

/-- A line as its home slice serves it (05 R84 R97): its physical line, plaintext, leaf bits for the requester, key. -/
structure HomeLine where
  pl : Nat
  /-- the line number of the address that named it -/
  vl : Nat
  data : LineBits
  perms : Perms
  keyid : Nat
  stamps : Tab Stamp
  /-- the delay accumulator its response credits (27 R376) -/
  da : Option Nat
  deriving DecidableEq, Repr

/-- The accumulator of the slice that served a request of a core (27 R376) (log 33). -/
def daOfSlice (c home : Nat) : Nat :=
  if home / 16 = dieOf c then home % 16 else 24 + (if home / 16 < dieOf c then home / 16 else home / 16 - 1)

/-- The accumulator of a request that missed in L2 (27 R376): the second-tier controller, a remote die, or the local
translation unit; the slice whose control page it is; windows outside the package credit nothing. A home slice on a remote die
credits that die, wherever its memory lies (log 33). -/
def daOfMiss (c d home pa : Nat) (va : Word) : Option Nat :=
  if inSecond pa then some (33 + pa / 256 % 4)
  else if inBonded pa then
    (if home / 16 ≠ dieOf c then some (daOfSlice c home)
     else if dieOfAddr pa ≠ dieOf c then some (24 + (if dieOfAddr pa < dieOf c then dieOfAddr pa else dieOfAddr pa - 1))
     else some (16 + unitOf d va % 8))
  else match regionOf pa with
    | .control n => some (daOfSlice c n)
    | _ => none

/-- The L2 line held under a tag: its physical line and the line. -/
def findL2 (s : State) (d vl : Nat) : Option (Nat × L2Line) := s.l2.find? fun x => decide (x.2.dom = d) && decide (x.2.vl = vl)

/-- The home slice of a physical line for a requester's tag: the canonical line's while the remap filter holds it
(05 R84 R97). -/
def homeSlice (s : State) (pl d vl : Nat) : Nat :=
  match tabFind s.l2 pl with
  | some l => homeOf l.dom l.vl
  | none => homeOf d vl

/-- The L1 line of a core under a tag. -/
def findL1 (s : State) (c d vl : Nat) : Option L1Line :=
  (s.getCore c).l1.find? fun l => decide (l.dom = d) && decide (l.vl = vl)

/-- The core's L1 with a line placed. -/
def putL1 (s : State) (c : Nat) (l : L1Line) : State :=
  s.modCore c fun x => { x with l1 := replaceOrAdd (fun y => decide (y.dom = l.dom) && decide (y.vl = l.vl)) l x.l1 }

/-- The core's L1 without a line. -/
def dropL1 (s : State) (c d vl : Nat) : State :=
  s.modCore c fun x => { x with l1 := x.l1.filter fun y => !(decide (y.dom = d) && decide (y.vl = vl)) }

/-- The dirty bytes of an L1 line go to its home slice with their stamps (05 R83, 07 R128); the L1 is not changed. -/
def storeBack (s : State) (c : Nat) (l : L1Line) : State :=
  if l.dirty = 0 then s
  else
    let s := homeStore s l.dom (clusterOf c) l.keyid l.pl l.data l.dirty fun i => tabFind l.stamps i
    chargeMove s l.dom c (homeSlice s l.pl l.dom l.vl)

/-- An L1 line written back and kept clean (05 R83). -/
def cleanL1 (s : State) (c : Nat) (l : L1Line) : State :=
  if l.dirty = 0 then s else putL1 (storeBack s c l) c { l with dirty := 0 }

/-- An L1 line written back and dropped (05 R83). -/
def flushL1 (s : State) (c : Nat) (l : L1Line) : State := dropL1 (storeBack s c l) c l.dom l.vl

/-- Every L1 copy of a physical line written back, and dropped (05 R83 R97). -/
def dropCopies (s : State) (pl : Nat) : State :=
  s.cores.foldl (fun s x => x.2.l1.foldl (fun s l => if l.pl = pl then flushL1 s x.1 l else s) s) s

/-- A canonical line leaves its home slice (05 R85 R97): its L1 copies first, then its dirty data to memory, charged to
the meter of the home slice's node (23 R334). -/
def dropL2 (s : State) (pl : Nat) : State :=
  let s := dropCopies s pl
  match tabFind s.l2 pl with
  | none => s
  | some l =>
    let s := { s with l2 := tabErase s.l2 pl }
    if l.dirty then chargeDram (writeUnder s l.keyid l.gen pl l.data) l.dom (homeOf l.dom l.vl) (128 * pl) 2 else s

/-- The ways of a line's set in its home slice that hold a line (05 R86), with the lines. -/
def setWays (s : State) (d vl : Nat) : List (Nat × Nat) :=
  (s.l2.filter fun x => decide (homeOf x.2.dom x.2.vl = homeOf d vl) && decide (l2Set x.2.dom x.2.vl = l2Set d vl)).map
    fun x => (x.2.way, x.1)

/-- A line allocated in its home slice (05 R86): in a way of the domain's mask, an empty one if there is one, else in place
of a line that leaves; which of them is open (log 5). A domain with mask 0 allocates nothing. -/
def allocL2 (s : State) (pl : Nat) (l : L2Line) : State :=
  let ways := (upto 24).filter fun w => (wayMask s (homeOf l.dom l.vl) l.dom).getLsbD w
  if ways.isEmpty then s
  else
    let used := setWays s l.dom l.vl
    let empty := ways.filter fun w => used.all fun u => decide (u.1 ≠ w)
    let (k, s) := s.draw
    if empty.isEmpty then
      let way := ways.getD (Config.pick k % ways.length) 0
      let s := match used.find? fun u => decide (u.1 = way) with
        | some u => dropL2 s u.2
        | none => s
      { s with l2 := tabPut s.l2 pl { l with way := way } }
    else { s with l2 := tabPut s.l2 pl { l with way := empty.getD (Config.pick k % empty.length) 0 } }

/-- Where a checked access finds its line (05 R100): the physical address, the leaf bits that count for it, and whether L2
holds it under the requester's own tag. -/
structure HomePlace where
  pa : Nat
  perms : Perms
  own : Bool
  deriving DecidableEq, Repr

/-- A loan of a physical line's frame is past its deadline for a domain (05 R106): its accesses no longer hit. -/
def closedTo (s : State) (d pl : Nat) : Bool :=
  let f := getFrame s (pl / 32)
  f.closing && decide (f.peer = d) && decide (f.owner ≠ d)

/-- The checks of R100 for an access that reaches the home slice (05 R84-R88 R97 R100): the bits of the L2 line under the
requester's own tag; else translation. Nothing but translation has happened after them (17 R246). -/
def homePlace (s : State) (d meter : Nat) (kernel : Bool) (need : Need) (va : Word) (heal : Bool) : Acc (HomePlace × State) :=
  if bitsOf va 63 57 ≠ 0 then .error (.fault .pageAbsent (memEval va) s)
  else match (findL2 s d (vlineOf va)).filter fun x => !closedTo s d x.1 with
  | some (pl, l) =>
    if !l.perms.allow need kernel then .error (.fault .pagePerm (memEval va) s)
    else if (tabFind s.ext pl).isSome then .error (.wait pl)
    else .ok ({ pa := 128 * pl + va.toNat % 128, perms := l.perms, own := true }, s)
  | none =>
    match translate s d meter kernel need va heal with
    | .error e => .error e
    | .ok (leaf, s) => .ok ({ pa := leaf.pa, perms := leaf.perms, own := false }, s)

/-- The home slice serves a checked line (05 R84-R88 R97): from the L2 line that holds it, under whatever tag; else from its
place, and memory's line is then allocated (R86). `meter` is the requester's, `core` gives the hops and the accumulator,
`bill` whether the fill of the L2 line is charged here. -/
def homeServeAs (bill : Bool) (s : State) (core d meter : Nat) (va : Word) (p : HomePlace) : HomeLine × State :=
  let pl := p.pa / 128
  let vl := vlineOf va
  match tabFind s.l2 pl with
  | some l =>
    ({ pl := pl, vl := vl, data := l2Data s pl l, perms := p.perms,
       keyid := if p.own then l.keyid else (getFrame s (pl / 32)).keyid, stamps := tabGet [] s.stamps pl,
       da := some (daOfSlice core (homeOf l.dom l.vl)) }, s)
  | none =>
    let key := keyOf s d p.pa
    let (data, s) := backRead s key pl
    let h : HomeLine := { pl := pl, vl := vl, data := data, perms := p.perms, keyid := key, stamps := tabGet [] s.stamps pl,
                          da := daOfMiss core d (homeOf d vl) p.pa va }
    if isDram p.pa then
      (h, allocL2 (if bill then chargeDram s d meter p.pa 2 else s) pl
        { dom := d, vl := vl, data := data, dirty := false, perms := p.perms, keyid := key, gen := (s.getDom key).gen, way := 0 })
    else (h, s)

/-- The home slice serves a checked line, the fill of its L2 line charged to the requester (05 R84-R88 R97, 23 R334). -/
def homeServe (s : State) (core d meter : Nat) (va : Word) (p : HomePlace) : HomeLine × State :=
  homeServeAs true s core d meter va p

/-- The home slice serves the line of an address to an agent, once the checks of R100 have passed (05 R84-R88 R97). -/
def homeLine (s : State) (core d meter : Nat) (kernel : Bool) (need : Need) (va : Word) (heal : Bool) :
    Acc (HomeLine × State) :=
  match homePlace s d meter kernel need va heal with
  | .error e => .error e
  | .ok (p, s) => .ok (homeServe s core d meter va p)

/-- A request of a core waits for the response that credits an accumulator (27 R376). -/
def addPending (s : State) (c : Nat) (da : Option Nat) : State :=
  s.modCore c fun x => { x with pending := x.pending ++ [{ da := da, pref := none, walked := true, reads := [] }] }

/-- An L1 line is a copy of a physical line for a domain: under whatever address, its bytes are the same locations
(07 R114). -/
def L1Line.copies (l : L1Line) (d pl : Nat) : Bool := decide (l.dom = d) && decide (l.pl = pl)

/-- The physical line of an address, where the core's L1, L2 or the translation tells it. -/
def physLine (s : State) (c d : Nat) (va : Word) : Option Nat :=
  match findL1 s c d (vlineOf va), findL2 s d (vlineOf va) with
  | some l, _ => some l.pl
  | none, some (pl, _) => some pl
  | none, none => match findLeaf s d (clusterOf c) va with
    | .ok (l, _) => some (l.pa / 128)
    | .error _ => none

/-- The line of an address, and every copy of it under another address of the domain, written back and dropped from a
core's L1, before an operation at its home slice (05 R83, 07 R114, 17 R246). -/
def flushAddr (s : State) (c d : Nat) (va : Word) : State :=
  let pl := physLine s c d va
  (s.getCore c).l1.foldl (fun s l =>
    if decide (l.dom = d) && (decide (l.vl = vlineOf va) || decide (some l.pl = pl)) then flushL1 s c l else s) s

/-- A release of a domain on a core (05 R83): at CLUSTER scope or wider every dirty byte of the domain in the L1 goes to
its home slice. -/
def release (s : State) (c d : Nat) (sc : Scope) : State :=
  if sc = .core then s
  else (s.getCore c).l1.foldl (fun s l => if l.dom = d then cleanL1 s c l else s) s

/-- An acquire of a domain on a core (05 R83): at CLUSTER scope or wider every clean byte of the domain in the L1 is
invalidated; dirty bytes stay. -/
def acquire (s : State) (c d : Nat) (sc : Scope) : State :=
  if sc = .core then s
  else s.modCore c fun x => { x with
    l1 := (mapIf (fun l => decide (l.dom = d)) (fun l => { l with valid := l.dirty }) x.l1).filter fun l => decide (l.valid ≠ 0) }

/-- The bytes that a core holds dirty of a physical line for a domain, under whatever addresses, their mask and their
stamps (07 R114 R121). -/
def ownBytes (s : State) (c d pl : Nat) : LineBits × BitVec 128 × Tab Stamp :=
  (s.getCore c).l1.foldl (fun acc l =>
    if l.copies d pl then
      (mergeLine acc.1 l.data l.dirty, acc.2.1 ||| l.dirty, stampsAfter acc.2.2 l.dirty fun i => tabFind l.stamps i)
    else acc) (0, 0, [])

/-- The masked bytes of a line given to the core's other copies of it, so that one activation's accesses through different
addresses agree (07 R114 R121 R122) (log 79). -/
def shareL1 (s : State) (c : Nat) (l : L1Line) (m : BitVec 128) : State :=
  s.modCore c fun x => { x with
    l1 := mapIf (fun y => y.copies l.dom l.pl)
      (fun y => { y with data := mergeLine y.data l.data m, stamps := stampsAfter y.stamps m fun i => tabFind l.stamps i }) x.l1 }

/-- An L1 line as a fill leaves it (05 R81 R85): the served bytes, over them the bytes that the core holds dirty under other
addresses of the line, over them those already dirty under this one (07 R121). -/
def filledLine (s : State) (c d : Nat) (va : Word) (h : HomeLine) : L1Line :=
  let own := ownBytes s c d h.pl
  let l : L1Line := { dom := d, vl := vlineOf va, data := mergeLine h.data own.1 own.2.1, valid := BitVec.allOnes 128,
                      dirty := 0, perms := h.perms, keyid := h.keyid, pl := h.pl,
                      stamps := stampsAfter h.stamps own.2.1 fun i => tabFind own.2.2 i }
  match findL1 s c d (vlineOf va) with
  | some k => { l with data := mergeLine l.data k.data k.dirty, dirty := k.dirty,
                       stamps := stampsAfter l.stamps k.dirty fun i => tabFind k.stamps i }
  | none => l

/-- The lines that a core's L1 data cache holds (01 R21 R25). -/
def l1Lines (c : Nat) : Nat := if isSystem c then 2048 else 12288
/-- The lines that a core's L1 instruction cache holds (01 R21 R25). -/
def l1iLines (c : Nat) : Nat := if isSystem c then 512 else 1024

/-- Room for a line in a core's L1 (01 R21 R25, 05 R83): a full one evicts a line; which is open (log 5). -/
def roomL1 (s : State) (c d vl : Nat) : State :=
  let x := s.getCore c
  if (findL1 s c d vl).isSome ∨ x.l1.length < l1Lines c then s
  else
    let (k, s) := s.draw
    match x.l1[Config.pick k % x.l1.length]? with
    | some l => flushL1 s c l
    | none => s

/-- The line of an address filled into a core's L1 (05 R81 R85). -/
def fillL1 (s : State) (c d : Nat) (kernel : Bool) (need : Need) (va : Word) : Acc (L1Line × State) :=
  match homeLine s c d (clusterOf c) kernel need va false with
  | .error e => .error e
  | .ok (h, s) =>
    let l := filledLine s c d va h
    let s := chargeMove (roomL1 (addPending s c h.da) c d (vlineOf va)) d c (homeSlice s h.pl d (vlineOf va))
    .ok (l, putL1 (shareL1 s c l (BitVec.allOnes 128)) c l)

/-- The checks of R100 for an access through a core's L1, with nothing filled (13 R208): the state with the translation's
traffic. -/
def lineCheck (s : State) (c d : Nat) (kernel : Bool) (need : Need) (va : Word) (n : Nat) : Acc State :=
  let m := byteMask (va.toNat % 128) n
  match (findL1 s c d (vlineOf va)).filter fun l => decide (l.valid &&& m = m) && decide (bitsOf va 63 57 = 0) with
  | some l => if l.perms.allow need kernel then .ok s else .error (.fault .pagePerm (memEval va) s)
  | none => (homePlace s d (clusterOf c) kernel need va false).map fun r => r.2

/-- The L1 line that serves `n` bytes of an access (05 R81 R82 R100): a hit is checked by the bits the line records, a
miss fills the line. -/
def lineFor (s : State) (c d : Nat) (kernel : Bool) (need : Need) (va : Word) (n : Nat) : Acc (L1Line × State) :=
  let m := byteMask (va.toNat % 128) n
  if bitsOf va 63 57 ≠ 0 then .error (.fault .pageAbsent (memEval va) s)
  else match findL1 s c d (vlineOf va) with
  | some l =>
    if l.valid &&& m = m then
      (if l.perms.allow need kernel then .ok (l, s) else .error (.fault .pagePerm (memEval va) s))
    else fillL1 s c d kernel need va
  | none => fillL1 s c d kernel need va

/-- `n` bytes of one line loaded through a core's L1, with their stamps (05 R81, 07 R121) (log 4). -/
def loadLine (s : State) (c d : Nat) (kernel : Bool) (va : Word) (n : Nat) : Acc (Nat × Tab Stamp × State) :=
  match lineFor s c d kernel .load va n with
  | .error e => .error e
  | .ok (l, s) =>
    let off := va.toNat % 128
    .ok (lineNat l.data off n, l.stamps.filter (fun x => decide (off ≤ x.1) && decide (x.1 < off + n)), s)

/-- `n` bytes of one line stored into a core's L1 after a fill where it misses (05 R81), with or without a stamp
(07 R128) (log 4). -/
def storeLine (s : State) (c d : Nat) (kernel : Bool) (va : Word) (n x : Nat) (st : Option Stamp) : Acc State :=
  match lineFor s c d kernel .store va n with
  | .error e => .error e
  | .ok (l, s) =>
    let off := va.toNat % 128
    let m := byteMask off n
    let l := { l with data := mergeLine l.data (lineOf off n x) m, dirty := l.dirty ||| m,
                      stamps := stampsAfter l.stamps m fun _ => st }
    .ok (putL1 (shareL1 s c l m) c l)

/-- Masked bytes of a checked line read and rewritten at its home slice as one operation (05 R84 R86, 17 R246): `f`
answers the new bytes, their mask, and a value. -/
def servedAt {α : Type} (s : State) (core d meter : Nat) (va : Word) (p : HomePlace)
    (f : HomeLine → LineBits × BitVec 128 × (Nat → Option Stamp) × α) : α × HomeLine × State :=
  let (h, s) := homeServe s core d meter va p
  let (new, m, st, a) := f h
  (a, h, if m = 0 then s else homeStore s d meter h.keyid h.pl new m st)

/-- The checks of R100, then an operation on the bytes of a line at its home slice (05 R84 R86, 17 R246). -/
def atHome {α : Type} (s : State) (core d meter : Nat) (kernel : Bool) (need : Need) (va : Word)
    (f : HomeLine → LineBits × BitVec 128 × (Nat → Option Stamp) × α) : Acc (α × HomeLine × State) :=
  match homePlace s d meter kernel need va false with
  | .error e => .error e
  | .ok (p, s) => .ok (servedAt s core d meter va p f)

/-- Every L1 line that satisfies a test written back and dropped, in every core. -/
def dropL1Where (s : State) (f : L1Line → Bool) : State :=
  s.cores.foldl (fun s x => x.2.l1.foldl (fun s l => if f l then flushL1 s x.1 l else s) s) s

/-- Every L2 line that satisfies a test leaves its home slice. -/
def dropL2Where (s : State) (f : Nat → L2Line → Bool) : State :=
  s.l2.foldl (fun s x => if f x.1 x.2 then dropL2 s x.1 else s) s

/-- Whether an agent on a core lies within a scope as seen from another core (07 R112). -/
def covers (sc : Scope) (from_ to_ : Nat) : Bool :=
  match sc with
  | .core => decide (from_ = to_)
  | .cluster => decide (clusterOf from_ = clusterOf to_)
  | .die => decide (dieOf from_ = dieOf to_)
  | .package => decide (isSystem from_ = isSystem to_)
  | .system => true

/-- The smallest scope code that covers an acquirer as seen from a releasing core (07 R131). -/
def scopeTo (from_ to_ : Nat) : Nat :=
  ([Scope.core, .cluster, .die, .package, .system].find? fun sc => covers sc from_ to_).elim 4 fun sc => sc.code.toNat

/-- Room for a line in a core's L1 instruction cache (01 R21 R25): a full one drops a line; which is open (log 5). -/
def roomL1i (s : State) (c : Nat) : State :=
  let n := (s.getCore c).l1i.length
  if n < l1iLines c then s
  else
    let (k, s) := s.draw
    s.modCore c fun x => { x with l1i := dropNth (fun _ => true) (Config.pick k % n) x.l1i }

/-- The instruction line a fetch reads (05 R82 R94): a hit is checked by its recorded bits, a miss fills it, with the bytes
that the core itself holds dirty (07 R134: an ISYNC at CORE scope writes none back) (log 79). -/
def fetchLine (s : State) (c d : Nat) (kernel : Bool) (va : Word) : Acc (ILine × State) :=
  if bitsOf va 63 57 ≠ 0 then .error (.fault .pageAbsent (memEval va) s)
  else match (s.getCore c).l1i.find? fun l => decide (l.dom = d) && decide (l.vl = vlineOf va) with
  | some l => if l.perms.allow .fetch kernel then .ok (l, s) else .error (.fault .pagePerm (memEval va) s)
  | none =>
    match homeLine s c d (clusterOf c) kernel .fetch va false with
    | .error e => .error e
    | .ok (h, s) =>
      let own := ownBytes s c d h.pl
      let l : ILine := { dom := d, vl := vlineOf va, data := mergeLine h.data own.1 own.2.1, perms := h.perms, pl := h.pl }
      let s := roomL1i (chargeMove (addPending s c h.da) d c (homeSlice s h.pl d (vlineOf va))) c
      .ok (l, s.modCore c fun x => { x with l1i := l :: x.l1i })

/-- The word at an address of an instruction line (11 R163). -/
def wordAt (l : ILine) (va : Word) : IWord := BitVec.ofNat 32 (lineNat l.data (va.toNat % 128) 4)

end Sys2Proof.Machine
end

