-- ==== Sys2Proof/Machine/Message.lean ====
section
/-!
DEFINITION. Messages (03 R38-R48, 21 R305 R306 R325 R327): headers, sending through an entry, notices, homeless
messages, the device's own accesses to a domain's memory, and the placing of a message at its core.
-/
namespace Sys2Proof.Machine

/-- A message header (03 R40). -/
def mkHeader (sep sdom seq len tag score : Nat) : Word :=
  at_ (sep % 256) 43 ||| at_ (sdom % 256) 35 ||| at_ (seq % 65536) 19 ||| at_ (len % 8) 16 ||| at_ (tag % 16) 12 ||| at_ (score % 4096) 0

/-- V of an endpoint entry (03 R38). -/
def epValid (e : Word) : Bool := e.getLsbD 63
/-- DDOM. -/
def epDom (e : Word) : Nat := bitsOf e 55 48
/-- DPKG. -/
def epPkg (e : Word) : Nat := bitsOf e 47 44
/-- The entry names a Lanyard port whose link is down (29 R394). -/
def portDown (s : State) (e : Word) : Bool := decide (epPkg e ≠ 0) && decide ((s.getPort (epPkg e - 1)).lstate ≠ .up)
/-- DCORE. -/
def epCore (e : Word) : Nat := bitsOf e 43 32
/-- ACTOR. -/
def epActor (e : Word) : Nat := bitsOf e 31 28
/-- TAG. -/
def epTag (e : Word) : Nat := bitsOf e 27 24
/-- LEN. -/
def epLen (e : Word) : Nat := bitsOf e 23 21
/-- SEQ. -/
def epSeq (e : Word) : Nat := bitsOf e 15 0
/-- The entry with its SEQ advanced by 1 modulo 65,536 (03 R41). -/
def epAdvance (e : Word) : Word := (e &&& ~~~at_ 0xFFFF 0) ||| at_ ((epSeq e + 1) % 65536) 0

/-- An entry of a core's endpoint table. -/
def endpoint (s : State) (c i : Nat) : Word := tabGet 0 (s.getCore c).endpoints i

/-- The state with an entry written. -/
def setEndpoint (s : State) (c i : Nat) (e : Word) : State :=
  s.modCore c fun x => { x with endpoints := tabPut x.endpoints i e }

/-- The place a message goes to, for its hops (23 R335). -/
def epPlace (e : Word) : Place := if epPkg e ≠ 0 || decide (1312 ≤ epCore e) then hubPlace else corePlace (epCore e)

/-- s7 of a homeless message (21 R327). -/
def homelessVia (core actor dom : Nat) : Word := at_ core 0 ||| at_ actor 12 ||| at_ dom 16 ||| at_ 1 24

/-- A kernel's NOTICE or HOMELESS endpoint (21 R306). -/
def deviceEndpoint (s : State) (kernel : Nat) (homeless : Bool) : Word :=
  if homeless then (s.getDom kernel).homeless else (s.getDom kernel).notice

/-- A waiting notice or homeless message as a message through its kernel's device endpoint. -/
def deviceMsg (e : Word) (w : Waiting) : Msg :=
  { dom := epDom e, core := epCore e, actor := epActor e, tag := epTag e,
    hdr := if w.homeless then w.hdr else mkHeader 0 0 0 7 (epTag e) w.score,
    words := padTo 0 7 w.words, via := w.via, src := 256 * 4090 + 2 * w.kernel + flag w.homeless, reached := false }

/-- A notice or homeless message goes out through its kernel's endpoint, or waits until that is valid (21 R306); a notice's
energy is the device's (23 R336). -/
def raise (s : State) (w : Waiting) : State :=
  let e := deviceEndpoint s w.kernel w.homeless
  if epValid e then
    let s := if w.homeless then s else chargeNotice s (epPlace e)
    { s with flight := s.flight ++ [deviceMsg e w] }
  else { s with waiting := s.waiting ++ [w] }

/-- What waited for a kernel's endpoint goes out, in order, once that is valid. -/
def releaseWaiting (s : State) : State :=
  s.waiting.foldl (fun s w => raise s w) { s with waiting := [] }

/-- A notice to a kernel (03 R41 R42): its code and words, zeros beyond. -/
def notice (s : State) (kernel score : Nat) (words : List Word) : State :=
  raise s { kernel := kernel, homeless := false, score := score, hdr := 0, via := 0, words := words }

/-- A notice to tag 15 of the runtime actor of a core (03 R42). -/
def noticeCore (s : State) (c score : Nat) (words : List Word) : State :=
  let m : Msg := { dom := (s.getCore c).dom.getD 0, core := c, actor := 15, tag := 15, hdr := mkHeader 0 0 0 7 15 score,
                   words := padTo 0 7 words, via := 0, src := 256 * 4090 + 16 + c, reached := false }
  { chargeNotice s (corePlace c) with flight := s.flight ++ [m] }

/-- A message goes to the homeless queue of its domain (21 R327). -/
def sendHomeless (s : State) (m : Msg) : State :=
  raise s { kernel := kernelOf m.dom, homeless := true, score := 0, hdr := m.hdr, via := homelessVia m.core m.actor m.dom,
            words := m.words }

/-- The bytes of a 64-byte message slot: header, then seven words (03 R47). -/
def msgBytes (hdr : Word) (words : List Word) : List Byte := wordBytes (hdr :: padTo 0 7 words)

/-- A message that no flit of a port has carried to the peer goes to the HOMELESS endpoint of the sending domain's kernel
(21 R327, 29 R394). -/
def portHomeless (s : State) (p : Nat) (u : Body) : State :=
  let ws := wordsOf 8 u.bytes
  raise s { kernel := kernelOf u.dom, homeless := true, score := 0, hdr := ws.headD 0,
            via := at_ 4094 0 ||| at_ p 12 ||| at_ u.ddom 16 ||| at_ 3 24, words := ws.drop 1 }

/-- A message's body waits at a Lanyard port (29 R388); at a port whose link is down it is homeless. -/
def toPort (s : State) (p : Nat) (u : Body) : State :=
  if (s.getPort p).lstate = .up then s.modPort p fun x => { x with queue := x.queue ++ [u] } else portHomeless s p u

/-- The function of the host link that a domain owns (01 R27). -/
def fnOf (d : Nat) : Nat := d - 1

/-- An outgoing message takes the path its entry names (03 R45, 25 R352, 29 R384 R388). -/
def route (s : State) (o : Outgoing) : State :=
  if o.pkg ≠ 0 then
    toPort s (o.pkg - 1)
      { ing := o.msg.core % 256, bytes := msgBytes o.msg.hdr o.msg.words, last := true, dom := bitsOf o.msg.hdr 42 35, ddom := o.msg.dom,
        job := none }
  else if o.msg.core = 4095 then s.modFn (fnOf o.msg.dom) fun f => { f with egress := f.egress ++ [o.msg] }
  else if o.msg.core = 4090 then { s with requests := s.requests ++ [o.msg] }
  else { s with flight := s.flight ++ [o.msg] }

/-- The message that a send through a core's entry makes, and the entry's advance (03 R41). `sdom`: the core's SDOM. -/
def makeMsg (s : State) (c i sdom score : Nat) (words : List Word) : Outgoing × State :=
  let e := endpoint s c i
  ({ pkg := epPkg e,
     msg := { dom := epDom e, core := epCore e, actor := epActor e, tag := epTag e,
              hdr := mkHeader i sdom (epSeq e) (epLen e) (epTag e) score, words := words.take (epLen e), via := 0,
              src := 256 * c + i, reached := false } },
   setEndpoint s c i (epAdvance e))

/-- The next message of a core's injection queue enters the network (03 R45). -/
def injectNext (s : State) (c : Nat) : State :=
  match (s.getCore c).inj with
  | [] => s
  | o :: r => route (s.modCore c fun x => { x with inj := r }) o

/-- The `n` oldest messages of a core's injection queue enter the network. -/
def injectMany (s : State) (c : Nat) : Nat → State
  | 0 => s
  | n + 1 => injectMany (injectNext s c) c n

/-- Messages sent before through an entry of a core enter the network first, so that its SEQ keeps their order (03 R55, 29
R384). -/
def injectBefore (s : State) (c i : Nat) : State :=
  let q := (s.getCore c).inj
  if q.any fun o => decide (o.msg.src = 256 * c + i) then injectMany s c q.length else s

/-- A message the device sends on behalf of a core through one of its entries (03 R41), charged as R334 states; `acq`, the
scope its claim acquires at, where R118 gives it one of its own. -/
def deviceSendAt (acq : Option Scope) (s : State) (c i sdom score payer meter : Nat) (words : List Word) : State :=
  let e := endpoint s c i
  let (o, s) := makeMsg (injectBefore s c i) c i sdom score words
  route (charge s payer meter [(1, 8), (hops (placeOf meter) (epPlace e), 9)]) { o with msg := { o.msg with acq := acq } }

/-- The same, claimed at the smallest scope that covers both cores (07 R118). -/
def deviceSend (s : State) (c i sdom score payer meter : Nat) (words : List Word) : State :=
  deviceSendAt none s c i sdom score payer meter words

/-- Up to 128 bytes within one line read at the home slice by the device for a domain (05 R100) (log 23). -/
def devRead (s : State) (d meter core : Nat) (va : Word) (n : Nat) : Acc (List Byte × State) :=
  match homeLine s core d meter true .load va false with
  | .error e => .error e
  | .ok (h, s) => .ok (leBytes n (lineNat h.data (va.toNat % 128) n), s)

/-- Bytes within one line written at the home slice by the device for a domain, under its key (05 R100) (log 23). -/
def devWrite (s : State) (d meter core : Nat) (va : Word) (bs : List Byte) : Acc State :=
  let off := va.toNat % 128
  match atHome s core d meter true .store va (fun _ => (lineOf off bs.length (leNat bs), byteMask off bs.length, (fun _ => none), ())) with
  | .error e => .error e
  | .ok (_, _, s) => .ok s

/-- Bytes written by the device in chunks of 64 from a 64-byte aligned address. -/
def devWriteAll (s : State) (d meter core : Nat) (va : Word) : Nat → List Byte → Acc State
  | 0, _ => .ok s
  | n + 1, bs =>
    match devWrite s d meter core va (bs.take 64) with
    | .error e => .error e
    | .ok s => devWriteAll s d meter core (va + 64) n (bs.drop 64)

/-- 64 × n bytes read by the device from a 64-byte aligned address. -/
def devReadAll (s : State) (d meter core : Nat) (va : Word) : Nat → Acc (List Byte × State)
  | 0 => .ok ([], s)
  | n + 1 =>
    match devRead s d meter core va 64 with
    | .error e => .error e
    | .ok (bs, s) =>
      match devReadAll s d meter core (va + 64) n with
      | .error e => .error e
      | .ok (r, s) => .ok (bs ++ r, s)

/-- Bytes of a save record within one line read by the device (23 R334): charged are the table reads of its translation and
the bytes read from memory (log 81). -/
def recordRead (s : State) (d meter core : Nat) (va : Word) (n : Nat) : Acc (List Byte × State) :=
  match homePlace s d meter true .load va false with
  | .error e => .error e
  | .ok (p, s) =>
    let (h, t) := homeServeAs false s core d meter va p
    .ok (leBytes n (lineNat h.data (va.toNat % 128) n),
      if (tabFind s.l2 h.pl).isSome then t
      else chargeDram t d meter (128 * h.pl) (if (tabFind t.l2 h.pl).isSome then 2 else 1))

/-- Bytes of a save record within one line written by the device (23 R334): charged are the table reads of its translation,
a fill of its L2 line, and the bytes where they go to memory (log 81). -/
def recordWrite (s : State) (d meter core : Nat) (va : Word) (bs : List Byte) : Acc State :=
  let off := va.toNat % 128
  match homePlace s d meter true .store va false with
  | .error e => .error e
  | .ok (p, s) =>
    let (h, t) := homeServeAs false s core d meter va p
    let t := if (tabFind s.l2 h.pl).isNone && (tabFind t.l2 h.pl).isSome then chargeDram t d meter (128 * h.pl) 2 else t
    .ok (homeStore t d meter h.keyid h.pl (lineOf off bs.length (leNat bs)) (byteMask off bs.length) fun _ => none)

/-- Bytes of a spill ring read back by the device, which is charged to no one (23 R336). -/
def spillRead (s : State) (d meter core : Nat) (va : Word) (n : Nat) : Acc (List Byte × State) :=
  match homePlace s d meter true .load va false with
  | .error e => .error e
  | .ok (p, t) =>
    let (h, t) := homeServeAs false (uncharged s t) core d meter va p
    .ok (leBytes n (lineNat h.data (va.toNat % 128) n), t)

/-- A save record's bytes written in chunks of 64 (21 R319). -/
def recordWriteAll (s : State) (d meter core : Nat) (va : Word) : Nat → List Byte → Acc State
  | 0, _ => .ok s
  | n + 1, bs =>
    match recordWrite s d meter core va (bs.take 64) with
    | .error e => .error e
    | .ok s => recordWriteAll s d meter core (va + 64) n (bs.drop 64)

/-- A save record's bytes read in chunks of 64. -/
def recordReadAll (s : State) (d meter core : Nat) (va : Word) : Nat → Acc (List Byte × State)
  | 0 => .ok ([], s)
  | n + 1 =>
    match recordRead s d meter core va 64 with
    | .error e => .error e
    | .ok (bs, s) =>
      match recordReadAll s d meter core (va + 64) n with
      | .error e => .error e
      | .ok (r, s) => .ok (bs ++ r, s)

/-- A tag of an actor. -/
def Actor.tagEnt (a : Actor) (t : Nat) : Option TagEnt := a.tags[t]?

/-- The actor with a tag changed. -/
def Actor.setTag (a : Actor) (t : Nat) (e : TagEnt) : Actor := { a with tags := a.tags.set t e }

/-- The actor of an index on a core. -/
def findActor (s : State) (c i : Nat) : Option Actor := tabFind (s.getCore c).actors i

/-- The present tag of an actor on a core. -/
def findTag (s : State) (c i t : Nat) : Option TagEnt :=
  match (findActor s c i).bind fun a => a.tagEnt t with
  | some e => if e.present then some e else none
  | none => none

/-- The state with a tag of an actor on a core changed. -/
def putTag (s : State) (c i t : Nat) (e : TagEnt) : State :=
  match findActor s c i with
  | some a => s.modCore c fun x => { x with actors := tabPut x.actors i (a.setTag t e) }
  | none => s

/-- Whether a spill ring is full (03 R47). -/
def TagEnt.full (e : TagEnt) : Bool := decide (2 ^ e.slog ≤ e.tail - e.head)

/-- Whether the arrival store has no room for a message of a tag (03 R44). -/
def storeFull (x : Core) (t : Nat) : Bool :=
  if t = 15 then decide (256 ≤ x.store.length)
  else decide (248 ≤ (x.store.filter fun m => decide (m.msg.tag ≠ 15)).length) || decide (256 ≤ x.store.length)

/-- Whether messages are for one tag of one actor of one domain. -/
def sameTag (a b : Msg) : Bool :=
  decide (a.dom = b.dom) && decide (a.core = b.core) && decide (a.actor = b.actor) && decide (a.tag = b.tag)

/-- The SPILL_FULL notice (03 R48): `why` 1 the ring has become full, 2 the host-assisted notice. -/
def spillNotice (s : State) (m : Msg) (why slog : Nat) : State :=
  notice s (kernelOf m.dom) 4090 [2, BitVec.ofNat 64 m.core, BitVec.ofNat 64 m.actor, BitVec.ofNat 64 m.tag,
    BitVec.ofNat 64 m.dom, BitVec.ofNat 64 why, BitVec.ofNat 64 (2 ^ slog)]

/-- A message's slot in the spill ring written (03 R47), charged to the receiver (23 R334); the tag state after it (log 25). -/
def spillWrite (s : State) (m : Msg) (e : TagEnt) (arrived : Nat) : Acc (TagEnt × State) :=
  let va := e.sbase + BitVec.ofNat 64 (64 * (e.tail % 2 ^ e.slog))
  match devWrite s m.dom (clusterOf m.core) m.core va (msgBytes m.hdr m.words) with
  | .error x => .error x
  | .ok s =>
    let s := charge s m.dom (clusterOf m.core) [(1, 10)]
    let e' := { e with tail := e.tail + 1, ring := e.ring ++ [{ msg := m, arrived := arrived, slot := none }] }
    let s := if (s.getDom m.dom).modes.getLsbD 1 && decide (e.head = e.tail) then spillNotice s m 2 e.slog else s
    .ok (e', if e'.full then spillNotice s m 1 e.slog else s)

/-- The activations of a core stalled in MPOP, in the order they stalled (17 R248), halted ones apart (27 R370). -/
def mpopWaiters (s : State) (c : Nat) : List (Nat × Act) :=
  sortBy (fun x => x.2.stallNo) ((s.coreActs c).filter fun x => match x.2.wait with
    | some (.mpop _) => decide (x.2.halt = .none)
    | _ => false)

/-- The first message in the store of the tag that a stalled MPOP waits for, reserved to no activation, goes to it: it is
ready again, the message reserved to it (17 R248) (log 45). -/
def serveMpop (s : State) (c k : Nat) (a : Act) : State :=
  match a.wait with
  | some (.mpop t) =>
    let x := s.getCore c
    let mine (m : Stored) : Bool := decide (m.slot = none) && decide (m.msg.dom = a.dom) && decide (some m.msg.actor = a.actor)
      && decide (m.msg.tag = t)
    if x.store.any mine then
      let put (l : List Stored) : List Stored := match takeFirst mine l with
        | some (m, _) => replaceOrAdd mine { m with slot := some k } l
        | none => l
      (s.modCore c fun x => { x with store := put x.store }).putAct c k { a with wait := none, ready := s.time }
    else s
  | _ => s

/-- Messages in the store go to the MPOPs stalled on their tags, the first stalled first, before any firing (17 R248); on a
die whose arithmetic clocks are stopped they stay where they are (31 R405). -/
def serveMpops (s : State) (c : Nat) : State :=
  if (s.getDie (dieOf c)).stopped then s else (mpopWaiters s c).foldl (fun s x => serveMpop s c x.1 x.2) s

/-- Where a message goes: the state with it placed; or it keeps waiting, for room, or for a line of its ring that an outside
host holds (05 R110). -/
abbrev Placing := Except (Option Nat) State

/-- Where a message for a loaded, present tag goes (03 R44 R47). -/
def placeTag (s : State) (m : Msg) (e : TagEnt) : Placing :=
  let x := s.getCore m.core
  let st : Stored := { msg := { m with reached := true }, arrived := s.serial, slot := none }
  let s := { s with serial := s.serial + 1 }
  let toOvf : Placing :=
    if x.ovf.length < 8 then .ok (s.modCore m.core fun x => { x with ovf := x.ovf ++ [st] }) else .error none
  if x.ovf.any fun o => sameTag o.msg m then toOvf
  else if decide (e.head ≠ e.tail) || storeFull x m.tag then
    if e.full then toOvf
    else if e.broken then .ok (sendHomeless s m)
    else match spillWrite s m e st.arrived with
      | .ok (e', s) => .ok (putTag s m.core m.actor m.tag e')
      | .error (.wait pl) => .error (some pl)
      | .error (.fault _ _ t) => .ok (sendHomeless (putTag (keepTraffic s t) m.core m.actor m.tag { e with broken := true }) m)
  else .ok (serveMpops (s.modCore m.core fun x => { x with store := x.store ++ [st] }) m.core)

/-- Where a message for an actor that is not loaded goes (21 R325), by the actor's entry, the one entered last where an older
image of the actor has one too (log 105). The TAIL that advances is that of the device's own residency entry, which a restore
takes up (21 R323); the image's bytes and its seal stay as they are (log 123). -/
def placeAbsent (s : State) (m : Msg) : Placing :=
  let x := s.getCore m.core
  let n := s.serial
  let s := { s with serial := n + 1 }
  match x.resident.reverse.find? fun r => decide (r.dom = m.dom) && decide (r.index = m.actor) with
  | none => .ok (sendHomeless s m)
  | some r =>
    let put (s : State) (r' : Resident) : State := s.modCore m.core fun x => { x with
      resident := mapIf (fun q => q.same r') (fun _ => r') x.resident }
    let gone := { r with gone := m.tag :: r.gone }
    match r.actor.tagEnt m.tag with
    | none => .ok (sendHomeless (put s gone) m)
    | some e =>
      if !e.present || e.full || e.broken || r.gone.contains m.tag then .ok (sendHomeless (put s gone) m)
      else match spillWrite s m e n with
        | .ok (e', s) => .ok (put s { r with actor := r.actor.setTag m.tag e' })
        | .error (.wait pl) => .error (some pl)
        | .error (.fault _ _ t) =>
          .ok (sendHomeless (put (keepTraffic s t) { gone with actor := r.actor.setTag m.tag { e with broken := true } }) m)

/-- The priority class a message waits under at its core (03 R44 R45): its tag's. The spec gives none to a message whose tag
is absent, whose actor is not loaded or whose domain's context does not hold the core; it waits under class 0 (log 87). -/
def msgClass (s : State) (m : Msg) : Nat :=
  if (s.getCore m.core).dom = some m.dom then ((findTag s m.core m.actor m.tag).map fun e => e.prio).getD 0 else 0

/-- A message at its destination core is placed (03 R43 R44 R47), or keeps waiting. -/
def place (s : State) (m : Msg) : Placing :=
  if (s.getCore m.core).dom = some m.dom && (findActor s m.core m.actor).isSome then
    match findTag s m.core m.actor m.tag with
    | some e => placeTag s m e
    | none => .ok (sendHomeless s m)
  else placeAbsent s m

/-- Whether a message must wait behind earlier ones in the network (03 R44 item 1, R45): those that wait at this core, of the
same class or the same tag (log 93). -/
def mustWait (s : State) (earlier : List Msg) (m : Msg) : Bool :=
  earlier.any fun o => o.reached && decide (o.core = m.core) && (decide (msgClass s o = msgClass s m) || sameTag o m)

/-- A notice (03 R42), by the number its source has here. -/
def isNotice (m : Msg) : Bool :=
  decide (256 * 4090 ≤ m.src) && decide (m.src < 256 * 4090 + 16 + 1312) && decide (m.src ≠ 256 * 4090 + 3)
    && decide (m.src ≠ 256 * 4090 + 5)

/-- Whether an earlier message of the same entry to the same tag has not come to the core (03 R55), which orders no notices
(26 R365). -/
def overtakes (earlier : List Msg) (m : Msg) : Bool :=
  !isNotice m && earlier.any fun o => !o.reached && decide (o.src = m.src) && sameTag o m

/-- A message begins to wait at its core (03 R45): the messages that wait stand first among those in flight, in the order in
which they came, so that each holds back what comes after it (log 93). -/
def waitHere (s : State) (i : Nat) (m : Msg) : State :=
  if m.reached then s
  else
    let n := (s.flight.filter fun o => o.reached).length
    let rest := s.flight.eraseIdx i
    { s with flight := rest.take n ++ { m with reached := true } :: rest.drop n }

/-- A trap message is placed (21 R310): the kernel whose trap endpoint has received it may answer (19 R303), for an
activation or for a held job, as its designator names. -/
def trapPlaced (s : State) (m : Msg) : State :=
  let w := m.words.getD 4 0
  if 256 * 1312 ≤ m.src ∨ m.src % 256 < 254 then s
  else if w.getLsbD 63 then
    s.modCluster (clusterOf (bitsOf w 27 16)) fun g => { g with
      reeve := mapIf (fun j => decide (j.id = bitsOf w 15 0) && j.trapOut) (fun j => { j with trapOut := false, trapKernel := m.dom }) g.reeve }
  else
    let c := bitsOf w 17 6
    let k := bitsOf w 5 0
    let got (a : Act) : Act := if a.trapOut then { a with trapOut := false, trapKernel := m.dom } else a
    match s.findAct c k with
    | some a => if a.trapOut then s.putAct c k (got a) else inImage c k got
    | none => inImage c k got
where
  /-- The activation is in the image of an evicted context (21 R311 R328). -/
  inImage (c k : Nat) (got : Act → Act) : State := { s with images := s.images.map fun x =>
    (x.1, if x.2.core = c ∧ x.2.live then { x.2 with acts := x.2.acts.map fun y => (y.1, if y.1 = k then got y.2 else y.2) } else x.2) }

/-- MESSAGE_ARRIVAL (03 R43-R45): message `i` of those in flight reaches its core, or is tried again there. A notice that
finds no room waits at the agent that raised it and holds nothing back. -/
def arrive (s : State) (i : Nat) : State :=
  match s.flight[i]? with
  | none => s
  | some m =>
    let earlier := s.flight.take i
    if overtakes earlier m then s
    else
      let stay (s : State) : State := if isNotice m then s else waitHere s i m
      if mustWait s earlier m then stay s
      else match place { s with flight := s.flight.eraseIdx i } m with
        | .ok s' => trapPlaced s' m
        | .error (some pl) => stay (askBack s pl)
        | .error none => stay s

/-- A stored message of a tag that no activation has reserved. -/
def Stored.waits (d i t : Nat) (m : Stored) : Bool :=
  decide (m.slot = none) && decide (m.msg.dom = d) && decide (m.msg.actor = i) && decide (m.msg.tag = t)

/-- The messages of a tag in the store that no activation has reserved, in queue order. -/
def queueOf (x : Core) (d i t : Nat) : List Stored := x.store.filter (Stored.waits d i t)

/-- The messages of a tag in the overflow buffer. -/
def ovfOf (x : Core) (i t : Nat) : List Stored := x.ovf.filter fun m => decide (m.msg.actor = i) && decide (m.msg.tag = t)

/-- The messages of a tag of the context that holds a core that wait in the network at the core (03 R45) (log 24). -/
def netOf (s : State) (c i t : Nat) : List Msg :=
  s.flight.filter fun m => m.reached && decide (m.core = c) && decide (some m.dom = (s.getCore c).dom) && decide (m.actor = i)
    && decide (m.tag = t)

/-- The pending count of a tag (03 R49) (log 24). -/
def pendingOf (s : State) (c i t : Nat) : Nat :=
  let x := s.getCore c
  let ring := ((findTag s c i t).map fun e => e.tail - e.head).getD 0
  (queueOf x (x.dom.getD 0) i t).length + ring + (ovfOf x i t).length + (netOf s c i t).length

/-- The first stored message that satisfies a test taken out of the store. -/
def takeStored (x : Core) (f : Stored → Bool) : Option (Stored × Core) :=
  (takeFirst f x.store).map fun r => (r.1, { x with store := r.2 })

/-- The overflow buffer's oldest message of a tag came before all that its ring holds, which a restore can bring about (21
R325): it moves back first, in the original order (03 R46 R55). -/
def ovfFirst (x : Core) (i t : Nat) (e : TagEnt) : Bool :=
  match ovfOf x i t, e.ring with
  | o :: _, r :: _ => decide (o.arrived < r.arrived)
  | _, _ => false

/-- MESSAGE_MOVE_BACK (03 R46 R47): the oldest message of the next tag in round-robin order that has messages to move and
room in the store. A tag whose ring line an outside host holds has had its turn (log 25) (log 94). -/
def moveBack (s : State) (c : Nat) : State :=
  let x := s.getCore c
  let start := (x.moved.map fun n => n + 1).getD 0
  let can (n : Nat) : Bool :=
    match findTag s c (n / 16) (n % 16) with
    | some e => !storeFull x (n % 16) && (decide (e.head ≠ e.tail) || !(ovfOf x (n / 16) (n % 16)).isEmpty)
    | none => false
  match ((upto 256).map fun j => (start + j) % 256).find? can with
  | none => s
  | some n =>
    let i := n / 16
    let t := n % 16
    let s := s.modCore c fun x => { x with moved := some n }
    match findTag s c i t with
    | none => s
    | some e =>
      if e.head ≠ e.tail ∧ !ovfFirst x i t e then
        let old := e.ring.headD { msg := { dom := x.dom.getD 0, core := c, actor := i, tag := t, hdr := 0, words := [], via := 0, src := 0, reached := true }, arrived := s.serial, slot := none }
        let e' := { e with head := e.head + 1, ring := e.ring.drop 1 }
        match spillRead s (x.dom.getD 0) (clusterOf c) c (e.sbase + BitVec.ofNat 64 (64 * (e.head % 2 ^ e.slog))) 64 with
        | .error (.wait pl) => askBack s pl
        | .error (.fault _ _ _) => sendHomeless (putTag s c i t e') old.msg
        | .ok (bs, t') =>
          let ws := wordsOf 8 bs
          let m := { old.msg with hdr := ws.headD 0, words := ws.drop 1 }
          serveMpops ((putTag t' c i t e').modCore c fun x => { x with store := x.store ++ [{ old with msg := m }] }) c
      else
        match takeFirst (fun (m : Stored) => decide (m.msg.actor = i) && decide (m.msg.tag = t)) x.ovf with
        | none => s
        | some (m, r) => serveMpops (s.modCore c fun x => { x with ovf := r, store := x.store ++ [m] }) c

end Sys2Proof.Machine
end

