-- ==== Sys2Proof/Machine/Sched.lean ====
section
/-!
DEFINITION. The life of an activation (03 R49-R73, 21 R305-R319, 23 R340-R346, 27 R370-R375): starts, ends, pre-emption
requests, dumps, save records, halts, the last resort, and the quota store.
-/
namespace Sys2Proof.Machine

/-- The grant under which a domain is debugged, once effective (27 R369). -/
def grantOf (s : State) (d : Nat) : Option Grant :=
  match tabFind s.grants d with
  | some g => if g.granted && g.consent then some g else none
  | none => none

/-- Whether a domain's group on a cluster is held (27 R370). -/
def groupHeld (s : State) (d g : Nat) : Bool :=
  match grantOf s d with
  | some x => x.holds.contains g
  | none => false

/-- The designator of an activation (19 R303). -/
def designator (c k : Nat) : Word := at_ k 0 ||| at_ c 6

/-- s5 of an activation's latest start (03 R50 R71). -/
def Act.lastS5 (a : Act) : Word := if a.restored then at_ 2 16 else a.s5

/-- A trace record's word 1 for an activation (27 R375): ACTOR, TAG and KIND of s5, LOC. -/
def traceWho (a : Act) (c k : Nat) : Word :=
  at_ (a.actor.getD 0xFF) 24 ||| at_ (bitsOf a.lastS5 3 0) 20 ||| at_ (bitsOf a.lastS5 17 16) 18 ||| at_ (bitsOf (identity c k) 16 0) 0

/-- A frame's lines are none of them poisoned-lost (05 R110). -/
def noneLost (s : State) (f : Nat) : Bool := s.lost.all fun x => decide (x.1 / 32 ≠ f)

/-- The physical bytes a buffer of a kernel may lie in: frames OWNED by it with PEER = OWNER (25 R354, 27 R369), no line of
them poisoned-lost (05 R110). -/
def bufferOk (s : State) (d pa n : Nat) : Bool :=
  decide (pa % 4096 = 0) && (upto ((n + 4095) / 4096)).all fun i =>
    let f := getFrame s (pa / 4096 + i)
    isDram (pa + 4096 * i) && decide (f.state = .owned) && decide (f.owner = d) && decide (f.peer = d)
      && noneLost s (pa / 4096 + i)

/-- Bytes within one physical line stored at its home slice under its frame's key, that of its KEYID (25 R350), also where that
is not the requester whose key R354 names (log 118), charged where they go to memory (23 R334). -/
def physStore (s : State) (d meter pa : Nat) (bs : List Byte) : State :=
  let off := pa % 128
  homeStore s d meter (keyOf s d pa) (pa / 128) (lineOf off bs.length (leNat bs)) (byteMask off bs.length) fun _ => none

/-- The security core writes bytes within one physical line (25 R354); a line that an outside host holds is asked back first
(05 R110), and the write waits for it (log 54). -/
def physWrite (s : State) (d meter pa : Nat) (bs : List Byte) : State :=
  if (tabFind s.ext (pa / 128)).isSome then
    { askBack s (pa / 128) with heldWrites := s.heldWrites ++ [{ dom := d, meter := meter, pa := pa, bytes := bs }] }
  else physStore s d meter pa bs

/-- The writes that waited for a physical line are made, in their order. -/
def landHeld (s : State) (pl : Nat) : State :=
  s.heldWrites.foldl (fun s w => if w.pa / 128 = pl then physStore s w.dom w.meter w.pa w.bytes else s)
    { s with heldWrites := s.heldWrites.filter fun w => decide (w.pa / 128 ≠ pl) }

/-- The security core writes bytes of a buffer from a 64-byte aligned address, 64 at a time; its charges are those of the
meter of the core on whose behalf it acts (23 R334). -/
def physWriteAll (s : State) (d meter pa : Nat) : Nat → List Byte → State
  | 0, _ => s
  | n + 1, bs => physWriteAll (physWrite s d meter pa (bs.take 64)) d meter (pa + 64) n (bs.drop 64)

/-- A write of a trace record's bytes is refused (27 R375, 05 R100): its frame, or a line that is lost. -/
def traceBad (s : State) (d pa : Nat) : Bool :=
  !isDram pa || (frameDenies (getFrame s (pa / 4096)) d s.time).isSome || (tabFind s.lost (pa / 128)).isSome

/-- A trace record (27 R375), written while TRACE is set on the activation's domain; `fin` for an end. The DBGREPLY of a write
that fails has the traced activation's core as TCORE, and 0 as s13 (log 122). -/
def traceRecord (s : State) (a : Act) (c k : Nat) (fin : Bool) (addr : Word) : State :=
  match grantOf s a.dom with
  | none => s
  | some g =>
    match g.trace with
    | none => s
    | some base =>
      let pa := base + 64 * (g.traceSeq % 1024)
      if traceBad s g.grantee pa then
        notice { s with grants := tabPut s.grants a.dom { g with trace := none } } g.grantee 4090
          [11, 8, 5, BitVec.ofNat 64 a.dom, BitVec.ofNat 64 c, 0, 0]
      else
        let ws := [at_ g.traceSeq 32 ||| at_ (flag fin) 0, traceWho a c k, if a.restored then 0 else a.route, addr, BitVec.ofNat 64 s.time,
                   if fin then BitVec.ofNat 64 a.eu else 0, 0, 0]
        let s := { s with grants := tabPut s.grants a.dom { g with traceSeq := (g.traceSeq + 1) % 2 ^ 32 } }
        physWrite s g.grantee (clusterOf c) pa (wordBytes ws)

/-- An activation as it starts or becomes ready: its class its own, its start its last issue (03 R64). -/
def Act.readied (a : Act) (s : State) : Act := { a with aged := a.prio, lastIssue := s.issues + 1, ready := s.time, ended := false }

/-- The effective class of an activation that is ready (03 R64): its class less one for each full 4,096 cycles since it
became ready or issued, which are 1,242 ns at the nominal clock (log 11). -/
def agedClass (s : State) (a : Act) : Nat := a.prio - (s.time - a.ready) / 1242

/-- The activation stands at an instruction boundary (03 R73): not in a word whose effect has begun and waits for a
status. -/
def atBoundary (a : Act) : Bool :=
  match a.wait with
  | some .kernelOp | some .frameOp => false
  | _ => true

/-- A new activation takes its slot (03 R32 R50): charged as a start (23 R334), traced, numbered, under the modes its
domain has now (01 R30) (log 75). -/
def startAct (s : State) (c k : Nat) (a : Act) : State :=
  let (eu, s) := chargeWith s ((s.getDom a.dom).modes.getLsbD 5) a.dom (clusterOf c) 1 1 [(1, 7)]
  let a := { a.readied s with serial := s.serial, eu := eu, modes := (s.getDom a.dom).modes }
  let s := { s with serial := s.serial + 1, issues := s.issues + 1 }
  traceRecord (s.putAct c k a) a c k false a.entry

/-- The start of a saved activation again (23 R334, 27 R375), under the modes its domain has now (01 R30), halted by no
debug hold (log 60) (log 75). -/
def restart (s : State) (c k : Nat) (a : Act) (entry : Word) : State :=
  let modes := (s.getDom a.dom).modes
  let (eu, s) := chargeWith s (modes.getLsbD 5) a.dom (clusterOf c) 1 1 [(1, 7)]
  let a := { a.readied s with eu := eu, due := none, status := .running, modes := modes, halt := .none }
  traceRecord ({ s with issues := s.issues + 1 }.putAct c k a) a c k false entry

/-- Registers set by a list of (number, value). -/
def Regs.withS (r : Regs) (l : List (Nat × Word)) : Regs :=
  { r with s := l.foldl (fun (v : Vector Word 64) x => v.setIfInBounds x.1 x.2) r.s }

/-- Reserved messages of a slot, in order (03 R52). -/
def reservedOf (x : Core) (k : Nat) : List Stored := x.store.filter fun m => decide (m.slot = some k)

/-- The reserved messages of a slot return to the head of their tag's queue in their order (03 R52). -/
def returnReserved (s : State) (c k : Nat) : State :=
  serveMpops (s.modCore c fun x =>
    let mine := reservedOf x k
    let rest := x.store.filter fun m => decide (m.slot ≠ some k)
    { x with store := mine.map (fun m => { m with slot := none }) ++ rest }) c

/-- An activation ends and frees its slot (03 R32 R66); its reserved messages return (R52); the end is traced. -/
def endAct (s : State) (c k : Nat) (a : Act) (addr : Word) : State :=
  (traceRecord (returnReserved s c k) a c k true addr).dropAct c k

/-- DUE of DESC (21 R319). -/
def dueBit : Word := at_ 1 9

/-- FORM, COMPLETE, PARKED, STALL and the rest of DESC of a save record (21 R319), DUE excepted. -/
def recordDesc (a : Act) (form : Nat) (complete parked : Bool) (spn resv : Nat) : Word :=
  let stall := match a.wait with
    | some (.mpop _) => 1
    | some (.job _ _) | some (.barrier _ _) => 2
    | some (.ring _ _ _) => 3
    | _ => 0
  at_ form 0 ||| at_ (flag complete) 2 ||| at_ (flag parked) 3 ||| at_ stall 4 ||| at_ spn 12 ||| at_ (min resv 7) 20
    ||| at_ (flag a.actor.isNone) 23 ||| at_ (a.actor.getD 0) 24 ||| at_ a.tag 28 ||| at_ a.prio 32 ||| at_ (flag a.kernel) 34

/-- The 2,048 bytes of a hardware dump (21 R319); `extra`: DUE, or the bits SNAP adds to DESC, `waitObj`: the words SNAP puts at
0x4B8 and 0x4C0 (27 R374). -/
def recordBytes (a : Act) (parked : Bool) (extra : Word) (waitObj : Word × Word) (msgs : List Stored) : List Byte :=
  let r := a.regs
  let desc := recordDesc a 2 true parked 0 msgs.length ||| extra
  wordBytes (desc :: r.s.toList.drop 1)
    ++ (r.v.toList.foldr (fun v acc => leBytes 16 v.bits.toNat ++ acc) [])
    ++ leBytes 16 (r.v.toList.foldr (fun v acc => 16 * acc + v.tag.code.toNat) 0)
    ++ leBytes 4 0 ++ ((r.p.toList.drop 1).foldr (fun p acc => leBytes 4 p.toNat ++ acc) [])
    ++ wordBytes [r.lc0, r.ls0, r.le0, r.lc1, r.ls1, r.le1, r.fmode, r.fstat, r.epc, r.ecause, r.eval, r.ebt, r.eds,
                  a.pc, BitVec.ofNat 64 a.owed, a.btarget, 0, waitObj.1, waitObj.2]
    ++ List.replicate 56 0
    ++ ((msgs.take 7).foldr (fun m acc => msgBytes m.msg.hdr m.msg.words ++ acc) [])
    ++ List.replicate (64 * (7 - msgs.length) + 320) 0

/-- The 64-bit word at an offset of a record's bytes. -/
def recordWord (bs : List Byte) (off : Nat) : Word := BitVec.ofNat 64 (leNat ((bs.drop off).take 8))

/-- A vector register a record's bytes give: bits [127:126] under C6 are zero (09 R147). -/
def recordVec (t : Tag) (bits : Quad) : VReg := { bits := if t = .c6 then bits.setWidth 126 |>.setWidth 128 else bits, tag := t }

/-- The registers a record's bytes give (21 R312 R319). -/
def recordRegs (old : Regs) (bs : List Byte) : Regs :=
  let s := (upto 63).foldl (fun (v : Vector Word 64) i => v.setIfInBounds (i + 1) (recordWord bs (8 + 8 * i))) old.s
  let tags := leNat ((bs.drop 0x400).take 16)
  let v := (upto 32).foldl (fun (v : Vector VReg 32) i => v.setIfInBounds i
    (recordVec (Tag.ofCode (BitVec.ofNat 4 (tags / 16 ^ i))) (BitVec.ofNat 128 (leNat ((bs.drop (0x200 + 16 * i)).take 16))))) old.v
  let p := (upto 7).foldl (fun (v : Vector (BitVec 32) 8) i => v.setIfInBounds (i + 1)
    (BitVec.ofNat 32 (leNat ((bs.drop (0x414 + 4 * i)).take 4)))) old.p
  let w := recordWord bs
  { old with s := s, v := v, p := p, lc0 := w 0x430, ls0 := w 0x438, le0 := w 0x440, lc1 := w 0x448, ls1 := w 0x450,
             le1 := w 0x458, fmode := w 0x460, fstat := w 0x468, epc := w 0x470, ecause := w 0x478, eval := w 0x480,
             ebt := w 0x488, eds := w 0x490 }

/-- The address of a slot's save record (21 R318), if the core's runtime actor is loaded. -/
def recordAddr (s : State) (c k : Nat) : Option Word :=
  (findActor s c 15).map fun a => a.savebase + BitVec.ofNat 64 (2048 * k)

/-- A word of a save record changed under a mask. -/
def markRecord (s : State) (d c : Nat) (rec_ : Word) (off : Nat) (clear set : Word) : Acc State :=
  match recordRead s d (clusterOf c) c (rec_ + BitVec.ofNat 64 off) 8 with
  | .error e => .error e
  | .ok (bs, s) => recordWrite s d (clusterOf c) c (rec_ + BitVec.ofNat 64 off) (wordBytes [(recordWord bs 0 &&& ~~~clear) ||| set])

/-- A saved activation becomes due for resumption (21 R315 R316): DUE is set in its record (R319) where that can be written
now (log 36). -/
def setDue (s : State) (c k : Nat) : State :=
  match s.findAct c k, recordAddr s c k with
  | some a, some va =>
    let s := s.putAct c k { a with due := some s.time }
    match markRecord s a.dom c va 0 0 dueBit with
    | .ok s => s
    | .error (.wait pl) => askBack s pl
    | .error (.fault _ _ t) => keepTraffic s t
  | some a, none => s.putAct c k { a with due := some s.time }
  | none, _ => s

/-- The budget of a pre-emption request (21 R314): PBUDGET of the context, of domain 2's for a tenant. -/
def budgetOf (s : State) (d : Nat) : Nat := ((s.getDom (if isTenant d then 2 else d)).pbudget).toNat % 2 ^ 32

/-- A domain is halted (21 R313): every activation of it is requested with a budget of 0, in place of any budget that an
earlier request had (log 50). -/
def markHalted (s : State) (d : Nat) : State :=
  let s := s.modDom d fun x => { x with halted := true }
  s.allActs.foldl (fun s x =>
    if x.2.2.dom = d then
      s.modAct x.1 x.2.1 fun a => { a with preempt := some { why := .halt, at_ := s.time, budget := 0 }, due := none }
    else s) s

/-- DOMAIN_HALTED (21 R306): to domain 2 for a tenant halted alone, to the peer kernel otherwise, which is told where it is
halted itself, as the spec does not say (log 117). -/
def haltedNotice (s : State) (d dest cause : Nat) (desig : Word) : State :=
  notice s dest 4090 [9, BitVec.ofNat 64 d, BitVec.ofNat 64 cause, desig]

/-- The halt of a domain (21 R313): of domain 2 with every tenant domain. -/
def haltDomain (s : State) (d cause : Nat) (desig : Word) : State :=
  if (s.getDom d).halted then s
  else
    let s := markHalted s d
    if d = 2 then
      let ts := (s.doms.filter fun x => isTenant x.1 && x.2.exists_ && !x.2.halted).map fun x => x.1
      ts.foldl (fun s t => haltedNotice (markHalted s t) t 1 cause desig) (haltedNotice s 2 1 cause desig)
    else haltedNotice s d 2 cause desig

/-- The halt of the domain of an activation, for what it or its dump met (21 R313); what it did before happens before the firing
of the notices (07 R118) (log 110). -/
def haltAt (s : State) (c k d cause : Nat) : State :=
  if (s.getDom d).halted then s else haltDomain (release s c d .system) d cause (designator c k)

/-- When a saved activation is due for resumption (21 R315 R316): one saved for its domain's quota at once, if the domain
is no longer held. -/
def dueAtSave (s : State) (a : Act) : Option Nat :=
  match a.preempt with
  | some p => if p.why = .quota && !(s.getDom a.dom).held then some s.time else none
  | none => none

/-- What a trapping activation did before its trap happens before the firing of the trap message (07 R118): the dirty
bytes of its domain on its core go to their home slices, unless the message stays on that core. -/
def trapRelease (s : State) (c d : Nat) (e : Word) : State :=
  if epPkg e = 0 ∧ epCore e = c then s else release s c d .system

/-- An address as a PC register holds it: bits [56:0], bits [1:0] zero (11 R182). -/
def pcBits (w : Word) : Word := w &&& at_ (2 ^ 57 - 4) 0

/-- The registers a trap sets (11 R184 R187): EPC, ECAUSE, EVAL, EDS, and EBT where slots are owed (log 32). -/
def trapRegs (a : Act) (c : Cause) (v : Word) : Regs :=
  { a.regs with epc := pcBits a.pc, ecause := BitVec.ofNat 64 c.code, eval := v, eds := BitVec.ofNat 64 a.owed,
                ebt := if a.owed = 0 then a.regs.ebt else pcBits a.btarget }

/-- DBGHIT (27 R373); what the activation did before its halt happens before the firing of the message (07 R118). -/
def debugHit (s : State) (grantee c k : Nat) (a : Act) (cause : Nat) (ended stalled : Bool) : State :=
  notice (trapRelease s c a.dom (s.getDom grantee).notice) grantee 4090 [12, BitVec.ofNat 64 a.dom, designator c k,
    at_ cause 0 ||| at_ (bitsOf a.regs.eds 1 0) 8 ||| at_ (flag ended) 10 ||| at_ (flag stalled) 11,
    a.regs.epc, a.regs.eval, BitVec.ofNat 64 s.time]

/-- The DBGHIT of a step (27 R371 R373). -/
def stepReport (s : State) (c k : Nat) (a : Act) (cause : Nat) (ended stalled : Bool) : State :=
  match grantOf s a.dom with
  | some g => debugHit s g.grantee c k a cause ended stalled
  | none => s

/-- The DBGHIT of a step whose word has not issued when its hold ends or its activation is dumped (27 R373): one is sent for
each STEP, here as for a word that was not executed (log 68). -/
def unstepped (s : State) (c k : Nat) (a : Act) : State :=
  stepReport s c k { a with regs := trapRegs a .step 0 } Cause.step.code false true

/-- The same of an activation that is or is not stepped. -/
def stepLost (s : State) (c k : Nat) (a : Act) : State := if a.halt = .step then unstepped s c k a else s

/-- A save record has room for seven reserved messages (21 R319): any more go back to their tag's queue (log 44), where the
MPOPs stalled on it come before any firing (17 R248 R250). -/
def keepSeven (s : State) (c k : Nat) : State :=
  serveMpops (s.modCore c fun x => { x with
    store := mapPast (fun m => decide (m.slot = some k)) (fun m => { m with slot := none }) 7 x.store }) c

/-- A hardware dump (03 R72 R73, 21 R319): the record is written, the slot stays held for the saved activation, which ends
there (03 R32); the address its trace record shows is open (log 18). A dump that cannot be written halts the domain
(21 R313). A step that had not issued is reported (27 R373). HOLDC, which the record has no place for, and a debug hold's halt
with its EVAL stay with the activation (log 19) (log 36) (log 90). -/
def dumpAct (s : State) (c k : Nat) (a : Act) : State :=
  let parked := decide (a.status = .parked)
  match recordAddr s c k with
  | none => haltAt s c k a.dom 2
  | some va =>
    let due := dueAtSave s a
    match recordWriteAll s a.dom (clusterOf c) c va 32
        (recordBytes a parked (if due.isSome then dueBit else 0) (0, 0) (reservedOf (s.getCore c) k)) with
    | .error (.wait pl) => askBack s pl
    | .error (.fault _ _ t) => haltAt (keepTraffic s t) c k a.dom 2
    | .ok t =>
      let (n, t) := (stepLost t c k a).draw
      let t := traceRecord t a c k true (Config.openValue n)
      keepSeven (t.putAct c k { a with status := .saved true parked, preempt := none, wait := none,
                                       regs := { Regs.start with
                                         holdc := a.regs.holdc,
                                         eval := if a.halt = .hit .breakpoint then a.regs.eval else 0 },
                                       due := due, decided := false,
                                       halt := if a.halt = .step then .group else a.halt }) c k

/-- A pending request reaches an activation as it stands (21 R315): a running one, and a parked one unless the request is
for its quota. -/
def reaches (a : Act) (p : Preempt) : Bool :=
  decide (a.status = .running) || (decide (a.status = .parked) && decide (p.why ≠ .quota))

/-- The budget of a request pending for an activation of a core has ended at a TIME (03 R73), and nothing keeps the
activation from being dumped: it stands at an instruction boundary, outside a save routine (R70), and the clocks of its die
run (31 R405). -/
def budgetOver (s : State) (c : Nat) (a : Act) (now : Nat) : Bool :=
  match a.preempt with
  | none => false
  | some p => reaches a p && a.saving.isNone && decide (p.at_ + p.budget ≤ now) && atBoundary a && !(s.getDie (dieOf c)).stopped

/-- Every activation whose budget has ended at a TIME is dumped at the boundary it stands at (03 R73). -/
def dueBudgets (s : State) (now : Nat) : State :=
  s.allActs.foldl (fun s x => match s.findAct x.1 x.2.1 with
    | some a => if budgetOver s x.1 a now then dumpAct s x.1 x.2.1 a else s
    | none => s) s

/-- A pre-emption request joins the one pending for the same activation (21 R315): the budget stays the earlier one's; the
cause is the later's where that reaches parked and held activations too. -/
def Preempt.join (p : Preempt) (why : Request) : Preempt := if why = .quota then p else { p with why := why }

/-- An activation that a request dumps at once, as it stands (03 R67, 21 R315): at a stall point, parked or halted. -/
def atRest (a : Act) : Bool :=
  let stalled := match a.wait with
    | some (.mpop _) | some (.job _ _) | some (.barrier _ _) | some (.ring _ _ _) => true
    | _ => false
  a.saving.isNone && atBoundary a
    && (stalled || decide (a.status = .parked) || (decide (a.halt ≠ .none) && decide (a.halt ≠ .step)))

/-- A pre-emption request reaches an activation (03 R67, 21 R315): it joins an earlier one; an activation at rest is dumped
at once, or, on a die whose clocks are stopped, once they run again (31 R405), its budget at its end. -/
def requestAct (s : State) (c k : Nat) (why : Request) : State :=
  match s.findAct c k with
  | none => s
  | some a =>
    match a.status with
    | .saved _ _ => s
    | _ =>
      let budget := if why = .halt then 0 else budgetOf s a.dom
      let p := a.preempt.elim { why := why, at_ := s.time, budget := budget } fun p => p.join why
      let a := { a with preempt := some p }
      if !atRest a then s.putAct c k a
      else if (s.getDie (dieOf c)).stopped then s.putAct c k { a with preempt := some { p with budget := 0 } }
      else dumpAct (s.putAct c k a) c k a

/-- The requests of a domain whose quota is exhausted (21 R315, 23 R343): every running or stalled activation. -/
def requestQuota (s : State) (d : Nat) (only : Option Nat) : State :=
  s.allActs.foldl (fun s x =>
    let a := x.2.2
    if decide (a.dom = d) && decide (a.status = .running) && decide (a.halt = .none) && (only.isNone || only = some x.1) then
      requestAct s x.1 x.2.1 .quota
    else s) s

/-- A charge reaches the quota store (23 R340 R343 R344). -/
def applyCharge (s : State) (q : Charge) : State :=
  let d := s.getDom q.dom
  let bal := d.qbal.toInt - q.eu
  let d := { d with used := min (d.used + q.eu) (2 ^ 64 - 1) }
  if !isTenant q.dom then s.setDom q.dom d
  else
    let d := { d with qbal := if bal < -(2 ^ 63 : Int) then BitVec.ofInt 64 (-(2 ^ 63)) else BitVec.ofInt 64 bal }
    if bal < 0 ∧ !d.held then
      let s := s.setDom q.dom { d with held := true, heldAt := s.time }
      let s := notice s 2 4090 [1, BitVec.ofNat 64 q.dom, d.qbal, BitVec.ofNat 64 s.time, BitVec.ofNat 64 q.meter,
                                BitVec.ofNat 64 q.cls, 0]
      requestQuota s q.dom none
    else s.setDom q.dom d

/-- Every charge that a meter has made reaches the store, in the order it made them (23 R341). -/
def flushMeter (s : State) (meter : Nat) : State :=
  let mine := s.charges.filter fun q => decide (q.meter = meter)
  mine.foldl applyCharge { s with charges := s.charges.filter fun q => decide (q.meter ≠ meter) }

/-- An activation is an activation of the actor an entry names (21 R308), which is an actor of this package where DPKG is 0. -/
def actsOf (e : Word) (c : Nat) (a : Act) : Bool :=
  epValid e && decide (epPkg e = 0) && decide (epCore e = c) && decide (epDom e = a.dom) && decide (a.actor = some (epActor e))

/-- The trap entry of an activation of a core (21 R308): none is the last resort. -/
def trapEntry (s : State) (c : Nat) (a : Act) : Option Nat :=
  let t := endpoint s c 255
  let t2 := endpoint s c 254
  if actsOf t2 c a then none
  else if actsOf t c a then (if epValid t2 then some 254 else none)
  else if epValid t then some 255
  else if epValid t2 then some 254
  else none

/-- The payload of a trap message (21 R310) of a parked activation. -/
def trapWords (s : State) (c k : Nat) (a : Act) (second : Bool) : List Word :=
  [at_ a.dom 24 ||| at_ a.tag 20 ||| at_ (a.actor.getD 0) 16 ||| at_ a.prio 14 ||| at_ (flag a.kernel) 13
     ||| at_ (flag a.actor.isNone) 12 ||| at_ (flag second) 11 ||| at_ (bitsOf a.regs.eds 1 0) 8 ||| at_ (bitsOf a.regs.ecause 7 0) 0,
   a.regs.epc, a.regs.eval, a.regs.ebt, designator c k, a.s5, BitVec.ofNat 64 s.time]

/-- A message through an entry is placed on a core of this package (03 R44). -/
def epHere (e : Word) : Bool := decide (epPkg e = 0) && decide (epCore e < 1312)

/-- The trap message of a parked activation goes out (21 R308-R313). The kernel that its entry names may answer once the
message is placed (R310), or, where it leaves the package, once it is sent. -/
def sendTrap (s : State) (c k : Nat) (a : Act) : State :=
  if (s.getDom a.dom).halted then s
  else match trapEntry s c a with
  | some i =>
    let e := endpoint s c i
    let s := s.modAct c k fun x => { x with trapKernel := if epHere e then 0 else epDom e, trapOut := epHere e }
    let s := trapRelease s c a.dom e
    deviceSend s c i a.dom c a.dom (clusterOf c) (trapWords s c k a (decide (i = 254)))
  | none =>
    if isTenant a.dom then
      let s := s.modAct c k fun x => { x with trapKernel := kernelOf a.dom }
      let s := trapRelease s c a.dom (s.getDom (kernelOf a.dom)).notice
      notice s (kernelOf a.dom) 4090 (8 :: (trapWords s c k a false).drop 1)
    else haltAt s c k a.dom 1

/-- A debug hold halts a domain's group on a cluster (27 R370): every running activation of it halts at the boundary it
stands at. -/
def holdGroup (s : State) (d g : Nat) : State :=
  let s := match tabFind s.grants d with
    | some x => { s with grants := tabPut s.grants d { x with holds := if x.holds.contains g then x.holds else g :: x.holds } }
    | none => s
  s.allActs.foldl (fun s x =>
    let a := x.2.2
    if decide (a.dom = d) && decide (clusterOf x.1 = g) && decide (a.status = .running) && decide (a.halt = .none) then
      s.putAct x.1 x.2.1 { a with halt := .group }
    else s) s

end Sys2Proof.Machine
end

