-- ==== Sys2Proof/Machine/Ops.lean ====
section
/-!
DEFINITION. The operations every meaning shares: the tests of the word and the mode (11 R170), retiring a word and where
execution goes (R185-R190), taking a trap (21 R307-R313, 27 R370) and returning from one (11 R187), stalling (03 R65).
-/
namespace Sys2Proof.Machine

/-- Where execution goes after a word. -/
inductive Flow where
  /-- the next word, the owed slots, or the end-of-body check -/
  | seq
  /-- a given address (LOOP, R188) -/
  | goto (pc : Word)
  /-- a branch or jump: two slots, then the target (R185) -/
  | branch (target : Word)
  /-- the place a return names: pc, slots owed, branch target (R187) -/
  | resume (pc : Word) (owed : Nat) (btarget : Word)
  deriving DecidableEq, Repr

/-- What an instruction's own effect answers. -/
inductive Eff where
  /-- it completes: the state, where execution goes, the charge terms of R334 beyond those of its major -/
  | done (s : State) (f : Flow) (terms : List Term)
  /-- it waits and is tried again (R65 R273 R300) -/
  | stall (w : Wait) (s : State)
  /-- it traps: cause and EVAL; nothing it would write is written (R170) -/
  | trap (c : Cause) (v : Word)
  /-- an access of it traps: `s` the state with the memory traffic before the fault (23 R336), then cause and EVAL -/
  | fault (s : State) (c : Cause) (v : Word)
  /-- it completes and its activation has ended, is saved, or has gone elsewhere -/
  | over (s : State)
  deriving DecidableEq, Repr

/-- The end-of-body check for a completed word (11 R189): the loop registers after it, and the next PC if it repeats. -/
def loopCheck (r : Regs) (w : Word) : Regs × Option Word :=
  let inner := decide (r.lc0 ≠ 0) && decide (w = r.le0)
  let r := if inner then { r with lc0 := r.lc0 - 1 } else r
  if inner && decide (r.lc0 ≠ 0) then (r, some r.ls0)
  else
    let outer := decide (r.lc1 ≠ 0) && decide (w = r.le1)
    let r := if outer then { r with lc1 := r.lc1 - 1 } else r
    if outer && decide (r.lc1 ≠ 0) then (r, some r.ls1) else (r, none)

/-- The activation after a word completes (11 R185 R187 R189). In a delay slot the check counts, and execution follows the
owed slots (log 13). -/
def advance (a : Act) (f : Flow) : Act :=
  let w := a.pc
  let (r, back) := match f with
    | .resume _ _ _ => (a.regs, none)
    | _ => loopCheck a.regs w
  let a := { a with regs := r }
  if a.owed = 0 then
    match f with
    | .resume p k b => { a with pc := p, owed := k, btarget := if k = 0 then 0 else b }
    | .branch t => { a with pc := w + 4, owed := 2, btarget := t }
    | .goto p => { a with pc := back.getD p, btarget := 0 }
    | .seq => { a with pc := back.getD (w + 4), btarget := 0 }
  else if a.owed = 1 then { a with pc := a.btarget, owed := 0, btarget := 0 }
  else { a with pc := w + 4, owed := a.owed - 1 }

/-- A word retires (23 R334, 03 R64): its charge, then the activation advanced, its class its own again, its issue the core's
latest. -/
def retireWord (w : IWord) (s : State) (f : Flow) (terms : List Term) : State :=
  let s := chargeAct s (retireTerms w ++ terms)
  let a := advance s.act f
  { s with act := { a.readied s with wait := none, noBreak := false,
                                     saving := a.saving.map fun r => { r with retired := r.retired + 1 } },
           issues := s.issues + 1 }

/-- An instruction's word retires. -/
def retire (i : Instr) (s : State) (f : Flow) (terms : List Term) : State := retireWord i.word s f terms

/-- The registers SAVE_FAULT sets (03 R70, 21 R317): `inner` the inner cause or 0, `addr` the address it names. -/
def saveFaultRegs (r : Regs) (run : SaveRun) (inner : Nat) (addr : Word) : Regs :=
  { r with epc := pcBits run.addr, ecause := BitVec.ofNat 64 Cause.saveFault.code,
           eval := (addr <<< 8) ||| BitVec.ofNat 64 inner, eds := 0 }

/-- A parked activation that an eviction or a halt has requested is dumped, parked (21 R328); a quota request does not
reach it (R315). -/
def dumpParked (s : State) (c k : Nat) : State :=
  match s.findAct c k with
  | some a =>
    match a.preempt with
    | some p => if p.why = .quota then s else dumpAct s c k a
    | none => s
  | none => s

/-- The activation parks (21 R307) and its trap message goes out (R308); of a stepped word that is reported (27 R371). -/
def park (s : State) (a : Act) : State :=
  let b := { a with status := .parked, wait := none, saving := none, halt := .none, noBreak := false }
  let s := { s with act := b }
  let t := dumpParked (sendTrap s s.core s.slot b) s.core s.slot
  if a.halt = .step then stepReport t s.core s.slot b (bitsOf b.regs.ecause 7 0) false false else t

/-- TAKING A TRAP, the one operation every trap goes through (11 R170 R184 R187, 21 R307 R317, 27 R368 R370): in a save
routine SAVE_FAULT; a breakpoint or watchpoint of a debugged domain halts the group and goes to the grantee, that of a
stepped word apart (R371); every other trap parks the activation. -/
def takeTrap (s : State) (c : Cause) (v : Word) : State :=
  let a := s.act
  match a.saving with
  | some run => park s { a with regs := saveFaultRegs a.regs run c.code a.pc, pc := run.addr, owed := 0, btarget := 0 }
  | none =>
    let a := { a with regs := trapRegs a c v }
    match (if (c = .breakpoint || c = .watchpoint) && a.halt ≠ .step then grantOf s a.dom else none) with
    | some g =>
      let a := { a with halt := .hit c, wait := none, noBreak := decide (c = .breakpoint) && decide (v.toNat < 256) }
      debugHit (holdGroup { s with act := a } a.dom (clusterOf s.core)) g.grantee s.core s.slot a c.code false false
    | none => park s a

/-- RETURNING FROM A TRAP, the first form of R187: execution at EPC with EDS slots owed, then EBT. -/
def returnFlow (r : Regs) : Flow := .resume r.epc (bitsOf r.eds 1 0) r.ebt

/-- The second form of R187, which passes over the word at EPC; outside a slot the check of R189 runs for it. -/
def passOver (a : Act) : Act :=
  advance { a with pc := a.regs.epc, owed := 0, btarget := 0 } .seq

/-- A parked or halted activation continues after the word at EPC (11 R187 R189). -/
def continueAfter (a : Act) : Act :=
  let k := bitsOf a.regs.eds 1 0
  if k = 0 then passOver a
  else if k = 1 then { a with pc := a.regs.ebt, owed := 0, btarget := 0 }
  else { a with pc := a.regs.epc + 4, owed := k - 1, btarget := a.regs.ebt }

/-- A parked or halted activation re-executes the word at EPC (11 R187). -/
def reExecute (a : Act) : Act :=
  let k := bitsOf a.regs.eds 1 0
  { a with pc := a.regs.epc, owed := k, btarget := if k = 0 then 0 else a.regs.ebt }

/-- Whether a stall is one of the stall points of R65. -/
def Wait.stallPoint : Wait → Bool
  | .mpop _ | .job _ _ | .barrier _ _ | .ring _ _ _ => true
  | _ => false

/-- Whether a stall is one at a full engine queue (19 R273). -/
def Wait.atPort : Wait → Bool
  | .port _ => true
  | _ => false

/-- The activation waits, a stepped one reported (27 R371); at a stall point a pending pre-emption request is met (03 R65 R67), but not inside a save
routine (R70). -/
def stallAt (s : State) (w : Wait) : State :=
  let again := decide (s.act.wait = some w)
  let a := { (if again then s.act else s.act.readied s) with
    wait := some w, ended := false, stallNo := if again then s.act.stallNo else s.serial }
  let s := { s with act := a, serial := s.serial + 1, issues := s.issues + 1 }
  let s := if a.halt = .step && (w.stallPoint || w.atPort) then
      stepReport { s with act := { a with halt := .group } } s.core s.slot { a with regs := trapRegs a .step 0 } Cause.step.code false true
    else s
  if w.stallPoint && a.preempt.isSome && a.saving.isNone then dumpAct s s.core s.slot s.act else s

/-- A stepped word has completed (27 R371): the activation halts after it with ECAUSE STEP, reported; a pre-emption request
that came meanwhile is met. -/
def stepHalt (s : State) : State :=
  let a := { s.act with regs := trapRegs s.act .step 0, halt := .hit .step }
  let s := stepReport { s with act := a } s.core s.slot a Cause.step.code false false
  if a.preempt.isSome && a.saving.isNone then dumpAct s s.core s.slot a else s

/-- A word retires, and a stepped one halts its activation again. -/
def complete (w : IWord) (s : State) (f : Flow) (terms : List Term) : State :=
  if s.act.halt = .step then stepHalt (retireWord w s f terms) else retireWord w s f terms

/-- A word whose status comes from the device retires (19 R296 R300); a halted activation then meets the request that came
while it waited (03 R73). -/
def completeLate (w : IWord) (s : State) : State :=
  let t := complete w s .seq []
  if t.live && t.act.preempt.isSome && t.act.saving.isNone && decide (t.act.status = .running) && decide (t.act.halt ≠ .none) && decide (s.act.halt ≠ .step) then
    dumpAct t t.core t.slot t.act
  else t

/-- A stepped word that ended its activation, saved it, or moved it elsewhere (27 R371); where it parked it, and a request
then dumped it parked, the trap has been reported. -/
def stepOver (s s' : State) : State :=
  let a := s.act
  let ended := stepReport s' s.core s.slot { a with regs := trapRegs a .step 0 } Cause.step.code true false
  match s'.findAct s.core s.slot with
  | none => ended
  | some b => match b.status with
    | .running => stepHalt (s'.select s.core s.slot)
    | .parked => s'
    | .saved _ parked => if parked then s' else ended

/-- What an instruction's effect makes of the machine. -/
def finish (w : IWord) (s : State) : Eff → State
  | .done s' f ts => complete w s' f ts
  | .stall w s' => stallAt s' w
  | .trap c v => takeTrap s c v
  | .fault s' c v => takeTrap s' c v
  | .over s' => if s.act.halt = .step then stepOver s s' else s'

/-- Majors 0x30-0x38 (11 R185). -/
def isBranch (w : IWord) : Bool := decide (0x30 ≤ (fOp w).toNat) && decide ((fOp w).toNat ≤ 0x38)

/-- Words a delay slot must not hold (11 R186). -/
def notInSlot (w : IWord) : Bool :=
  let m := (fOp w).toNat
  isBranch w || decide (m = 0x39) || decide (m = 0x3A) || decide (m = 0x73) || decide (m = 0x75) || decide (m = 0x78)
    || decide (m = 0x79)

/-- The activation's pc is at the last body word of an armed loop (11 R186). -/
def atLoopEnd (a : Act) : Bool :=
  (decide (a.regs.lc0 ≠ 0) && decide (a.pc = a.regs.le0)) || (decide (a.regs.lc1 ≠ 0) && decide (a.pc = a.regs.le1))

/-- A Splice major on a system core (01 R25, 11 R169). -/
def splicelessWord (c : Nat) (w : IWord) : Bool :=
  isSystem c && decide (0x50 ≤ (fOp w).toNat) && decide ((fOp w).toNat ≤ 0x56)

/-- A word that only kernel mode may execute (11 R169 R180): majors 0x7C and 0x7D, and SYSR or SYSW of a register whose
access is marked K, which are those numbered 0x100 and above. -/
def kernelWord (w : IWord) : Bool :=
  let m := (fOp w).toNat
  decide (m = 0x7C) || decide (m = 0x7D) || ((decide (m = 0x0B) || decide (m = 0x0C)) && decide (0x100 ≤ (fImm13 w).toNat))

/-- The traps tested on the word and the mode alone, in the order of R170. -/
def decodeTrap (w : IWord) (s : State) : Option Cause :=
  if splicelessWord s.core w then some .illegal
  else if s.act.owed ≠ 0 ∧ (notInSlot w || atLoopEnd s.act) then some .delaySlot
  else if s.act.owed = 0 ∧ (isBranch w && atLoopEnd s.act) then some .delaySlot
  else if kernelWord w ∧ !s.act.kernel then some .privilege
  else none

/-- A word issues: the tests of R170, then the instruction's own effect. -/
def issueWord (w : IWord) (s : State) (f : State → Eff) : Host.Outcome State Fault Refusal :=
  match decodeTrap w s with
  | some c => .next (takeTrap s c (w.setWidth 64))
  | none => .next (finish w s (f s))

/-- An instruction's word issues. -/
def issue (i : Instr) (s : State) (f : State → Eff) : Host.Outcome State Fault Refusal := issueWord i.word s f

/-- An instruction that reads and writes registers only. -/
def plain (s : State) : Eff := .done s .seq []

end Sys2Proof.Machine
end

