-- ==== Sys2Proof/Machine/Operands.lean ====
section
/-!
DEFINITION. The operand forms: effective addresses and their checks (13 R208, 05 R100), watchpoints (27 R367 R368), the
bytes an access of an activation reads and writes (13 R210-R215), the scratchpad (13 R217), acquires and their stamps
(07 R128-R132).
-/
namespace Sys2Proof.Machine

/-- A 13-bit immediate sign-extended (11 R171). -/
def sext13 (i : BitVec 13) : Word := i.signExtend 64
/-- A 19-bit immediate sign-extended (11 R171). -/
def sext19 (i : BitVec 19) : Word := i.signExtend 64

/-- Bytes of a width operand (11 R168). -/
def widthBytes : Width → Nat
  | .b => 1 | .h => 2 | .w => 4 | .d => 8
/-- Bytes of an atomic's width (17 R258). -/
def awidthBytes : AWidth → Nat
  | .w => 4 | .d => 8

/-- The kinds of access a watchpoint tells apart (27 R368). -/
inductive WatchKind where
  | load | store | both
  deriving DecidableEq, Repr

/-- Whether a watchpoint register pair matches an access of `n` bytes (27 R367 R368). -/
def watchMatches (wpa wpm : Word) (k : WatchKind) (va n : Nat) : Bool :=
  let kind := bitsOf wpm 9 8
  let size := min (bitsOf wpm 5 0) 57
  let lo := bitsOf wpa 56 0 / 2 ^ size * 2 ^ size
  let on := match k with
    | .load => decide (kind = 1) || decide (kind = 3)
    | .store => decide (kind = 2) || decide (kind = 3)
    | .both => decide (kind ≠ 0)
  on && decide (va < lo + 2 ^ size) && decide (lo < va + n)

/-- Whether a watchpoint of the activation's domain on its cluster matches an access (27 R368). -/
def watchHit (s : State) (k : WatchKind) (va : Word) (n : Nat) : Bool :=
  match grantOf s s.act.dom with
  | none => false
  | some g => (upto 4).any fun i =>
      let j := 4 * clusterOf s.core + i
      watchMatches (tabGet 0 g.wpa j) (tabGet 0 g.wpm j) k va.toNat n

/-- The activation waits for a line that an outside host holds (05 R110): the back-invalidation goes out. -/
def lineWait (s : State) (pl : Nat) : Eff :=
  .stall (.line pl) (askBack s pl)

/-- What an access of several lines, whose checks have passed in `s`, answers: a fault met later leaves none of its bytes
(13 R208). -/
def undone {α : Type} (s : State) (r : Acc α) : Acc α :=
  match r with
  | .error (.fault c v t) => .error (.fault c v (keepTraffic s t))
  | r => r

/-- The answer of an access as an instruction's effect. -/
def orTrap {α : Type} (s : State) (r : Acc α) (f : α → Eff) : Eff :=
  match r with
  | .ok a => f a
  | .error (.fault c v t) => .fault t c v
  | .error (.wait pl) => lineWait s pl

/-- Steps 1 and 2 of R100: the address's high bits, then its alignment to `n` bytes. -/
def addrFault (va : Word) (n : Nat) : Option (Cause × Word) :=
  if bitsOf va 63 57 ≠ 0 then some (.pageAbsent, memEval va)
  else if va.toNat % n ≠ 0 then some (.misaligned, memEval va)
  else none

/-- A watched access whose checks answer `r` (13 R208): WATCHPOINT once they have passed, before the access is performed. -/
def watchStop {α : Type} (r : Acc State) (va : Word) : Acc α :=
  match r with
  | .error e => .error e
  | .ok t => .error (.fault .watchpoint va t)

/-- An aligned load of `n` bytes by the activation through its L1 (13 R208 R210): the value, the stamps it returned. -/
def loadBytes (s : State) (va : Word) (n : Nat) : Acc (Nat × Tab Stamp × State) :=
  match addrFault va n with
  | some (c, v) => .error (.fault c v s)
  | none =>
    if watchHit s .load va n then watchStop (lineCheck s s.core s.act.dom s.act.kernel .load va n) va
    else loadLine s s.core s.act.dom s.act.kernel va n

/-- An aligned store of `n` bytes by the activation into its L1 (13 R208 R211). -/
def storeBytes (s : State) (va : Word) (n x : Nat) (st : Option Stamp) : Acc State :=
  match addrFault va n with
  | some (c, v) => .error (.fault c v s)
  | none =>
    if watchHit s .store va n then watchStop (lineCheck s s.core s.act.dom s.act.kernel .store va n) va
    else storeLine s s.core s.act.dom s.act.kernel va n x st

/-- The agent that detects a scope miss, as a number (07 R129): the boundary router between two dies, or the acquirer's
cluster, where the line's home die is its own or the bytes came from its own L1 (`near`), so that no response crossed a
boundary. Where one crosses several the spec does not say whose router detects; there is one agent for each pair of home die
and acquirer's die (log 34). -/
def missAgent (near : Bool) (homeDie c : Nat) : Nat := if near || decide (homeDie = dieOf c) then clusterOf c else 1000 + 16 * homeDie + dieOf c

/-- SCOPE_MISS for one stamp of a line (07 R129 R131), sent by an agent about an acquirer's source-core value: at most one
for an agent, releasing core, line and scope in 4,096 mesh cycles, which are 2,483 ns (log 34). -/
def scopeMiss (s : State) (agent acq least : Nat) (st : Stamp) (pl d vl : Nat) : State :=
  let sc := st.scope.code.toNat
  if s.missSent.any fun x => decide (x.1 = agent) && decide (x.2.1 = st.core) && decide (x.2.2.1 = pl)
      && decide (x.2.2.2.1 = sc) && decide (s.time < x.2.2.2.2 + 2483) then s
  else noticeCore { s with missSent := (agent, st.core, pl, sc, s.time) :: s.missSent } st.core 4090
    [5, BitVec.ofNat 64 least, BitVec.ofNat 64 vl, BitVec.ofNat 64 d, BitVec.ofNat 64 acq, 0, 0]

/-- SMISS of FSTAT (07 R130). -/
def smissBit : Word := at_ 1 8

/-- The canonical line of a physical line (05 R97): the tag L2 holds it under, else the tag of the access that names it. -/
def canonOf (s : State) (pl d vl : Nat) : Nat × Nat :=
  match tabFind s.l2 pl with
  | some l => (l.dom, l.vl)
  | none => (d, vl)

/-- The stamps an acquire at a scope returned are checked (07 R129): a stamp whose scope does not cover the acquirer, or
an acquire whose scope does not cover the releasing core, sets SMISS; the former also sends SCOPE_MISS, the latter's being so too or not (log 97), and what the acquirer did before
happens before the firing of that notice (R118) (log 110). `vl` is the line
number of the acquiring access, `near` that it was served by the acquirer's own L1. -/
def checkStamps (s : State) (near : Bool) (sc : Scope) (pl vl : Nat) (stamps : Tab Stamp) : State :=
  let (d, vl) := canonOf s pl s.act.dom vl
  stamps.foldl (fun s x =>
    let st := x.2
    if !covers st.scope st.core s.core then
      let s := release (s.modRegs fun r => { r with fstat := r.fstat ||| smissBit }) s.core s.act.dom .system
      scopeMiss s (missAgent near (homeOf d vl / 16) s.core) s.core
        (scopeTo st.core s.core) st pl d vl
    else if !covers sc s.core st.core then s.modRegs fun r => { r with fstat := r.fstat ||| smissBit }
    else s) s

/-- A release FENCE at a scope widens the stamps of its core (07 R132). -/
def widenStamps (s : State) (c : Nat) (sc : Scope) : State :=
  let w (t : Tab Stamp) : Tab Stamp := t.map fun x =>
    (x.1, if decide (x.2.core = c) && decide (x.2.scope.code.toNat < sc.code.toNat) then { x.2 with scope := sc } else x.2)
  { s with stamps := s.stamps.map fun x => (x.1, w x.2) }

/-- The checks of R100 for an access that goes to the home slice (17 R246): the bits of the core's own L1 line where it
holds one, then those of the home slice, all before anything is released, written back or dropped; the line's place, and the
state with the translation's traffic. -/
def homeCheck (s : State) (need : Need) (va : Word) : Acc (HomePlace × State) :=
  let d := s.act.dom
  match (findL1 s s.core d (vlineOf va)).filter fun l => !l.perms.allow need s.act.kernel with
  | some _ => .error (.fault .pagePerm (memEval va) s)
  | none => homePlace s d (clusterOf s.core) s.act.kernel need va false

/-- An access of `n` bytes at the home slice by the activation (17 R246, 13 R212): alignment, the checks, a watchpoint if
`k` names a kind, a release `pre`, the write-back and drop of its own L1 copy, the operation. `f` answers the new value to
store, if any, its stamp, and a result; `wr` the bytes of it that the operation writes, by the access's offset in its line. -/
def homeStep {α : Type} (s : State) (need : Need) (k : Option WatchKind) (va : Word) (n : Nat) (wr : Nat → BitVec 128)
    (pre : State → State) (f : Nat → Option (Nat × Option Stamp) × α) : Acc (α × HomeLine × State) :=
  match addrFault va n with
  | some (c, v) => .error (.fault c v s)
  | none =>
    let d := s.act.dom
    let c := s.core
    let off := va.toNat % 128
    match homeCheck s need va with
    | .error e => .error e
    | .ok (p, t) =>
      if (k.map fun k => watchHit s k va n) = some true then .error (.fault .watchpoint va t)
      else
        let (a, h, u) := servedAt (flushAddr (pre t) c d va) c d (clusterOf c) va p fun h =>
          match f (lineNat h.data off n) with
          | (some (x, st), a) => (lineOf off n x, wr off, (fun _ => st), a)
          | (none, a) => (0, 0, (fun _ => none), a)
        let seen := h.stamps.filter fun x => decide (off ≤ x.1) && decide (x.1 < off + n)
        .ok (a, { h with stamps := seen }, addPending u c h.da)

/-- An access at the home slice that writes all of its `n` bytes, if any (17 R246). -/
def homeAccess {α : Type} (s : State) (need : Need) (k : Option WatchKind) (va : Word) (n : Nat) (pre : State → State)
    (f : Nat → Option (Nat × Option Stamp) × α) : Acc (α × HomeLine × State) :=
  homeStep s need k va n (fun off => byteMask off n) pre f

/-- Fields of a block, each an offset and a length, as the mask of the block's bytes in its line. -/
def fieldMask (fields : List (Nat × Nat)) (off : Nat) : BitVec 128 :=
  fields.foldl (fun m x => m ||| byteMask (off + x.1) x.2) 0

/-- An access at the home slice of a block of `n` bytes that writes the named fields of it alone, so that the other bytes keep
their stamps (17 R246, 07 R128). -/
def blockAccess {α : Type} (s : State) (k : Option WatchKind) (va : Word) (n : Nat) (fields : List (Nat × Nat))
    (pre : State → State) (f : Nat → Option (Nat × Option Stamp) × α) : Acc (α × HomeLine × State) :=
  homeStep s .both k va n (fieldMask fields) pre f

/-- The checks of an atomic access of `n` bytes by the activation (17 R246), with nothing performed. -/
def atomicCheck (s : State) (va : Word) (n : Nat) : Acc State :=
  match addrFault va n with
  | some (c, v) => .error (.fault c v s)
  | none =>
    match homeCheck s .both va with
    | .error e => .error e
    | .ok (_, t) => if watchHit s .both va n then .error (.fault .watchpoint va t) else .ok t

/-- The hops of an operation at the home slice of an address (23 R334 R335). -/
def homeHops (s : State) (pl d : Nat) (va : Word) : Nat := hops (corePlace s.core) (placeOf (homeSlice s pl d (vlineOf va)))

/-- A scratchpad access's traps (13 R217): alignment, then the size. -/
def spadFault (s : State) (o : Word) (n : Nat) : Option (Cause × Word) :=
  if o.toNat % n ≠ 0 then some (.misaligned, o)
  else if spadSize s.core < o.toNat + n then some (.window, o)
  else none

/-- Scratchpad bytes of the activation's core as a number (log 4). -/
def spadLoad (s : State) (o n : Nat) : Nat := leNat (memBytes s.here.spad o n)

/-- Scratchpad bytes written (log 4). -/
def spadStore (s : State) (o n x : Nat) : State :=
  s.modCore s.core fun c => { c with spad := memPutBytes c.spad o (leBytes n x) }

end Sys2Proof.Machine
end

