-- ==== Sys2Proof/Machine/Alu.lean ====
section
/-!
DEFINITION. Register arithmetic and logic (13 R204-R207).
-/
namespace Sys2Proof.Machine

/-- A destination written by a value computed from the state. -/
def regOp (i : Instr) (s : State) (d : SReg) (v : Word) : Host.Outcome State Fault Refusal :=
  issue i s fun s => plain (s.setS d v)

/-- 1 for true (13 R204). -/
def boolWord (b : Bool) : Word := if b then 1 else 0

/-- SLL with an amount read as unsigned (13 R204). -/
def shiftLeft (x : Word) (n : Nat) : Word := if 64 ≤ n then 0 else x <<< n
/-- SRL (13 R204). -/
def shiftRight (x : Word) (n : Nat) : Word := if 64 ≤ n then 0 else x >>> n
/-- SRA (13 R204). -/
def shiftArith (x : Word) (n : Nat) : Word := if 64 ≤ n then (if x.msb then BitVec.allOnes 64 else 0) else x.sshiftRight n

/-- The quotient of R204: all ones for a zero divisor, truncated toward zero. -/
def quotS (x y : Word) : Word := if y = 0 then BitVec.allOnes 64 else BitVec.ofInt 64 (x.toInt.tdiv y.toInt)
/-- The remainder of R204. -/
def remS (x y : Word) : Word := if y = 0 then x else BitVec.ofInt 64 (x.toInt - y.toInt * x.toInt.tdiv y.toInt)
/-- The unsigned quotient of R204. -/
def quotU (x y : Word) : Word := if y = 0 then BitVec.allOnes 64 else BitVec.ofNat 64 (x.toNat / y.toNat)
/-- The unsigned remainder of R204. -/
def remU (x y : Word) : Word := if y = 0 then x else BitVec.ofNat 64 (x.toNat % y.toNat)

/-- The number of leading zero bits among the low `n` (13 R204). -/
def leadingZeros (x : Word) : Nat → Nat
  | 0 => 0
  | n + 1 => if x.getLsbD n then 0 else 1 + leadingZeros x n

/-- The number of trailing zero bits from bit `i`, among `n` bits (13 R204). -/
def trailingZeros (x : Word) (i : Nat) : Nat → Nat
  | 0 => 0
  | n + 1 => if x.getLsbD i then 0 else 1 + trailingZeros x (i + 1) n

/-- The number of one bits among the low `n` (13 R204). -/
def popCount (x : Nat) : Nat → Nat
  | 0 => 0
  | n + 1 => (x >>> n) % 2 + popCount x n

/-- The bits in reverse order (13 R204). -/
def bitReverse (x : Word) : Word := (upto 64).foldl (fun acc i => if x.getLsbD i then acc ||| at_ 1 (63 - i) else acc) 0

/-- The bytes in reverse order (13 R204). -/
def byteSwap (x : Word) : Word := BitVec.ofNat 64 (leNat (leBytes 8 x.toNat).reverse)

/-- bits(product, 127, 64) of two integers (13 R204). -/
def mulHigh (x y : Int) : Word := ((BitVec.ofInt 128 (x * y)) >>> 64).setWidth 64

/-- ADD of two values (13 R204). -/
def valAdd (x y : Word) : Word := x + y
/-- ADD (13 R204). -/
def execAdd (d a b : SReg) (s : State) : Host.Outcome State Fault Refusal :=
  regOp (.add d a b) s d (valAdd (s.getS a) (s.getS b))

/-- SUB of two values (13 R204). -/
def valSub (x y : Word) : Word := x - y
/-- SUB (13 R204). -/
def execSub (d a b : SReg) (s : State) : Host.Outcome State Fault Refusal :=
  regOp (.sub d a b) s d (valSub (s.getS a) (s.getS b))

/-- AND of two values (13 R204). -/
def valAnd (x y : Word) : Word := x &&& y
/-- AND (13 R204). -/
def execAnd (d a b : SReg) (s : State) : Host.Outcome State Fault Refusal :=
  regOp (.and d a b) s d (valAnd (s.getS a) (s.getS b))

/-- OR of two values (13 R204). -/
def valOr (x y : Word) : Word := x ||| y
/-- OR (13 R204). -/
def execOr (d a b : SReg) (s : State) : Host.Outcome State Fault Refusal :=
  regOp (.or d a b) s d (valOr (s.getS a) (s.getS b))

/-- XOR of two values (13 R204). -/
def valXor (x y : Word) : Word := x ^^^ y
/-- XOR (13 R204). -/
def execXor (d a b : SReg) (s : State) : Host.Outcome State Fault Refusal :=
  regOp (.xor d a b) s d (valXor (s.getS a) (s.getS b))

/-- ANDN of two values (13 R204). -/
def valAndn (x y : Word) : Word := x &&& ~~~y
/-- ANDN (13 R204). -/
def execAndn (d a b : SReg) (s : State) : Host.Outcome State Fault Refusal :=
  regOp (.andn d a b) s d (valAndn (s.getS a) (s.getS b))

/-- SLL of two values (13 R204). -/
def valSll (x y : Word) : Word := shiftLeft x y.toNat
/-- SLL (13 R204). -/
def execSll (d a b : SReg) (s : State) : Host.Outcome State Fault Refusal :=
  regOp (.sll d a b) s d (valSll (s.getS a) (s.getS b))

/-- SRL of two values (13 R204). -/
def valSrl (x y : Word) : Word := shiftRight x y.toNat
/-- SRL (13 R204). -/
def execSrl (d a b : SReg) (s : State) : Host.Outcome State Fault Refusal :=
  regOp (.srl d a b) s d (valSrl (s.getS a) (s.getS b))

/-- SRA of two values (13 R204). -/
def valSra (x y : Word) : Word := shiftArith x y.toNat
/-- SRA (13 R204). -/
def execSra (d a b : SReg) (s : State) : Host.Outcome State Fault Refusal :=
  regOp (.sra d a b) s d (valSra (s.getS a) (s.getS b))

/-- ROL of two values (13 R204). -/
def valRol (x y : Word) : Word := x.rotateLeft (y.toNat % 64)
/-- ROL (13 R204). -/
def execRol (d a b : SReg) (s : State) : Host.Outcome State Fault Refusal :=
  regOp (.rol d a b) s d (valRol (s.getS a) (s.getS b))

/-- ROR of two values (13 R204). -/
def valRor (x y : Word) : Word := x.rotateRight (y.toNat % 64)
/-- ROR (13 R204). -/
def execRor (d a b : SReg) (s : State) : Host.Outcome State Fault Refusal :=
  regOp (.ror d a b) s d (valRor (s.getS a) (s.getS b))

/-- SLT of two values (13 R204). -/
def valSlt (x y : Word) : Word := boolWord (x.slt y)
/-- SLT (13 R204). -/
def execSlt (d a b : SReg) (s : State) : Host.Outcome State Fault Refusal :=
  regOp (.slt d a b) s d (valSlt (s.getS a) (s.getS b))

/-- SLTU of two values (13 R204). -/
def valSltu (x y : Word) : Word := boolWord (x.ult y)
/-- SLTU (13 R204). -/
def execSltu (d a b : SReg) (s : State) : Host.Outcome State Fault Refusal :=
  regOp (.sltu d a b) s d (valSltu (s.getS a) (s.getS b))

/-- MIN of two values (13 R204). -/
def valMin (x y : Word) : Word := if x.slt y then x else y
/-- MIN (13 R204). -/
def execMin (d a b : SReg) (s : State) : Host.Outcome State Fault Refusal :=
  regOp (.min d a b) s d (valMin (s.getS a) (s.getS b))

/-- MAX of two values (13 R204). -/
def valMax (x y : Word) : Word := if x.slt y then y else x
/-- MAX (13 R204). -/
def execMax (d a b : SReg) (s : State) : Host.Outcome State Fault Refusal :=
  regOp (.max d a b) s d (valMax (s.getS a) (s.getS b))

/-- MINU of two values (13 R204). -/
def valMinu (x y : Word) : Word := if x.ult y then x else y
/-- MINU (13 R204). -/
def execMinu (d a b : SReg) (s : State) : Host.Outcome State Fault Refusal :=
  regOp (.minu d a b) s d (valMinu (s.getS a) (s.getS b))

/-- MAXU of two values (13 R204). -/
def valMaxu (x y : Word) : Word := if x.ult y then y else x
/-- MAXU (13 R204). -/
def execMaxu (d a b : SReg) (s : State) : Host.Outcome State Fault Refusal :=
  regOp (.maxu d a b) s d (valMaxu (s.getS a) (s.getS b))

/-- SEQ of two values (13 R204). -/
def valSeq (x y : Word) : Word := boolWord (decide (x = y))
/-- SEQ (13 R204). -/
def execSeq (d a b : SReg) (s : State) : Host.Outcome State Fault Refusal :=
  regOp (.seq d a b) s d (valSeq (s.getS a) (s.getS b))

/-- MUL of two values (13 R204). -/
def valMul (x y : Word) : Word := x * y
/-- MUL (13 R204). -/
def execMul (d a b : SReg) (s : State) : Host.Outcome State Fault Refusal :=
  regOp (.mul d a b) s d (valMul (s.getS a) (s.getS b))

/-- MULH of two values (13 R204). -/
def valMulh (x y : Word) : Word := mulHigh x.toInt y.toInt
/-- MULH (13 R204). -/
def execMulh (d a b : SReg) (s : State) : Host.Outcome State Fault Refusal :=
  regOp (.mulh d a b) s d (valMulh (s.getS a) (s.getS b))

/-- MULHU of two values (13 R204). -/
def valMulhu (x y : Word) : Word := mulHigh x.toNat y.toNat
/-- MULHU (13 R204). -/
def execMulhu (d a b : SReg) (s : State) : Host.Outcome State Fault Refusal :=
  regOp (.mulhu d a b) s d (valMulhu (s.getS a) (s.getS b))

/-- MULHSN of two values (13 R204). -/
def valMulhsn (x y : Word) : Word := mulHigh x.toInt y.toNat
/-- MULHSN (13 R204). -/
def execMulhsn (d a b : SReg) (s : State) : Host.Outcome State Fault Refusal :=
  regOp (.mulhsn d a b) s d (valMulhsn (s.getS a) (s.getS b))

/-- DIV of two values (13 R204). -/
def valDiv (x y : Word) : Word := quotS x y
/-- DIV (13 R204). -/
def execDiv (d a b : SReg) (s : State) : Host.Outcome State Fault Refusal :=
  regOp (.div d a b) s d (valDiv (s.getS a) (s.getS b))

/-- DIVU of two values (13 R204). -/
def valDivu (x y : Word) : Word := quotU x y
/-- DIVU (13 R204). -/
def execDivu (d a b : SReg) (s : State) : Host.Outcome State Fault Refusal :=
  regOp (.divu d a b) s d (valDivu (s.getS a) (s.getS b))

/-- REM of two values (13 R204). -/
def valRem (x y : Word) : Word := remS x y
/-- REM (13 R204). -/
def execRem (d a b : SReg) (s : State) : Host.Outcome State Fault Refusal :=
  regOp (.rem d a b) s d (valRem (s.getS a) (s.getS b))

/-- REMU of two values (13 R204). -/
def valRemu (x y : Word) : Word := remU x y
/-- REMU (13 R204). -/
def execRemu (d a b : SReg) (s : State) : Host.Outcome State Fault Refusal :=
  regOp (.remu d a b) s d (valRemu (s.getS a) (s.getS b))

/-- LEA.1 of two values (13 R204). -/
def valLea1 (x y : Word) : Word := x + y
/-- LEA.1 (13 R204). -/
def execLea1 (d a b : SReg) (s : State) : Host.Outcome State Fault Refusal :=
  regOp (.lea1 d a b) s d (valLea1 (s.getS a) (s.getS b))

/-- LEA.2 of two values (13 R204). -/
def valLea2 (x y : Word) : Word := x + y * 2
/-- LEA.2 (13 R204). -/
def execLea2 (d a b : SReg) (s : State) : Host.Outcome State Fault Refusal :=
  regOp (.lea2 d a b) s d (valLea2 (s.getS a) (s.getS b))

/-- LEA.4 of two values (13 R204). -/
def valLea4 (x y : Word) : Word := x + y * 4
/-- LEA.4 (13 R204). -/
def execLea4 (d a b : SReg) (s : State) : Host.Outcome State Fault Refusal :=
  regOp (.lea4 d a b) s d (valLea4 (s.getS a) (s.getS b))

/-- LEA.8 of two values (13 R204). -/
def valLea8 (x y : Word) : Word := x + y * 8
/-- LEA.8 (13 R204). -/
def execLea8 (d a b : SReg) (s : State) : Host.Outcome State Fault Refusal :=
  regOp (.lea8 d a b) s d (valLea8 (s.getS a) (s.getS b))

/-- CLZ of a value (13 R204). -/
def valClz (x : Word) : Word := BitVec.ofNat 64 (leadingZeros x 64)
/-- CLZ (13 R204). -/
def execClz (d a : SReg) (s : State) : Host.Outcome State Fault Refusal :=
  regOp (.clz d a) s d (valClz (s.getS a))

/-- CTZ of a value (13 R204). -/
def valCtz (x : Word) : Word := BitVec.ofNat 64 (trailingZeros x 0 64)
/-- CTZ (13 R204). -/
def execCtz (d a : SReg) (s : State) : Host.Outcome State Fault Refusal :=
  regOp (.ctz d a) s d (valCtz (s.getS a))

/-- POPC of a value (13 R204). -/
def valPopc (x : Word) : Word := BitVec.ofNat 64 (popCount x.toNat 64)
/-- POPC (13 R204). -/
def execPopc (d a : SReg) (s : State) : Host.Outcome State Fault Refusal :=
  regOp (.popc d a) s d (valPopc (s.getS a))

/-- BREV of a value (13 R204). -/
def valBrev (x : Word) : Word := bitReverse x
/-- BREV (13 R204). -/
def execBrev (d a : SReg) (s : State) : Host.Outcome State Fault Refusal :=
  regOp (.brev d a) s d (valBrev (s.getS a))

/-- BSWAP of a value (13 R204). -/
def valBswap (x : Word) : Word := byteSwap x
/-- BSWAP (13 R204). -/
def execBswap (d a : SReg) (s : State) : Host.Outcome State Fault Refusal :=
  regOp (.bswap d a) s d (valBswap (s.getS a))

/-- SEXT.B of a value (13 R204). -/
def valSextB (x : Word) : Word := (x.setWidth 8).signExtend 64
/-- SEXT.B (13 R204). -/
def execSextB (d a : SReg) (s : State) : Host.Outcome State Fault Refusal :=
  regOp (.sextB d a) s d (valSextB (s.getS a))

/-- SEXT.H of a value (13 R204). -/
def valSextH (x : Word) : Word := (x.setWidth 16).signExtend 64
/-- SEXT.H (13 R204). -/
def execSextH (d a : SReg) (s : State) : Host.Outcome State Fault Refusal :=
  regOp (.sextH d a) s d (valSextH (s.getS a))

/-- SEXT.W of a value (13 R204). -/
def valSextW (x : Word) : Word := (x.setWidth 32).signExtend 64
/-- SEXT.W (13 R204). -/
def execSextW (d a : SReg) (s : State) : Host.Outcome State Fault Refusal :=
  regOp (.sextW d a) s d (valSextW (s.getS a))

/-- ZEXT.B of a value (13 R204). -/
def valZextB (x : Word) : Word := (x.setWidth 8).setWidth 64
/-- ZEXT.B (13 R204). -/
def execZextB (d a : SReg) (s : State) : Host.Outcome State Fault Refusal :=
  regOp (.zextB d a) s d (valZextB (s.getS a))

/-- ZEXT.H of a value (13 R204). -/
def valZextH (x : Word) : Word := (x.setWidth 16).setWidth 64
/-- ZEXT.H (13 R204). -/
def execZextH (d a : SReg) (s : State) : Host.Outcome State Fault Refusal :=
  regOp (.zextH d a) s d (valZextH (s.getS a))

/-- ZEXT.W of a value (13 R204). -/
def valZextW (x : Word) : Word := (x.setWidth 32).setWidth 64
/-- ZEXT.W (13 R204). -/
def execZextW (d a : SReg) (s : State) : Host.Outcome State Fault Refusal :=
  regOp (.zextW d a) s d (valZextW (s.getS a))

/-- ADDI of a value and the sign-extended immediate (13 R205). -/
def valAddi (x i : Word) : Word := x + i
/-- ADDI (13 R205). -/
def execAddi (d a : SReg) (imm : BitVec 13) (s : State) : Host.Outcome State Fault Refusal :=
  regOp (.addi d a imm) s d (valAddi (s.getS a) (sext13 imm))

/-- ANDI of a value and the sign-extended immediate (13 R205). -/
def valAndi (x i : Word) : Word := x &&& i
/-- ANDI (13 R205). -/
def execAndi (d a : SReg) (imm : BitVec 13) (s : State) : Host.Outcome State Fault Refusal :=
  regOp (.andi d a imm) s d (valAndi (s.getS a) (sext13 imm))

/-- ORI of a value and the sign-extended immediate (13 R205). -/
def valOri (x i : Word) : Word := x ||| i
/-- ORI (13 R205). -/
def execOri (d a : SReg) (imm : BitVec 13) (s : State) : Host.Outcome State Fault Refusal :=
  regOp (.ori d a imm) s d (valOri (s.getS a) (sext13 imm))

/-- XORI of a value and the sign-extended immediate (13 R205). -/
def valXori (x i : Word) : Word := x ^^^ i
/-- XORI (13 R205). -/
def execXori (d a : SReg) (imm : BitVec 13) (s : State) : Host.Outcome State Fault Refusal :=
  regOp (.xori d a imm) s d (valXori (s.getS a) (sext13 imm))

/-- SLTI of a value and the sign-extended immediate (13 R205). -/
def valSlti (x i : Word) : Word := boolWord (x.slt i)
/-- SLTI (13 R205). -/
def execSlti (d a : SReg) (imm : BitVec 13) (s : State) : Host.Outcome State Fault Refusal :=
  regOp (.slti d a imm) s d (valSlti (s.getS a) (sext13 imm))

/-- SLTIN of a value and the sign-extended immediate (13 R205). -/
def valSltin (x i : Word) : Word := boolWord (x.ult i)
/-- SLTIN (13 R205). -/
def execSltin (d a : SReg) (imm : BitVec 13) (s : State) : Host.Outcome State Fault Refusal :=
  regOp (.sltin d a imm) s d (valSltin (s.getS a) (sext13 imm))

/-- SLLI (13 R206). -/
def execSlli (d a : SReg) (n : BitVec 6) (s : State) : Host.Outcome State Fault Refusal :=
  regOp (.slli d a n) s d (shiftLeft (s.getS a) n.toNat)

/-- SRLI (13 R206). -/
def execSrli (d a : SReg) (n : BitVec 6) (s : State) : Host.Outcome State Fault Refusal :=
  regOp (.srli d a n) s d (shiftRight (s.getS a) n.toNat)

/-- SRAI (13 R206). -/
def execSrai (d a : SReg) (n : BitVec 6) (s : State) : Host.Outcome State Fault Refusal :=
  regOp (.srai d a n) s d (shiftArith (s.getS a) n.toNat)

/-- RORI (13 R206). -/
def execRori (d a : SReg) (n : BitVec 6) (s : State) : Host.Outcome State Fault Refusal :=
  regOp (.rori d a n) s d ((s.getS a).rotateRight n.toNat)

/-- LIU (13 R207). -/
def execLiu (d : SReg) (imm : BitVec 19) (s : State) : Host.Outcome State Fault Refusal :=
  regOp (.liu d imm) s d (sext19 imm <<< 13)

/-- ADDPC, from the address of its own word (13 R207). -/
def execAddpc (d : SReg) (imm : BitVec 19) (s : State) : Host.Outcome State Fault Refusal :=
  regOp (.addpc d imm) s d (s.act.pc + 4 * sext19 imm)

end Sys2Proof.Machine
end

