-- ==== Sys2Proof/Machine/Flags.lean ====
section
/-!
DEFINITION. Number formats and rounding (09 R136-R146 R159-R162): floating values as exact dyadic numbers, one rounding to
a format with the flags it raises, and the operations of the vector instructions on one lane. A flag set is a word in the
layout of FSTAT (R142).
-/
namespace Sys2Proof.Machine

/-- NV of FSTAT (09 R142). -/
def flagNV : Nat := 1
/-- DZ of FSTAT. -/
def flagDZ : Nat := 2
/-- OF of FSTAT. -/
def flagOF : Nat := 4
/-- UF of FSTAT. -/
def flagUF : Nat := 8
/-- NX of FSTAT. -/
def flagNX : Nat := 16
/-- SAT of FSTAT. -/
def flagSAT : Nat := 32

/-- Rounding modes (09 R141). -/
inductive RMode where
  | rne | rtz | rdn | rup
  deriving DecidableEq, Repr

/-- RM of FMODE (09 R141). -/
def rmodeOf (fmode : Word) : RMode :=
  match bitsOf fmode 1 0 with
  | 0 => .rne | 1 => .rtz | 2 => .rdn | _ => .rup

/-- A floating format by its exponent and fraction widths (09 R138). -/
structure Fmt where
  eb : Nat
  fb : Nat
  deriving DecidableEq, Repr

/-- F16 (09 R138). -/
def fmtF16 : Fmt := { eb := 5, fb := 10 }
/-- BF16. -/
def fmtBF16 : Fmt := { eb := 8, fb := 7 }
/-- F32. -/
def fmtF32 : Fmt := { eb := 8, fb := 23 }
/-- F64. -/
def fmtF64 : Fmt := { eb := 11, fb := 52 }
/-- N19. -/
def fmtN19 : Fmt := { eb := 8, fb := 10 }

/-- The bias of a format. -/
def Fmt.bias (f : Fmt) : Nat := 2 ^ (f.eb - 1) - 1
/-- The bits of infinity without its sign. -/
def Fmt.infBits (f : Fmt) : Nat := (2 ^ f.eb - 1) * 2 ^ f.fb
/-- The sign bit. -/
def Fmt.signBit (f : Fmt) : Nat := 2 ^ (f.eb + f.fb)
/-- The canonical NaN (09 R138). -/
def Fmt.nan (f : Fmt) : Nat := f.infBits + 2 ^ (f.fb - 1)
/-- The exponent of the smallest subnormal. -/
def Fmt.qmin (f : Fmt) : Int := 1 - (f.bias : Int) - f.fb
/-- A sign on magnitude bits. -/
def Fmt.signed (f : Fmt) (neg : Bool) (mag : Nat) : Nat := mag + if neg then f.signBit else 0

/-- A floating value: a NaN (signalling or quiet), an infinity, or (-1)^neg × m × 2^e. -/
inductive Fp where
  | nan (signalling : Bool)
  | inf (neg : Bool)
  | fin (neg : Bool) (m : Nat) (e : Int)
  deriving DecidableEq, Repr

/-- The value of bits in a format (09 R138). -/
def unpackF (f : Fmt) (x : Nat) : Fp :=
  let neg := decide (x / f.signBit % 2 = 1)
  let ex := x / 2 ^ f.fb % 2 ^ f.eb
  let fr := x % 2 ^ f.fb
  if ex = 2 ^ f.eb - 1 then (if fr = 0 then .inf neg else .nan (decide (fr < 2 ^ (f.fb - 1))))
  else if ex = 0 then .fin neg fr f.qmin
  else .fin neg (2 ^ f.fb + fr) (f.qmin + (ex - 1))

/-- The integer nearest to m / 2^k by a mode, for a magnitude with a sign; and whether it is exact. -/
def roundShift (md : RMode) (neg : Bool) (m k : Nat) : Nat × Bool :=
  let q := m >>> k
  let r := m % 2 ^ k
  let up := match md with
    | .rne => decide (2 ^ k < 2 * r) || (decide (2 ^ k = 2 * r) && decide (q % 2 = 1))
    | .rtz => false
    | .rdn => neg && decide (r ≠ 0)
    | .rup => !neg && decide (r ≠ 0)
  (q + if up && decide (r ≠ 0) then 1 else 0, decide (r = 0))

/-- m × 2^e as a magnitude rounded to a multiple of 2^q: the multiple and exactness. -/
def roundAt (md : RMode) (neg : Bool) (m : Nat) (e q : Int) : Nat × Bool :=
  if q ≤ e then (m * 2 ^ (e - q).toNat, true) else roundShift md neg m (q - e).toNat

/-- One rounding of (-1)^neg × m × 2^e to a format (09 R139), m > 0: magnitude beyond the largest finite value gives
infinity, or the largest finite value where `sat` (R144); tininess is detected after rounding. Bits and flags. -/
def roundMag (f : Fmt) (md : RMode) (sat : Bool) (neg : Bool) (m : Nat) (e : Int) : Nat × Nat :=
  let top : Int := e + m.log2
  let q : Int := max (top - f.fb) f.qmin
  let (n, exact) := roundAt md neg m e q
  let bits := n + (q - f.qmin).toNat * 2 ^ f.fb
  if f.infBits ≤ bits then (f.signed neg (if sat then f.infBits - 1 else f.infBits), flagOF + flagNX)
  else
    let emin : Int := f.qmin + f.fb
    let tiny := decide (top < emin)
      && !(decide ((roundAt md neg m e (top - f.fb)).1 = 2 ^ (f.fb + 1)) && decide (top + 1 = emin))
    (f.signed neg bits, if exact then 0 else if tiny then flagUF + flagNX else flagNX)

/-- One rounding of a signed dyadic number, a zero with the given sign. -/
def roundF (f : Fmt) (md : RMode) (sat : Bool) (neg : Bool) (m : Nat) (e : Int) : Nat × Nat :=
  if m = 0 then (f.signed neg 0, 0) else roundMag f md sat neg m e

/-- NV for a signalling NaN (09 R140). -/
def snanFlag : Fp → Nat
  | .nan true => flagNV
  | _ => 0

/-- The flags two sets raise. -/
def flagOr (a b : Nat) : Nat := a ||| b

/-- The signed mantissa of a finite value. -/
def signedMant (neg : Bool) (m : Nat) : Int := if neg then -(m : Int) else m

/-- The exact sum of two dyadic numbers. -/
def dyAdd (m1 : Int) (e1 : Int) (m2 : Int) (e2 : Int) : Int × Int :=
  let e := min e1 e2
  (m1 * 2 ^ (e1 - e).toNat + m2 * 2 ^ (e2 - e).toNat, e)

/-- The sign of an exact zero sum of two zeros or of opposite operands (09 R139) (log 30). -/
def zeroSign (md : RMode) (n1 n2 : Bool) : Bool := if n1 = n2 then n1 else decide (md = .rdn)

/-- The sum of two values rounded once (09 R139 R140) (log 30). -/
def fpAdd (f : Fmt) (md : RMode) (x y : Fp) : Nat × Nat :=
  match x, y with
  | .nan _, _ | _, .nan _ => (f.nan, snanFlag x ||| snanFlag y)
  | .inf a, .inf b => if a = b then (f.signed a f.infBits, 0) else (f.nan, flagNV)
  | .inf a, .fin _ _ _ => (f.signed a f.infBits, 0)
  | .fin _ _ _, .inf b => (f.signed b f.infBits, 0)
  | .fin a m e, .fin b n g =>
    let (t, q) := dyAdd (signedMant a m) e (signedMant b n) g
    if t = 0 then (f.signed (zeroSign md a b) 0, 0) else roundF f md false (decide (t < 0)) t.natAbs q

/-- The value negated. -/
def fpNeg : Fp → Fp
  | .nan s => .nan s
  | .inf n => .inf (!n)
  | .fin n m e => .fin (!n) m e

/-- The product of two values rounded once (09 R139 R140). -/
def fpMul (f : Fmt) (md : RMode) (x y : Fp) : Nat × Nat :=
  match x, y with
  | .nan _, _ | _, .nan _ => (f.nan, snanFlag x ||| snanFlag y)
  | .inf a, .inf b => (f.signed (a != b) f.infBits, 0)
  | .inf a, .fin b m _ | .fin b m _, .inf a => if m = 0 then (f.nan, flagNV) else (f.signed (a != b) f.infBits, 0)
  | .fin a m e, .fin b n g => roundF f md false (a != b) (m * n) (e + g)

/-- c + x × y rounded once (09 R161, 15 R234). -/
def fpFma (f : Fmt) (md : RMode) (c x y : Fp) : Nat × Nat :=
  let invalid := match x, y with
    | .inf _, .fin _ 0 _ | .fin _ 0 _, .inf _ => true
    | _, _ => false
  match x, y, c with
  | .nan _, _, _ | _, .nan _, _ => (f.nan, snanFlag x ||| snanFlag y ||| snanFlag c)
  | _, _, .nan _ => (f.nan, snanFlag c ||| if invalid then flagNV else 0)
  | .fin a m e, .fin b n g, .fin z p h =>
    let (t, q) := dyAdd (signedMant (a != b) (m * n)) (e + g) (signedMant z p) h
    if t = 0 then (f.signed (zeroSign md (a != b) z) 0, 0) else roundF f md false (decide (t < 0)) t.natAbs q
  | .fin _ _ _, .fin _ _ _, .inf z => (f.signed z f.infBits, 0)
  | x, y, c =>
    if invalid then (f.nan, flagNV)
    else
      let sg : Fp → Bool := fun v => match v with | .inf n => n | .fin n _ _ => n | .nan _ => false
      let ps := sg x != sg y
      match c with
      | .inf z => if z = ps then (f.signed z f.infBits, 0) else (f.nan, flagNV)
      | _ => (f.signed ps f.infBits, 0)

/-- The quotient of two values rounded once (09 R161). -/
def fpDiv (f : Fmt) (md : RMode) (x y : Fp) : Nat × Nat :=
  match x, y with
  | .nan _, _ | _, .nan _ => (f.nan, snanFlag x ||| snanFlag y)
  | .inf _, .inf _ => (f.nan, flagNV)
  | .inf a, .fin b _ _ => (f.signed (a != b) f.infBits, 0)
  | .fin a _ _, .inf b => (f.signed (a != b) 0, 0)
  | .fin a m e, .fin b n g =>
    if n = 0 then (if m = 0 then (f.nan, flagNV) else (f.signed (a != b) f.infBits, flagDZ))
    else
      let k := 2 * f.fb + 8 + n.log2
      let q := m * 2 ^ k / n
      let sticky := if m * 2 ^ k % n = 0 then 0 else 1
      roundF f md false (a != b) (2 * q + sticky) (e - g - k - 1)

/-- The integer square root, bit by bit from bit `k - 1`. -/
def isqrtFrom (n : Nat) : Nat → Nat → Nat
  | 0, r => r
  | k + 1, r => isqrtFrom n k (if (r + 2 ^ k) * (r + 2 ^ k) ≤ n then r + 2 ^ k else r)

/-- The integer square root. -/
def isqrt (n : Nat) : Nat := isqrtFrom n (n.log2 / 2 + 1) 0

/-- A finite value's mantissa and exponent with the exponent even. -/
def evenExp (m : Nat) (e : Int) : Nat × Int := if e % 2 = 0 then (m, e) else (2 * m, e - 1)

/-- The square root rounded once (09 R161). -/
def fpSqrt (f : Fmt) (md : RMode) (x : Fp) : Nat × Nat :=
  match x with
  | .nan s => (f.nan, if s then flagNV else 0)
  | .inf n => if n then (f.nan, flagNV) else (f.infBits, 0)
  | .fin n m e =>
    if m = 0 then (f.signed n 0, 0)
    else if n then (f.nan, flagNV)
    else
      let (m, e) := evenExp m e
      let k := f.fb + 4
      let v := m * 2 ^ (2 * k)
      let r := isqrt v
      roundF f md false false (2 * r + if r * r = v then 0 else 1) (e / 2 - k - 1)

/-- The reciprocal rounded once (09 R162). -/
def fpRcp (f : Fmt) (md : RMode) (x : Fp) : Nat × Nat := fpDiv f md (.fin false 1 0) x

/-- The reciprocal square root rounded once (09 R162). -/
def fpRsq (f : Fmt) (md : RMode) (x : Fp) : Nat × Nat :=
  match x with
  | .nan s => (f.nan, if s then flagNV else 0)
  | .inf n => if n then (f.nan, flagNV) else (0, 0)
  | .fin n m e =>
    if m = 0 then (f.signed n f.infBits, flagDZ)
    else if n then (f.nan, flagNV)
    else
      let (m, e) := evenExp m e
      let k := 2 * f.fb + 8 + m.log2
      let r := isqrt (2 ^ (2 * k) / m)
      roundF f md false false (2 * r + if r * r * m = 2 ^ (2 * k) then 0 else 1) (-(e / 2) - k - 1)

/-- A result known to lie strictly between lo and hi, times 2^e: rounded if both ends round alike, else one of the two
candidates as the free value says (09 R162; log 9). -/
def roundBracket (f : Fmt) (md : RMode) (fn src : Nat) (neg : Bool) (lo hi : Nat) (e : Int) : Nat × Nat :=
  let a := roundF f md false neg (2 * lo + 1) (e - 1)
  let b := roundF f md false neg (2 * hi - 1) (e - 1)
  if a = b then a else if Config.roundUp fn src then b else a

/-- Bits of the fixed-point numbers the exponential is computed in. -/
def expBits : Nat := 320

/-- A lower bound of the product of 2^(2^-i) over the set bits of a k-bit fraction, most significant first, times
2^expBits; `c` a lower bound of the current constant. -/
def expProduct (fr : Nat) : Nat → Nat → Nat → Nat
  | 0, _, acc => acc
  | k + 1, c, acc =>
    let c := isqrt (c * 2 ^ expBits)
    expProduct fr k c (if fr.testBit k then acc * c / 2 ^ expBits else acc)

/-- 2^x (09 R162). -/
def fpExp2 (f : Fmt) (md : RMode) (src : Nat) (x : Fp) : Nat × Nat :=
  match x with
  | .nan s => (f.nan, if s then flagNV else 0)
  | .inf n => (if n then 0 else f.infBits, 0)
  | .fin n m e =>
    let t := signedMant n m
    if 0 ≤ e ∨ m % 2 ^ (-e).toNat = 0 then
      let i : Int := if 0 ≤ e then t * 2 ^ e.toNat else t / 2 ^ (-e).toNat
      roundF f md false false 1 (max (-4096) (min 4096 i))
    else
      let k := (-e).toNat
      let i : Int := t / 2 ^ k
      let fr := (t % 2 ^ k).toNat
      let i := max (-4096) (min 4096 i)
      let p := expProduct fr k (2 * 2 ^ expBits) (2 ^ expBits)
      roundBracket f md 0 src false p (p + 2 ^ 40) (i - expBits)

/-- Bits of the fixed-point numbers the logarithm is computed in, and the fraction bits it finds. -/
def logBits : Nat := 600

/-- The next `k` bits of the fraction of log2 y by repeated squaring, y a lower bound in [1, 2) times 2^logBits. -/
def logFraction : Nat → Nat → Nat → Nat
  | 0, _, acc => acc
  | k + 1, y, acc =>
    let z := y * y / 2 ^ logBits
    if 2 * 2 ^ logBits ≤ z then logFraction k (z / 2) (2 * acc + 1) else logFraction k z (2 * acc)

/-- log2 x (09 R162). -/
def fpLog2 (f : Fmt) (md : RMode) (src : Nat) (x : Fp) : Nat × Nat :=
  match x with
  | .nan s => (f.nan, if s then flagNV else 0)
  | .inf n => if n then (f.nan, flagNV) else (f.infBits, 0)
  | .fin n m e =>
    if m = 0 then (f.signed true f.infBits, flagDZ)
    else if n then (f.nan, flagNV)
    else
      let i : Int := e + m.log2
      if m = 2 ^ m.log2 then roundF f md false (decide (i < 0)) i.natAbs 0
      else
        let y := m * 2 ^ logBits / 2 ^ m.log2
        let v : Int := i * 2 ^ 200 + logFraction 200 y 0
        if 0 ≤ v then roundBracket f md 1 src false v.toNat (v.toNat + 2 ^ 10) (-200)
        else roundBracket f md 1 src true (v.natAbs - 2 ^ 10) v.natAbs (-200)

/-- A value rounded to an integer by a mode: the integer and exactness. -/
def fpToInt (md : RMode) (neg : Bool) (m : Nat) (e : Int) : Int × Bool :=
  let (n, ex) := roundAt md neg m e 0
  (signedMant neg n, ex)

/-- The clamp of an integer to a range. -/
def clampInt (lo hi x : Int) : Int := max lo (min hi x)

/-- A float to integer conversion (09 R145): the integer and the flags. -/
def fpConvInt (md : RMode) (lo hi : Int) (x : Fp) : Int × Nat :=
  match x with
  | .nan _ => (0, flagNV)
  | .inf n => (if n then lo else hi, flagNV)
  | .fin n m e =>
    let (v, ex) := fpToInt md n m e
    if v < lo ∨ hi < v then (clampInt lo hi v, flagNV) else (v, if ex then 0 else flagNX)

/-- A conversion to a floating format (09 R143 R144): a magnitude beyond range and an infinite input give the largest
finite value. `wide`: the target holds every value of the source, and infinities stay. -/
def fpConv (f : Fmt) (md : RMode) (wide : Bool) (x : Fp) : Nat × Nat :=
  match x with
  | .nan s => (f.nan, if s then flagNV else 0)
  | .inf n => if wide then (f.signed n f.infBits, 0) else (f.signed n (f.infBits - 1), flagOF + flagNX)
  | .fin n m e => roundF f md true n m e

/-- An integer to float conversion (09 R143). -/
def intConv (f : Fmt) (md : RMode) (x : Int) : Nat × Nat := roundF f md true (decide (x < 0)) x.natAbs 0

/-- The order of two values that are no NaN, -0 below +0 where `zeros` (09 R140). -/
def fpLess (zeros : Bool) (x y : Fp) : Bool :=
  match x, y with
  | .inf a, .inf b => a && !b
  | .inf a, .fin _ _ _ => a
  | .fin _ _ _, .inf b => !b
  | .fin a m e, .fin b n g =>
    let d := (dyAdd (signedMant a m) e (-(signedMant b n)) g).1
    decide (d < 0) || (zeros && decide (d = 0) && a && !b)
  | _, _ => false

/-- Whether two values that are no NaN compare equal. -/
def fpEqual (x y : Fp) : Bool :=
  match x, y with
  | .inf a, .inf b => decide (a = b)
  | .fin a m e, .fin b n g => decide ((dyAdd (signedMant a m) e (-(signedMant b n)) g).1 = 0)
  | _, _ => false

/-- Whether a value is a NaN. -/
def fpIsNan : Fp → Bool
  | .nan _ => true
  | _ => false

/-- The lesser or the greater of two values by their bits (09 R140): the other operand for one NaN, the canonical NaN
for two. -/
def fpMinMax (f : Fmt) (greater : Bool) (a b : Nat) : Nat × Nat :=
  let x := unpackF f a
  let y := unpackF f b
  let fl := snanFlag x ||| snanFlag y
  if fpIsNan x then (if fpIsNan y then f.nan else b, fl)
  else if fpIsNan y then (a, fl)
  else if greater then (if fpLess true x y then b else a, fl)
  else (if fpLess true y x then b else a, fl)

end Sys2Proof.Machine
end

