-- ==== Sys2Proof/Machine/Msgs.lean ====
section
/-!
DEFINITION. Messages, ends of activations, tasks, safe points (17 R246-R257).
-/
namespace Sys2Proof.Machine

/-- The smallest scope that covers a core as seen from another; SYSTEM for a place that is no core (07 R112 R118). -/
def scopeBetween (a b : Nat) : Scope :=
  if 1312 ≤ b then .system
  else ([Scope.core, .cluster, .die, .package].find? fun sc => covers sc a b).getD .system

/-- The scope of a SEND's release (07 R118). -/
def sendScope (c : Nat) (e : Word) : Scope := if epPkg e ≠ 0 then .system else scopeBetween c (epCore e)

/-- The scope of the acquire that claiming a message is (07 R118): a job's for its completion message, PACKAGE for a join
continuation, CORE for a landing message (30 R397); else by the source core its header names (log 14). -/
def claimScope (c : Nat) (m : Msg) : Scope := m.acq.getD (scopeBetween c (bitsOf m.hdr 11 0))

/-- An entry that only the device may use: the trap endpoints (21 R305). -/
def trapEndpoint (i : Nat) : Bool := decide (i = 254) || decide (i = 255)

/-- EVAL of MSG_TYPE (11 R184). -/
def msgTypeEval (i len n : Nat) : Word := at_ i 0 ||| at_ len 8 ||| at_ n 11

/-- A core's injection queue has no room (03 R45). Its 16 places are the queue's size of 01 R21. -/
def injectFull (x : Core) : Bool := decide (16 ≤ x.inj.length)

/-- The entry a SEND read first, if it waits (17 R247). -/
def firstRead (s : State) : Option Word :=
  match s.act.wait with
  | some (.inject e) => some e
  | _ => none

/-- An entry without its SEQ. -/
def epFixed (e : Word) : Word := e &&& ~~~at_ 0xFFFF 0

/-- SEND's retirement step (17 R247): the message placed in the injection queue, its SEQ taken. -/
def sendRetire (s : State) (e : BitVec 8) (a : SReg) (n : BitVec 3) : Eff :=
  let words := (upto n.toNat).map fun i => s.getS (a + BitVec.ofNat 6 i)
  let ent := endpoint s s.core e.toNat
  let (o, s) := makeMsg s s.core e.toNat s.act.dom s.core words
  .done (s.modCore s.core fun x => { x with inj := x.inj ++ [o] }) .seq
    [(1, 8), (hops (corePlace s.core) (epPlace ent), 9)]

/-- SEND (17 R247, 21 R305, 29 R394). -/
def execSend (e : BitVec 8) (a : SReg) (n : BitVec 3) (s : State) : Host.Outcome State Fault Refusal :=
  issue (.send e a n) s fun s =>
    let ent := endpoint s s.core e.toNat
    match firstRead s with
    | some first =>
      if injectFull s.here then .stall (.inject first) s
      else if !epValid ent || decide (epFixed ent ≠ epFixed first) || portDown s ent then .trap .endpoint (e.setWidth 64)
      else sendRetire s e a n
    | none =>
      if trapEndpoint e.toNat || !epValid ent || portDown s ent then .trap .endpoint (e.setWidth 64)
      else if epLen ent ≠ n.toNat then .trap .msgType (msgTypeEval e.toNat (epLen ent) n.toNat)
      else
        let s := release s s.core s.act.dom (sendScope s.core ent)
        if injectFull s.here then .stall (.inject ent) s else sendRetire s e a n

/-- The actor of the activation, if it has one and the actor has the tag (17 R246). -/
def ownTag (s : State) (t : Nat) : Option (Nat × TagEnt) :=
  match s.act.actor with
  | none => none
  | some i => (findTag s s.core i t).map fun e => (i, e)

/-- A message the activation's MPOP would take (17 R248): reserved to it. -/
def mpopOwn (s : State) (i t : Nat) (m : Stored) : Bool :=
  decide (m.slot = some s.slot) && decide (m.msg.actor = i) && decide (m.msg.tag = t)

/-- A message the activation's MPOP would take (17 R248): reserved to no activation. -/
def mpopFree (s : State) (i t : Nat) (m : Stored) : Bool :=
  decide (m.slot = none) && decide (m.msg.dom = s.act.dom) && decide (m.msg.actor = i) && decide (m.msg.tag = t)

/-- The message MPOP takes, and the core's store without it (17 R248) (log 14). -/
def mpopTake (s : State) (i t : Nat) : Option (Stored × Core) :=
  match takeStored s.here (mpopOwn s i t) with
  | some r => some r
  | none => takeStored s.here (mpopFree s i t)

/-- Registers s[D] to s[D+7] written (17 R248). -/
def setEight (s : State) (d : SReg) (hdr : Word) (ws : List Word) : State :=
  let l := hdr :: padTo 0 7 ws
  (upto 8).foldl (fun s i => s.setS (d + BitVec.ofNat 6 i) (l.getD i 0)) s

/-- MPOP (17 R248): taking a message is an acquire (07 R118). -/
def execMpop (d : SReg) (t : TagNum) (s : State) : Host.Outcome State Fault Refusal :=
  issue (.mpop d t) s fun s =>
    match ownTag s t.toNat with
    | none => .trap .mpopTag (t.setWidth 64)
    | some (i, _) =>
      match mpopTake s i t.toNat with
      | none => .stall (.mpop t.toNat) s
      | some (m, x) =>
        let s := (s.setCore s.core x)
        plain (acquire (setEight s d m.msg.hdr m.msg.words) s.core s.act.dom (claimScope s.core m.msg))

/-- MPEEK (17 R249). -/
def execMpeek (d : SReg) (t : TagNum) (s : State) : Host.Outcome State Fault Refusal :=
  issue (.mpeek d t) s fun s =>
    match ownTag s t.toNat with
    | none => .trap .mpopTag (t.setWidth 64)
    | some (i, _) =>
      match mpopTake s i t.toNat with
      | none => plain (setEight s d (BitVec.allOnes 64) [])
      | some (m, _) => plain (setEight s d m.msg.hdr m.msg.words)

/-- TAGEN and TAGDIS (17 R251, 03 R54). -/
def setEnable (i : Instr) (s : State) (t : TagNum) (en : Bool) : Host.Outcome State Fault Refusal :=
  issue i s fun s =>
    match (if t = 15 then none else ownTag s t.toNat) with
    | none => .trap .mpopTag (t.setWidth 64)
    | some (j, e) => plain (putTag s s.core j t.toNat { e with en := en })

/-- TAGEN (17 R251). -/
def execTagen (t : TagNum) (s : State) : Host.Outcome State Fault Refusal := setEnable (.tagen t) s t true
/-- TAGDIS (17 R251). -/
def execTagdis (t : TagNum) (s : State) : Host.Outcome State Fault Refusal := setEnable (.tagdis t) s t false

/-- The word TAGPEND writes (17 R252) (log 45). -/
def tagPendWord (s : State) (i t : Nat) (e : TagEnt) : Word :=
  let x := s.here
  let ring := e.tail - e.head
  let ovf := (ovfOf x i t).length
  let store := (queueOf x s.act.dom i t).length
  let rsv := (x.store.filter fun m => m.slot.isSome && decide (m.msg.actor = i) && decide (m.msg.tag = t)).length
  let net := !(netOf s s.core i t).isEmpty
  at_ ring 31 ||| at_ ovf 27 ||| at_ store 18 ||| at_ rsv 4 ||| at_ (flag net) 3 ||| at_ (flag (decide (e.entry ≠ 0))) 2
    ||| at_ (flag e.en) 1 ||| at_ (flag (decide (ring + ovf + store ≠ 0) || net)) 0

/-- TAGPEND (17 R252). -/
def execTagpend (d : SReg) (t : TagNum) (s : State) : Host.Outcome State Fault Refusal :=
  issue (.tagpend d t) s fun s =>
    match ownTag s t.toNat with
    | none => .trap .mpopTag (t.setWidth 64)
    | some (i, e) => plain (s.setS d (tagPendWord s i t.toNat e))

/-- SAVE_FAULT of a save routine that reaches ENDH or ENDJ (03 R70, 21 R317). The bytes of the record it was filling stay as
they are, FORM among them (log 100). -/
def saveEnd (s : State) (run : SaveRun) : State :=
  park s { s.act with regs := saveFaultRegs s.act.regs run 0 s.act.pc, pc := run.addr, owed := 0, btarget := 0 }

/-- The activation ends at its own word (03 R66): charged as retired, its reserved messages returned, its slot freed. -/
def endHere (i : Instr) (s : State) (terms : List Term) : State :=
  let s := chargeAct s (retireTerms i.word ++ terms)
  endAct s s.core s.slot s.act s.act.pc

/-- ENDH (17 R253, 03 R66): its release at CORE scope writes nothing back. -/
def execEndh (s : State) : Host.Outcome State Fault Refusal :=
  issue .endh s fun s =>
    match s.act.saving with
    | some run => .over (saveEnd s run)
    | none => .over (endHere .endh s [])

/-- The 64-bit word at an offset of a block's bytes. -/
def blockWord (b off : Nat) : Nat := b / 2 ^ (8 * off) % 2 ^ 64

/-- A block with a 64-bit word replaced. -/
def blockSet (b off x : Nat) : Nat := b - blockWord b off * 2 ^ (8 * off) + x % 2 ^ 64 * 2 ^ (8 * off)

/-- A block with the low 32 bits of a word replaced. -/
def blockSet32 (b off x : Nat) : Nat := blockSet b off (blockWord b off / 2 ^ 32 * 2 ^ 32 + x % 2 ^ 32)

/-- JOB_ERROR of a join block (19 R276, 17 R254). -/
def joinError (s : State) (dom : Nat) (block : Word) : State :=
  notice s (kernelOf dom) 4090 [6, 0, block, 0, 0, BitVec.ofNat 64 dom, 0]

/-- A continuation falls due (03 R60, 17 R254): sent through the initialising core's entry, or held at the home slice
while that core is not held by the initialising domain's context. `m` carries the payload words W0 to W5 and, as its
header, the block's address; `src` holds EP. -/
def continuationDue (s : State) (m : Msg) : State :=
  if (s.getCore m.core).dom = some m.dom then
    let e := endpoint s m.core m.src
    if !epValid e || decide (6 < epLen e) then joinError s m.dom m.hdr
    else deviceSendAt (some .package) s m.core m.src m.dom m.core m.dom (clusterOf m.core) m.words
  else { s with conts := s.conts ++ [m] }

/-- The continuation of a join block's bytes (03 R59). -/
def continuationOf (b : Nat) (block : Word) : Msg :=
  let w := blockWord b 8
  { dom := w / 2 ^ 20 % 256, core := w / 256 % 4096, actor := 0, tag := 0, hdr := block,
    words := (upto 6).map fun i => BitVec.ofNat 64 (blockWord b (16 + 8 * i)), via := 0, src := w % 256, reached := false }

/-- COUNT of a join block decremented (17 R254): the new block, and what follows: an error, a continuation, nothing. -/
def joinStep (b : Nat) : Option Nat × Bool × Bool :=
  let n := blockWord b 0 % 2 ^ 32
  if n = 0 then (none, true, false) else (some (blockSet32 b 0 (n - 1)), false, decide (n = 1))

/-- An atomic access of the activation at the home slice of an address (17 R246): `pre` its release. -/
def atomicAccess {α : Type} (s : State) (va : Word) (n : Nat) (pre : State → State)
    (f : Nat → Option (Nat × Option Stamp) × α) : Acc (α × HomeLine × State) :=
  homeAccess s .both (some .both) va n pre f

/-- The terms of an operation at the home slice (23 R334). -/
def homeTerms (s : State) (h : HomeLine) (va : Word) : List Term := [(1, 11), (homeHops s h.pl s.act.dom va, 9)]

/-- A release at PACKAGE scope by the activation (03 R60, 07 R126). -/
def releasePackage (s : State) : State := release s s.core s.act.dom .package

/-- ENDJ (17 R254, 03 R60). -/
def execEndj (a : SReg) (s : State) : Host.Outcome State Fault Refusal :=
  issue (.endj a) s fun s =>
    match s.act.saving with
    | some run => .over (saveEnd s run)
    | none =>
      let ea := s.getS a
      orTrap s (blockAccess s none ea 64 [(0, 4)] releasePackage fun b =>
        let (new, err, due) := joinStep b
        (new.map fun x => (x, none), (err, due, continuationOf b ea))) fun ((err, due, m), h, s) =>
          let t := homeTerms s h ea
          let s := if err then joinError s s.act.dom ea else if due then continuationDue s m else s
          .over (endHere (.endj a) s t)

/-- Records of a core's deque overflow ring (03 R57). -/
def ringCap (s : State) (c : Nat) : Nat := match findActor s c 15 with
  | some a => 2 ^ a.dqlog
  | none => 0

/-- The address of record `n` of the ring. -/
def ringSlotAddr (s : State) (c n : Nat) : Word := match findActor s c 15 with
  | some a => a.dqbase + BitVec.ofNat 64 (64 * (n % 2 ^ a.dqlog))
  | none => 0

/-- Records in the ring. -/
def ringCount (x : Core) : Nat := x.ringTail - x.ringHead

/-- The oldest `n` records of a core's deque moved to its ring, in order (03 R57). -/
def dequeToRing (s : State) (c d : Nat) : Nat → Acc State
  | 0 => .ok s
  | n + 1 =>
    match (s.getCore c).deque with
    | [] => .ok s
    | r :: rest =>
      match devWrite s d (clusterOf c) c (ringSlotAddr s c (s.getCore c).ringTail) (wordBytes (padTo 0 8 r)) with
      | .error e => .error e
      | .ok s =>
        dequeToRing (s.modCore c fun x => { x with deque := rest, ringTail := x.ringTail + 1 }) c d n

/-- Room for one record at the bottom of a core's deque (03 R57): a full one first moves 32 records to the ring, or as many
as it has room for; none if both are full. -/
def dequeRoom (s : State) (c d : Nat) : Option (Acc State) :=
  let x := s.getCore c
  if x.deque.length < 64 then some (.ok s)
  else
    let free := ringCap s c - ringCount x
    if free = 0 then none else some (dequeToRing s c d (min 32 free))

/-- The scope of a FORK's release (07 R118): the STEAL of the core's runtime actor. -/
def forkScope (s : State) : Scope :=
  match findActor s s.core 15 with
  | none => .core
  | some a => match a.steal with
    | 0 => .core | 1 => .cluster | 2 => .die | _ => .package

/-- The task record a FORK pushes (03 R56, 17 R255). R56's table gives the six arguments 0x10 to 0x37, which holds five, and
keeps 0x38 as zero; ARG5 is at 0x38 (log 88). -/
def taskRecord (s : State) (a b : SReg) : List Word :=
  [at_ (flag s.act.kernel) 59 ||| at_ s.act.prio 57 ||| memEval (s.getS a), s.getS b,
   s.getS 8, s.getS 9, s.getS 10, s.getS 11, s.getS 12, s.getS 13]

/-- FORK's traps on its operands (17 R255). -/
def forkFault (s : State) (a b : SReg) : Option (Cause × Word) :=
  let x := s.getS a
  let y := s.getS b
  if bitsOf x 63 57 ≠ 0 then some (.pageAbsent, x)
  else if bitsOf x 1 0 ≠ 0 then some (.misaligned, x)
  else if y ≠ 0 ∧ (bitsOf y 63 57 ≠ 0 ∨ bitsOf y 5 0 ≠ 0) then some (.misaligned, y)
  else none

/-- FORK (17 R255, 03 R57). A ring that cannot be written leaves the deque and the ring as before. -/
def execFork (a b : SReg) (s : State) : Host.Outcome State Fault Refusal :=
  issue (.fork a b) s fun s =>
    match forkFault s a b with
    | some (c, v) => .trap c v
    | none =>
      match dequeRoom (release s s.core s.act.dom (forkScope s)) s.core s.act.dom with
      | none => .trap .ring 0xFFFF
      | some r => orTrap s (undone s r) fun s1 =>
        plain (s1.modCore s1.core fun x => { x with deque := x.deque ++ [taskRecord s a b] })

/-- Bytes of up to two lines read by the device for a domain (05 R100). -/
def devReadSpan (s : State) (d meter core : Nat) (va : Word) (n : Nat) : Acc (List Byte × State) :=
  let first := min n (128 - va.toNat % 128)
  match devRead s d meter core va first with
  | .error e => .error e
  | .ok (bs, s) =>
    if n ≤ first then .ok (bs, s)
    else match devRead s d meter core (va + BitVec.ofNat 64 first) (n - first) with
      | .error e => .error e
      | .ok (r, s) => .ok (bs ++ r, s)

/-- The save and restore routines of safe point `n` of the handler at an entry (03 R68 R69), if the save routine is to
run (log 77). -/
def safePoint (s : State) (c : Nat) (a : Act) (n : Nat) : Acc (Option (Word × Word) × State) :=
  match devReadSpan s a.dom (clusterOf c) c (a.entry - 16) 16 with
  | .error e => .error e
  | .ok (h, s) =>
    if leNat (h.take 1) ≤ n then .ok (none, s)
    else match devReadSpan s a.dom (clusterOf c) c (recordWord h 8 + BitVec.ofNat 64 (32 * n)) 32 with
      | .error e => .error e
      | .ok (t, s) =>
        let save := recordWord t 0
        let rest := recordWord t 8
        let bad (w : Word) : Bool := decide (bitsOf w 1 0 ≠ 0) || decide (bitsOf w 63 57 ≠ 0)
        .ok (if bad save || bad rest then none else some (save, rest), s)

/-- Pieces of a record written by the device at offsets, each within one line (21 R319). -/
def writePieces (s : State) (d c : Nat) (va : Word) : List (Nat × List Byte) → Acc State
  | [] => .ok s
  | (off, bs) :: r =>
    match recordWrite s d (clusterOf c) c (va + BitVec.ofNat 64 off) bs with
    | .error e => .error e
    | .ok s => writePieces s d c va r

/-- The message area of a safe-point record (21 R319): the reserved messages, seven at most. -/
def messageArea (msgs : List Stored) : List (Nat × List Byte) :=
  ((upto 7).filter fun j => decide (j < msgs.length)).map fun j =>
    (0x500 + 64 * j, match msgs[j]? with | some m => msgBytes m.msg.hdr m.msg.words | none => [])

/-- What the device writes of a safe-point record (03 R69, 21 R319): DESC, s3-s6, FMODE, FSTAT, PC, the message area. -/
def safeRecord (s : State) (c k : Nat) (a : Act) (n : Nat) (complete : Bool) : List (Nat × List Byte) :=
  let msgs := (reservedOf (s.getCore c) k).take 7
  let reg (i : Nat) : Word := a.regs.s.toArray.getD i 0
  [(0, wordBytes [recordDesc a 1 complete false n msgs.length]), (0x18, wordBytes [reg 3, reg 4, a.s5, reg 6]),
   (0x460, wordBytes [a.regs.fmode, a.regs.fstat]), (0x498, wordBytes [a.pc])] ++ messageArea msgs

/-- SAFEPT with a request pending (03 R69, 17 R256): a dump after the word, which a stepped one is reported before (27 R371),
or the save routine in the same slot (log 77). A
safe-point record that cannot be written halts the domain, as a dump's does (21 R313) (log 36). -/
def safeStop (i : Instr) (s : State) (n : Nat) : Eff :=
  let dump (s : State) : Eff :=
    if s.act.halt = .step then plain s
    else
      let s := retire i s .seq []
      .over (dumpAct s s.core s.slot s.act)
  if !s.act.modes.getLsbD 0 then dump s
  else match safePoint s s.core s.act n, recordAddr s s.core s.slot with
    | .ok (some (save, rest), s1), some va =>
      match writePieces s1 s1.act.dom s1.core va (safeRecord s1 s1.core s1.slot s1.act n false) with
      | .ok s2 =>
        let pc := s2.act.pc
        let s3 := retire i (s2.setS 7 va) .seq []
        .over { s3 with act := { s3.act with pc := save, restore := rest, saving := some { addr := pc, n := n, retired := 0 } } }
      | .error (.wait pl) => lineWait s pl
      | .error (.fault _ _ t) => .over (haltAt (keepTraffic s t) s.core s.slot s.act.dom 2)
    | .error (.wait pl), _ => lineWait s pl
    | .error (.fault _ _ t), _ => dump (keepTraffic s t)
    | .ok (_, s1), _ => dump s1

/-- SAFEPT (17 R256). -/
def execSafept (n : BitVec 8) (s : State) : Host.Outcome State Fault Refusal :=
  issue (.safept n) s fun s =>
    if s.act.preempt.isNone || s.act.saving.isSome then plain s else safeStop (.safept n) s n.toNat

/-- The activation is saved at its safe point (03 R70, 17 R257): its record complete, its slot held, its reserved messages past
seven given back; nothing of a debug hold stays with it (27 R368 R371). -/
def savedHere (s : State) (run : SaveRun) : State :=
  let a := s.act
  keepSeven ((traceRecord s a s.core s.slot true a.pc).putAct s.core s.slot { a with
    status := .saved false false, preempt := none, wait := none, ended := false, saving := none, regs := Regs.start, pc := run.addr,
    owed := 0, btarget := 0, due := dueAtSave s a, decided := false, halt := .none, noBreak := false,
    skip := false }) s.core s.slot

/-- PSAVED (17 R257): the record complete, with the messages that the save routine has left reserved (03 R52). A record that
cannot be written now halts the domain (log 36). -/
def execPsaved (s : State) : Host.Outcome State Fault Refusal :=
  issue .psaved s fun s =>
    match s.act.saving with
    | none => .trap .illegal (Instr.psaved.word.setWidth 64)
    | some run =>
      match recordAddr s s.core s.slot with
      | none => .over (haltAt s s.core s.slot s.act.dom 2)
      | some va =>
        let msgs := (reservedOf s.here s.slot).take 7
        let desc := recordDesc s.act 1 true false run.n msgs.length ||| (if (dueAtSave s s.act).isSome then dueBit else 0)
        match writePieces s s.act.dom s.core va ((0, wordBytes [desc]) :: messageArea msgs) with
        | .error (.wait pl) => lineWait s pl
        | .error (.fault _ _ t) => .over (haltAt (keepTraffic s t) s.core s.slot s.act.dom 2)
        | .ok s => .over (savedHere (chargeAct s (retireTerms Instr.psaved.word)) run)

end Sys2Proof.Machine
end

