-- ==== Sys2Proof/Machine/Atomics.lean ====
section
/-!
DEFINITION. Atomics and fences (17 R258-R262 R268).
-/
namespace Sys2Proof.Machine

/-- An order that releases (17 R258). -/
def orderRel : Order → Bool
  | .rel | .acqrel => true
  | _ => false
/-- An order that acquires (17 R258). -/
def orderAcq : Order → Bool
  | .acq | .acqrel => true
  | _ => false

/-- The number's signed value in `w` bits. -/
def signedNat (w x : Nat) : Int := if x < 2 ^ (w - 1) then x else (x : Int) - 2 ^ w

/-- The ops of AMO and RED (17 R258). -/
inductive AmoOp where
  | add | and | or | xor | min | max | minn | maxn | swap | fadd
  deriving DecidableEq, Repr

/-- op(old, y) in `n` bytes (17 R258). -/
def AmoOp.apply (op : AmoOp) (n old y : Nat) : Nat :=
  let w := 8 * n
  match op with
  | .add => (old + y) % 2 ^ w
  | .and => old &&& y
  | .or => old ||| y
  | .xor => old ^^^ y
  | .min => if signedNat w y < signedNat w old then y else old
  | .max => if signedNat w old < signedNat w y then y else old
  | .minn => Nat.min old y
  | .maxn => Nat.max old y
  | .swap => y
  | .fadd =>
    let f := if n = 4 then fmtF32 else fmtF64
    (fpAdd f .rne (unpackF f old) (unpackF f y)).1

/-- The stamp of a release's bytes (07 R128). R128 names STL, AMO and CAS; a RED performs AMO's step at the home slice (17 R259)
and its bytes are stamped as AMO's are (log 83). -/
def packageStamp (s : State) (rel : Bool) : Option Stamp := if rel then some { core := s.core, scope := .package } else none

/-- The release an order asks for (17 R258). -/
def orderRelease (o : Order) (s : State) : State := if orderRel o then releasePackage s else s

/-- The home-slice step of AMO and RED (17 R258 R259). -/
def amoAccess (s : State) (a b : SReg) (op : AmoOp) (n : Nat) (o : Order) : Acc (Nat × HomeLine × State) :=
  atomicAccess s (s.getS a) n (orderRelease o) fun old =>
    (some (op.apply n old ((s.getS b).toNat % 2 ^ (8 * n)), packageStamp s (orderRel o)), old)

/-- AMO (17 R258). -/
def amoOp (i : Instr) (s : State) (d a b : SReg) (wd : AWidth) (o : Order) (op : AmoOp) : Host.Outcome State Fault Refusal :=
  issue i s fun s => orTrap s (amoAccess s a b op (awidthBytes wd) o) fun (old, h, s1) =>
    let t := homeTerms s1 h (s.getS a)
    let s2 := s1.setS d (BitVec.ofNat 64 old)
    .done (if orderAcq o then checkStamps (acquire s2 s2.core s2.act.dom .package) false .package h.pl h.vl h.stamps else s2) .seq t

/-- RED (17 R259): an acquire order performs the cache action only. -/
def redOp (i : Instr) (s : State) (a b : SReg) (wd : AWidth) (o : Order) (op : AmoOp) : Host.Outcome State Fault Refusal :=
  issue i s fun s => orTrap s (amoAccess s a b op (awidthBytes wd) o) fun (_, h, s1) =>
    let t := homeTerms s1 h (s.getS a)
    .done (if orderAcq o then acquire s1 s1.core s1.act.dom .package else s1) .seq t

/-- AMO.ADD (17 R258). -/
def execAmoAdd (d a b : SReg) (wd : AWidth) (o : Order) (s : State) : Host.Outcome State Fault Refusal :=
  amoOp (.amoAdd d a b wd o) s d a b wd o .add
/-- AMO.AND (17 R258). -/
def execAmoAnd (d a b : SReg) (wd : AWidth) (o : Order) (s : State) : Host.Outcome State Fault Refusal :=
  amoOp (.amoAnd d a b wd o) s d a b wd o .and
/-- AMO.OR (17 R258). -/
def execAmoOr (d a b : SReg) (wd : AWidth) (o : Order) (s : State) : Host.Outcome State Fault Refusal :=
  amoOp (.amoOr d a b wd o) s d a b wd o .or
/-- AMO.XOR (17 R258). -/
def execAmoXor (d a b : SReg) (wd : AWidth) (o : Order) (s : State) : Host.Outcome State Fault Refusal :=
  amoOp (.amoXor d a b wd o) s d a b wd o .xor
/-- AMO.MIN (17 R258). -/
def execAmoMin (d a b : SReg) (wd : AWidth) (o : Order) (s : State) : Host.Outcome State Fault Refusal :=
  amoOp (.amoMin d a b wd o) s d a b wd o .min
/-- AMO.MAX (17 R258). -/
def execAmoMax (d a b : SReg) (wd : AWidth) (o : Order) (s : State) : Host.Outcome State Fault Refusal :=
  amoOp (.amoMax d a b wd o) s d a b wd o .max
/-- AMO.MINN (17 R258). -/
def execAmoMinn (d a b : SReg) (wd : AWidth) (o : Order) (s : State) : Host.Outcome State Fault Refusal :=
  amoOp (.amoMinn d a b wd o) s d a b wd o .minn
/-- AMO.MAXN (17 R258). -/
def execAmoMaxn (d a b : SReg) (wd : AWidth) (o : Order) (s : State) : Host.Outcome State Fault Refusal :=
  amoOp (.amoMaxn d a b wd o) s d a b wd o .maxn
/-- AMO.SWAP (17 R258). -/
def execAmoSwap (d a b : SReg) (wd : AWidth) (o : Order) (s : State) : Host.Outcome State Fault Refusal :=
  amoOp (.amoSwap d a b wd o) s d a b wd o .swap
/-- AMO.FADD (17 R258). -/
def execAmoFadd (d a b : SReg) (wd : AWidth) (o : Order) (s : State) : Host.Outcome State Fault Refusal :=
  amoOp (.amoFadd d a b wd o) s d a b wd o .fadd
/-- RED.ADD (17 R259). -/
def execRedAdd (a b : SReg) (wd : AWidth) (o : Order) (s : State) : Host.Outcome State Fault Refusal :=
  redOp (.redAdd a b wd o) s a b wd o .add
/-- RED.AND (17 R259). -/
def execRedAnd (a b : SReg) (wd : AWidth) (o : Order) (s : State) : Host.Outcome State Fault Refusal :=
  redOp (.redAnd a b wd o) s a b wd o .and
/-- RED.OR (17 R259). -/
def execRedOr (a b : SReg) (wd : AWidth) (o : Order) (s : State) : Host.Outcome State Fault Refusal :=
  redOp (.redOr a b wd o) s a b wd o .or
/-- RED.XOR (17 R259). -/
def execRedXor (a b : SReg) (wd : AWidth) (o : Order) (s : State) : Host.Outcome State Fault Refusal :=
  redOp (.redXor a b wd o) s a b wd o .xor
/-- RED.MIN (17 R259). -/
def execRedMin (a b : SReg) (wd : AWidth) (o : Order) (s : State) : Host.Outcome State Fault Refusal :=
  redOp (.redMin a b wd o) s a b wd o .min
/-- RED.MAX (17 R259). -/
def execRedMax (a b : SReg) (wd : AWidth) (o : Order) (s : State) : Host.Outcome State Fault Refusal :=
  redOp (.redMax a b wd o) s a b wd o .max
/-- RED.MINN (17 R259). -/
def execRedMinn (a b : SReg) (wd : AWidth) (o : Order) (s : State) : Host.Outcome State Fault Refusal :=
  redOp (.redMinn a b wd o) s a b wd o .minn
/-- RED.MAXN (17 R259). -/
def execRedMaxn (a b : SReg) (wd : AWidth) (o : Order) (s : State) : Host.Outcome State Fault Refusal :=
  redOp (.redMaxn a b wd o) s a b wd o .maxn
/-- RED.FADD (17 R259). -/
def execRedFadd (a b : SReg) (wd : AWidth) (o : Order) (s : State) : Host.Outcome State Fault Refusal :=
  redOp (.redFadd a b wd o) s a b wd o .fadd

/-- The activation acquires at PACKAGE scope what an operation at the home slice returned (07 R126 R129). -/
def acquirePackage (s : State) (h : HomeLine) : State :=
  checkStamps (acquire s s.core s.act.dom .package) false .package h.pl h.vl h.stamps

/-- CAS (17 R260). -/
def execCas (d a b : SReg) (wd : AWidth) (s : State) : Host.Outcome State Fault Refusal :=
  issue (.cas d a b wd) s fun s =>
    let n := awidthBytes wd
    orTrap s (atomicAccess s (s.getS a) n releasePackage fun old =>
      (if old = (s.getS d).toNat % 2 ^ (8 * n) then some ((s.getS b).toNat % 2 ^ (8 * n), packageStamp s true) else none, old))
      fun (old, h, s1) =>
        .done (acquirePackage (s1.setS d (BitVec.ofNat 64 old)) h) .seq (homeTerms s1 h (s.getS a))

/-- The step of a chunk block (03 R63): start, count, the new block (log 37). -/
def chunkStep (b : Nat) : Nat × Nat × Nat :=
  let next := blockWord b 0
  let end_ := blockWord b 8
  let rem := end_ - next
  let m := max (blockWord b 16) 1
  let d := max (blockWord b 24) 1
  let count := min rem (max m ((rem + d - 1) / d))
  (next, count, blockSet b 0 (next + count))

/-- CHUNK (17 R261, 03 R63) (log 37). -/
def execChunk (d a : SReg) (s : State) : Host.Outcome State Fault Refusal :=
  issue (.chunk d a) s fun s =>
    orTrap s (blockAccess s (some .both) (s.getS a) 32 [(0, 8)] releasePackage fun b =>
      let (st, n, new) := chunkStep b
      (some (new, none), (st, n))) fun ((st, n), h, s1) =>
        let s2 := (s1.setS d (BitVec.ofNat 64 st)).setS (d + 1) (BitVec.ofNat 64 n)
        .done (acquirePackage s2 h) .seq (homeTerms s1 h (s.getS a))

/-- A release FENCE (17 R262, 07 R132). -/
def fenceRelease (s : State) (sc : Scope) : State := widenStamps (release s s.core s.act.dom sc) s.core sc

/-- An acquire FENCE (17 R262). -/
def fenceAcquire (s : State) (sc : Scope) : State := acquire s s.core s.act.dom sc

/-- FENCE.ACQ (17 R262). -/
def execFenceAcq (sc : Scope) (s : State) : Host.Outcome State Fault Refusal :=
  issue (.fenceAcq sc) s fun s => plain (fenceAcquire s sc)
/-- FENCE.REL (17 R262). -/
def execFenceRel (sc : Scope) (s : State) : Host.Outcome State Fault Refusal :=
  issue (.fenceRel sc) s fun s => plain (fenceRelease s sc)
/-- FENCE.FULL (17 R262). -/
def execFenceFull (sc : Scope) (s : State) : Host.Outcome State Fault Refusal :=
  issue (.fenceFull sc) s fun s => plain (fenceAcquire (fenceRelease s sc) sc)

/-- ISYNC (17 R268, 07 R134): a release, then the instruction caches of every core in scope are empty. -/
def execIsync (sc : Scope) (s : State) : Host.Outcome State Fault Refusal :=
  issue (.isync sc) s fun s =>
    let s := release s s.core s.act.dom sc
    plain { s with cores := s.cores.map fun x => (x.1, if covers sc s.core x.1 then { x.2 with l1i := [] } else x.2) }

end Sys2Proof.Machine
end

