-- ==== Sys2Proof/Machine/Sha3.lean ====
section
/-!
DEFINITION. SHA3-256 (25 R358 R359 R361-R363): the spec names the function, whose steps are those of its standard, FIPS 202
(log 92).
-/
namespace Sys2Proof.Machine

/-- `n` steps of the lane walk from lane (x, y), the next being (y, 2x + 3y), the `t`-th turned by t(t + 1)/2. -/
def laneWalk : Nat → Nat → Nat → Nat → Tab Nat → Tab Nat
  | 0, _, _, _, acc => acc
  | n + 1, t, x, y, acc => laneWalk n (t + 1) y ((2 * x + 3 * y) % 5) (tabPut acc (x + 5 * y) (t * (t + 1) / 2 % 64))

/-- The rotation of each lane x + 5y but lane 0, which stays. -/
def keccakRot : Tab Nat := laneWalk 24 1 1 0 []

/-- `n` outputs of the shift register with the polynomial x⁸ + x⁶ + x⁵ + x⁴ + 1 from a content. -/
def shiftBits : Nat → Nat → List Bool
  | 0, _ => []
  | n + 1, r => decide (r % 2 = 1) :: shiftBits n (if 128 ≤ r then (2 * r) ^^^ 0x171 else 2 * r)

/-- The constant of each round: seven outputs of the register, the `j`-th at bit 2^j - 1. -/
def roundConsts : Nat → List Bool → List Word
  | 0, _ => []
  | n + 1, bs =>
    ((upto 7).foldl (fun acc j => acc ||| at_ (flag (bs.getD j false)) (2 ^ j - 1)) 0) :: roundConsts n (bs.drop 7)

/-- The constants of the 24 rounds. -/
def keccakRounds : List Word := roundConsts 24 (shiftBits 168 1)

/-- Lane `i` of a sponge state of 25 lanes. -/
def lane64 (a : List Word) (i : Nat) : Word := a.getD i 0

/-- The parity of each column, then what each column's lanes are changed by. -/
def keccakTheta (a : List Word) : List Word :=
  let c := (upto 5).map fun x => (upto 5).foldl (fun acc y => acc ^^^ lane64 a (x + 5 * y)) 0
  let d := (upto 5).map fun x => lane64 c ((x + 4) % 5) ^^^ (lane64 c ((x + 1) % 5)).rotateLeft 1
  (upto 25).map fun i => lane64 a i ^^^ lane64 d (i % 5)

/-- Each lane rotated, and moved from (x, y) to (y, 2x + 3y). -/
def keccakMove (a : List Word) : List Word :=
  (upto 25).map fun i =>
    let j := (i % 5 + 3 * (i / 5)) % 5 + 5 * (i % 5)
    (lane64 a j).rotateLeft (tabGet 0 keccakRot j)

/-- Each row's lanes combined; then a round's constant into lane 0. -/
def keccakChi (rc : Word) (a : List Word) : List Word :=
  (upto 25).map fun i =>
    let y := 5 * (i / 5)
    lane64 a i ^^^ (~~~lane64 a ((i + 1) % 5 + y) &&& lane64 a ((i + 2) % 5 + y)) ^^^ (if i = 0 then rc else 0)

/-- The permutation. -/
def keccak (a : List Word) : List Word := keccakRounds.foldl (fun a rc => keccakChi rc (keccakMove (keccakTheta a))) a

/-- A message with its padding, a multiple of 136 bytes. -/
def sha3Pad (bs : List Byte) : List Byte :=
  let n := 136 - bs.length % 136
  bs ++ (if n = 1 then [0x86] else 6 :: List.replicate (n - 2) 0 ++ [0x80])

/-- `n` blocks of 136 bytes absorbed. -/
def sha3Absorb : Nat → List Byte → List Word → List Word
  | 0, _, a => a
  | n + 1, bs, a =>
    let block := wordsOf 17 bs
    sha3Absorb n (bs.drop 136) (keccak ((upto 25).map fun i => lane64 a i ^^^ (if i < 17 then lane64 block i else 0)))

/-- SHA3-256 of a list of bytes: its 32 bytes as a little-endian number. -/
def sha3 (bs : List Byte) : BitVec 256 :=
  let p := sha3Pad bs
  BitVec.ofNat 256 (leNat (wordBytes ((sha3Absorb (p.length / 136) p []).take 4)))

end Sys2Proof.Machine
end

