-- ==== Sys2Proof/Machine/Frames.lean ====
section
/-!
DEFINITION. The frame engine (05 R101-R106, 19 R296-R298, 25 R363): frame transactions, scrubbing and its receipts, recall
closing, frames found uncorrectable.
-/
namespace Sys2Proof.Machine

/-- Results of kernel operations and frame transactions (19 R301). -/
inductive Result where
  | ok | state | authority | format | inuse | memory | absent | length | policy | busy
  deriving DecidableEq, Repr

/-- The number of a result (19 R301). -/
def Result.code : Result → Nat
  | .ok => 0 | .state => 1 | .authority => 2 | .format => 3 | .inuse => 4 | .memory => 5 | .absent => 6 | .length => 7
  | .policy => 8 | .busy => 9

/-- The eight frame transactions (05 R103). -/
inductive FrameOp where
  | offer | accept | decline | withdraw | lend | recall | release | scrub
  deriving DecidableEq, Repr

/-- Every cached line of a frame that a test on its domain selects leaves every L1 data cache and every L2 slice, dirty bytes
written back and kept (05 R104); the instruction caches lose lines by ISYNC only (R83) (log 48). -/
def dropFrameLines (s : State) (f : Nat) (lose : Nat → Bool) : State :=
  let s := dropL1Where s fun l => decide (l.pl / 32 = f) && lose l.dom
  dropL2Where s fun pl l => decide (pl / 32 = f) && lose l.dom

/-- A translation entry covers a frame. -/
def TEntry.coversFrame (t : TEntry) (f : Nat) : Bool :=
  decide (t.ppn * 2 ^ t.log ≤ 4096 * f) && decide (4096 * f < (t.ppn + 1) * 2 ^ t.log)

/-- A walk that read these table frames would fail R93 at a frame now (05 R95 R100). -/
def tableLost (s : State) (d f : Nat) (tables : List Nat) : Bool := tables.contains f && !tableFrameOk s d f

/-- The translation and walk-cache entries that the change of a frame's entry makes wrong are removed (05 R95): those that map
the frame for a domain that loses it, and those that name it as a table or were read through it (log 104). -/
def dropEntries (s : State) (f : Nat) (lose : Nat → Bool) : State :=
  { s with tlb := s.tlb.filter fun t => !(t.coversFrame f && lose t.dom) && !tableLost s t.dom f t.tables
           walk := s.walk.filter fun w => !tableLost s w.dom f (w.frame :: w.tables) }

/-- A frame's entry changes (05 R104): the lines of the domains that may no longer translate it, then the translation and
walk-cache entries that the change makes wrong, are removed. -/
def changeFrame (s : State) (f : Nat) (new : Frame) : State :=
  let lose (d : Nat) : Bool := (frameDenies new d s.time).isSome
  dropEntries (setFrame (dropFrameLines s f lose) f new) f lose

/-- A forced closing that a domain has not acknowledged (05 R103). -/
def unacknowledged (s : State) (e : Nat) : Bool :=
  s.frames.any fun x => decide (x.2.state = .owned) && decide (x.2.peer = e) && decide (x.2.peer ≠ x.2.owner)

/-- Nanoseconds of a deadline class (05 R105). -/
def deadlineOf (k : Nat) : Nat := [1000, 4000, 16000, 64000, 256000, 1000000, 4000000, 16000000].getD k 16000000

/-- The operand of a frame transaction (19 R296). -/
structure FrameReq where
  op : FrameOp
  count : Nat
  rel : Bool
  dclass : Nat
  for_ : Nat
  peer : Nat
  deriving DecidableEq, Repr

/-- The fields of s[B] (19 R296). -/
def frameReq (op : FrameOp) (w : Word) : FrameReq :=
  { op := op, count := bitsOf w 35 20 + 1, rel := w.getLsbD 19, dclass := bitsOf w 18 16, for_ := bitsOf w 15 8,
    peer := bitsOf w 7 0 }

/-- The entry a transaction leaves on a frame, or why it fails there (05 R103, 19 R297): the issuer first, then the
state. -/
def frameNext (s : State) (q : FrameReq) (f : Frame) : Except Result Frame :=
  let home := decide (f.peer = f.owner)
  let owned := decide (f.state = .owned) && home
  match q.op with
  | .accept =>
    if f.state = .free then .ok { f with state := .owned, owner := q.for_, peer := q.for_, keyid := q.for_, late := 0 }
    else if f.peer ≠ q.for_ then .error .authority
    else if f.state ≠ .offered then .error .state
    else .ok { f with state := .owned, owner := f.peer }
  | .offer =>
    if f.owner ≠ q.for_ then .error .authority
    else if !owned then .error .state
    else if q.peer = 255 then .ok { f with state := .free, owner := 255, peer := 255 }
    else .ok { f with state := .offered, peer := q.peer }
  | .decline =>
    if f.peer ≠ q.for_ then .error .authority
    else if f.state ≠ .offered then .error .state
    else .ok { f with state := .owned, peer := f.owner }
  | .withdraw =>
    if f.owner ≠ q.for_ then .error .authority
    else if f.state ≠ .offered then .error .state
    else .ok { f with state := .owned, peer := f.owner }
  | .lend =>
    if f.owner ≠ q.for_ then .error .authority
    else if !owned then .error .state
    else if unacknowledged s q.peer then .error .busy
    else .ok { f with state := .lent, peer := q.peer, dclass := q.dclass }
  | .recall =>
    if f.owner ≠ q.for_ then .error .authority
    else if f.state ≠ .lent then .error .state
    else .ok { f with state := .recalling, deadline := s.time + deadlineOf f.dclass, closing := false, pending := [],
                      dirtied := [], lateLines := [] }
  | .release =>
    if f.peer ≠ q.for_ then .error .authority
    else if f.state = .lent ∨ (f.state = .recalling ∧ s.time < f.deadline ∧ !f.closing) ∨ (f.state = .owned ∧ !home) then
      .ok { f with state := .owned, peer := f.owner }
    else .error .state
  | .scrub =>
    if f.owner ≠ q.for_ then .error .authority
    else if !owned then .error .state
    else .ok f

/-- RECALL to the borrower's kernel (19 R298) (log 49); what the issuer did before happens before the firing of the notice
(07 R118) (log 110). -/
def recallNotice (s : State) (fr : Nat) (f : Frame) : State :=
  notice (release s s.core s.act.dom .system) (kernelOf f.peer) 4093 [3, BitVec.ofNat 64 (4096 * fr), BitVec.ofNat 64 f.owner, BitVec.ofNat 64 f.peer,
    BitVec.ofNat 64 f.dclass, BitVec.ofNat 64 f.deadline]

/-- Frames commit one by one in ascending address, up to the first that fails (05 R104, 19 R297): the number committed,
the result, the state. -/
def commitFrames (q : FrameReq) : Nat → Nat → Nat → State → Nat × Result × State
  | 0, _, done, s => (done, .ok, s)
  | n + 1, fr, done, s =>
    match frameNext s q (getFrame s fr) with
    | .error r => (done, r, s)
    | .ok new =>
      let s := changeFrame s fr new
      commitFrames q n (fr + 1) (done + 1) (if q.op = .recall then recallNotice s fr new else s)

/-- A frame's scrub begins (05 R103 R110): in hardware mode it is SCRUBBING and outside hosts' holdings of it are
back-invalidated; in host-assisted mode its key becomes the owner's. Every cached line of it is removed. -/
def scrubStart (s : State) (host : Bool) (fr : Nat) (f : Frame) : State :=
  let s := dropFrameLines s fr fun _ => true
  if host then changeFrame s fr { f with keyid := f.owner }
  else
    let s := changeFrame s fr { f with state := .scrubbing }
    { s with ext := s.ext.map fun x => if x.1 / 32 = fr then (x.1, { x.2 with since := some (x.2.since.getD s.time) }) else x }

/-- The frames of an FSCRUB in ascending address (19 R297): those that begin, those excluded as RETIRED, the result (log 48). -/
def scrubFrames (q : FrameReq) (host : Bool) : Nat → Nat → List Nat → List Nat → State → List Nat × List Nat × Result × State
  | 0, _, go, ex, s => (go, ex, .ok, s)
  | n + 1, fr, go, ex, s =>
    let f := getFrame s fr
    if f.state = .retired ∧ f.owner = q.for_ then scrubFrames q host n (fr + 1) go (ex ++ [fr]) s
    else match frameNext s q f with
      | .error r => (go, ex, r, s)
      | .ok _ => scrubFrames q host n (fr + 1) (go ++ [fr]) ex (scrubStart s host fr f)

/-- A frame zeroed under its owner's key by the memory controller (05 R103 R110): every byte zero, every mark cleared (log 48). -/
def zeroFrame (s : State) (fr : Nat) (f : Frame) (rel : Bool) : State :=
  let out {α : Type} (t : Tab α) : Tab α := t.filter fun x => decide (x.1 / 32 ≠ fr)
  let s := { s with mem := s.mem.filter (fun c => decide (c.1 / 4096 ≠ fr)), sealLine := out s.sealLine, lost := out s.lost,
                    stamps := out s.stamps, sealFrame := tabPut s.sealFrame fr (f.owner, (s.getDom f.owner).gen) }
  if rel then changeFrame s fr { f with state := .free, owner := 255, peer := 255, keyid := f.owner }
  else changeFrame s fr { f with state := .owned, keyid := f.owner }

/-- A transaction's status word (19 R296); `e`: the frame whose entry it shows, if it lies in the table. -/
def frameStatus (s : State) (r : Result) (committed : Nat) (e : Option Nat) : Word :=
  at_ r.code 56 ||| at_ committed 32 ||| (match e with | some f => (getFrame s f).word | none => 0)

/-- The charge of a frame transaction (23 R334). -/
def chargeFrames (s : State) (k meter committed : Nat) : State := charge s k meter [(2 * max committed 1, 5)]

/-- The 4 KiB of a scrub receipt (25 R363); `ex`: the excluded frames with their reasons, ascending. -/
def receiptBytes (s : State) (r : Result) (for_ : Nat) (host : Bool) (first asked committed : Nat) (ex : List (Nat × Nat)) :
    List Byte :=
  let ents := ex.map fun x => at_ x.1 12 ||| at_ x.2 0
  let w0 := at_ r.code 24 ||| at_ for_ 16 ||| at_ (flag (decide (committed < asked))) 11 ||| at_ (flag host) 10
    ||| at_ (flag (decide (180 < ex.length))) 9 ||| at_ (flag !ex.isEmpty) 8 ||| 1
  let head := wordBytes ([w0, BitVec.ofNat 64 (4096 * first), BitVec.ofNat 64 asked, BitVec.ofNat 64 committed,
      BitVec.ofNat 64 ex.length, BitVec.ofNat 64 s.time, BitVec.ofNat 64 s.receipts, 0])
    ++ leBytes 32 (sha3 (wordBytes ents)).toNat ++ padTo 0 1440 (wordBytes (ents.take 180))
  head ++ ((upto 2420).map fun i => Config.signature s.ms[0] head i) ++ List.replicate 140 0

/-- The receipt written to its buffer in the issuing domain, if it can be (25 R363) (log 54). -/
def writeReceipt (s : State) (k meter core : Nat) (buf : Word) (bs : List Byte) : State :=
  match (if bitsOf buf 11 0 = 0 then devWriteAll s k meter core buf 64 bs else .error (.fault .misaligned buf s)) with
  | .ok s => { s with receipts := s.receipts + 1 }
  | .error (.fault _ _ t) => keepTraffic s t
  | .error (.wait _) => s

/-- Whether a receipt buffer can be written (19 R297). -/
def receiptFault (s : State) (k meter core : Nat) (buf : Word) : Option AccErr :=
  match (if bitsOf buf 11 0 = 0 then devWriteAll s k meter core buf 64 (List.replicate 4096 0) else .error (.fault .misaligned buf s)) with
  | .ok _ => none
  | .error e => some e

/-- Whether scrubbing is host-assisted for a domain (01 R30): for its own domain the mode that the activation started under
(log 47). -/
def scrubHost (s : State) (d : Nat) : Bool := (if d = s.act.dom then s.act.modes else (s.getDom d).modes).getLsbD 3

/-- A domain that exists (01 R27). -/
def domExists (s : State) (d : Nat) : Bool := decide (d = 1) || decide (d = 2) || (isTenant d && (s.getDom d).exists_)

/-- A domain number that a kernel may name (19 R297 R300). -/
def inDomains (d : Nat) : Bool := decide (1 ≤ d) && decide (d ≤ 194)

/-- The conditions of R297 on the operands, in the order of its table, the receipt buffer's excepted (log 50). -/
def frameRefused (s : State) (q : FrameReq) (k : Nat) (pa w : Word) : Option Result :=
  let two := decide (q.op = .offer) || decide (q.op = .lend)
  let hard := decide (q.op = .scrub) && !scrubHost s q.for_
  let first := pa.toNat / 4096
  if bitsOf w 63 36 ≠ 0 ∨ (q.rel ∧ !hard) ∨ (q.dclass ≠ 0 ∧ q.op ≠ .lend) ∨ (q.peer ≠ 0 ∧ !two) then some .format
  else if !inDomains q.for_ || (decide (q.op = .offer) && !inDomains q.peer && decide (q.peer ≠ 255))
      || (decide (q.op = .lend) && !inDomains q.peer) then some .format
  else if bitsOf pa 11 0 ≠ 0 then some .format
  else if q.for_ ≠ k ∧ !(k = 2 ∧ isTenant q.for_) then some .authority
  else if !domExists s q.for_ || (two && isTenant q.peer && !domExists s q.peer) then some .state
  else if (s.getDom q.for_).halted then some .state
  else if !(upto q.count).all fun i => isDram (4096 * (first + i)) then some .memory
  else none

/-- The frame whose entry a status shows (19 R296). -/
def shownFrame (first asked committed : Nat) : Option Nat :=
  let f := first + min committed (asked - 1)
  if isDram (4096 * f) then some f else none

/-- A frame transaction other than FSCRUB (19 R296 R297). -/
def frameEff (s : State) (op : FrameOp) (d a b : SReg) : Eff :=
  let w := s.getS b
  let pa := s.getS a
  let q := frameReq op w
  let k := s.act.dom
  let first := pa.toNat / 4096
  match frameRefused s q k pa w with
  | some r => plain ((chargeFrames s k (clusterOf s.core) 0).setS d (frameStatus s r 0 (shownFrame first q.count 0)))
  | none =>
    let (done, r, s) := commitFrames q q.count first 0 s
    plain ((chargeFrames s k (clusterOf s.core) done).setS d (frameStatus s r done (shownFrame first q.count done)))

/-- FSCRUB up to its status (19 R296 R297, 25 R363): a refused one and one in host-assisted mode end at once, one in hardware
mode waits for its frames to be zeroed. -/
def scrubEff (s : State) (d a b : SReg) : Eff :=
  let w := s.getS b
  let pa := s.getS a
  let buf := s.getS d
  let q := frameReq .scrub w
  let k := s.act.dom
  let m := clusterOf s.core
  let first := pa.toNat / 4096
  let host := scrubHost s q.for_
  match receiptFault s k m s.core buf with
  | some (.wait pl) => lineWait s pl
  | bad =>
    match (frameRefused s q k pa w).orElse fun _ => bad.map fun _ => Result.memory with
    | some r =>
      let s1 := writeReceipt s k m s.core buf (receiptBytes s r q.for_ host first q.count 0 [])
      plain ((chargeFrames s1 k m 0).setS d (frameStatus s1 r 0 (shownFrame first q.count 0)))
    | none =>
      let (go, ex, r, s) := scrubFrames q host q.count first [] [] s
      if host then
        let done := go.length + ex.length
        let s := writeReceipt s k m s.core buf (receiptBytes s r q.for_ host first q.count done (ex.map fun f => (f, 1)))
        plain ((chargeFrames s k m done).setS d (frameStatus s r done (shownFrame first q.count done)))
      else
        .stall .frameOp { s with scrubs := s.scrubs ++ [{
          core := s.core, slot := s.slot, d := d, a := a, b := b, for_ := q.for_, rel := q.rel, first := first,
          asked := q.count, entered := go, excluded := ex, result := r.code, buffer := buf }] }

/-- The word of a frame transaction (19 R296). -/
def frameCode (n : BitVec 7) (d a b : SReg) : IWord := fmtR n b a d 0x7C

/-- A frame transaction's word issues: one that already waits goes on waiting (19 R296). -/
def frameWord (w : IWord) (s : State) (f : State → Eff) : Host.Outcome State Fault Refusal :=
  issueWord w s fun s => if s.act.wait = some .frameOp then .stall .frameOp s else f s

/-- FOFFER (05 R103, 19 R296). -/
def execFoffer (d a b : SReg) (s : State) : Host.Outcome State Fault Refusal :=
  frameWord (frameCode 0 d a b) s fun s => frameEff s .offer d a b
/-- FACCEPT (05 R103, 19 R296). -/
def execFaccept (d a b : SReg) (s : State) : Host.Outcome State Fault Refusal :=
  frameWord (frameCode 1 d a b) s fun s => frameEff s .accept d a b
/-- FDECLINE (05 R103, 19 R296). -/
def execFdecline (d a b : SReg) (s : State) : Host.Outcome State Fault Refusal :=
  frameWord (frameCode 2 d a b) s fun s => frameEff s .decline d a b
/-- FWITHDRAW (05 R103, 19 R296). -/
def execFwithdraw (d a b : SReg) (s : State) : Host.Outcome State Fault Refusal :=
  frameWord (frameCode 3 d a b) s fun s => frameEff s .withdraw d a b
/-- FLEND (05 R103, 19 R296). -/
def execFlend (d a b : SReg) (s : State) : Host.Outcome State Fault Refusal :=
  frameWord (frameCode 4 d a b) s fun s => frameEff s .lend d a b
/-- FRECALL (05 R103, 19 R298). -/
def execFrecall (d a b : SReg) (s : State) : Host.Outcome State Fault Refusal :=
  frameWord (frameCode 5 d a b) s fun s => frameEff s .recall d a b
/-- FRELEASE (05 R103, 19 R296). -/
def execFrelease (d a b : SReg) (s : State) : Host.Outcome State Fault Refusal :=
  frameWord (frameCode 6 d a b) s fun s => frameEff s .release d a b
/-- FSCRUB (05 R103, 19 R296). -/
def execFscrub (d a b : SReg) (s : State) : Host.Outcome State Fault Refusal :=
  frameWord (frameCode 7 d a b) s fun s => scrubEff s d a b

/-- The result a code stands for. -/
def Result.ofCode (n : Nat) : Result :=
  ([Result.ok, .state, .authority, .format, .inuse, .memory, .absent, .length, .policy, .busy].find? fun r => decide (r.code = n)).getD .state

/-- The SCRUBBING frames of a hardware FSCRUB leave that state (19 R297): zeroed, or excluded as UNCORRECTABLE. -/
def scrubEnd (s : State) (rel : Bool) : List Nat → List Nat × State
  | [] => ([], s)
  | fr :: r =>
    let f := getFrame s fr
    if f.state = .scrubbing then scrubEnd (zeroFrame s fr f rel) rel r
    else
      let (bad, s) := scrubEnd s rel r
      (fr :: bad, s)

/-- The line of a receipt buffer that an outside host holds (05 R110), which the receipt waits for (25 R363). -/
def receiptWaits (s : State) (k meter core : Nat) (buf : Word) : Option Nat :=
  match receiptFault s k meter core buf with
  | some (.wait pl) => some pl
  | _ => none

/-- The status of a hardware FSCRUB returns to its waiting word (19 R296 R297, 25 R363). -/
def scrubReturn (s : State) (x : Scrub) (k : Nat) : State :=
  let m := clusterOf x.core
  let (bad, s) := scrubEnd (s.select x.core x.slot) x.rel x.entered
  let r := Result.ofCode x.result
  let done := x.entered.length + x.excluded.length
  let ex := sortBy (fun e => e.1) ((x.excluded.map fun f => (f, 1)) ++ bad.map fun f => (f, 2))
  let s := writeReceipt s k m x.core x.buffer (receiptBytes s r x.for_ false x.first x.asked done ex)
  let s := charge (chargeFrames s k m done) x.for_ m [(64 * (x.entered.length - bad.length), 5)]
  let w := frameStatus s r done (shownFrame x.first x.asked done)
  let s := { s with scrubs := s.scrubs.filter fun y => !(decide (y.core = x.core) && decide (y.slot = x.slot)) }
  completeLate (frameCode 7 x.d x.a x.b) (s.setS x.d w)

/-- FRAME_TRANSACTION_STATUS (19 R296): once no outside host holds a line of the frames or of the receipt buffer (05 R110), and
the clocks of the die of the waiting word run (31 R405). -/
def execFrameTransactionStatus (core slot : Nat) (s : State) : Host.Outcome State Fault Refusal :=
  .next (match s.scrubs.find? fun x => decide (x.core = core) && decide (x.slot = slot), s.findAct core slot with
    | some x, some a =>
      if (s.ext.any fun e => x.entered.contains (e.1 / 32)) || decide (a.wait ≠ some .frameOp) || (s.getDie (dieOf core)).stopped then s
      else match receiptWaits s a.dom (clusterOf x.core) x.core x.buffer with
        | some pl => askBack s pl
        | none => scrubReturn s x a.dom
    | _, _ => s)

/-- FRAME_FOUND_UNCORRECTABLE (05 R103): the frame becomes RETIRED. -/
def execFrameFoundUncorrectable (frame : Nat) (s : State) : Host.Outcome State Fault Refusal :=
  .next (if isDram (4096 * frame) then changeFrame s frame { getFrame s frame with state := .retired } else s)

/-- A cluster or group holds a line of a frame under a domain's tag in some L1 data cache. -/
def clusterHolds (s : State) (g f d : Nat) : Bool :=
  (clusterCores g).any fun c => (s.getCore c).l1.any fun l => decide (l.pl / 32 = f) && decide (l.dom = d)

/-- RECALL_DEADLINE (05 R106): at the deadline of a RECALLING frame closing begins; the borrower's translation entries for
the frame go, and each cluster that holds a line of it is to process the invalidation. -/
def execRecallDeadline (frame : Nat) (s : State) : Host.Outcome State Fault Refusal :=
  let f := getFrame s frame
  .next (if f.state ≠ .recalling ∨ f.closing ∨ s.time < f.deadline then s
    else
      let s := setFrame s frame { f with closing := true, pending := (upto 164).filter fun g => clusterHolds s g frame f.peer,
                                         dirtied := [], lateLines := [] }
      dropEntries s frame fun d => decide (d = f.peer))

/-- RECALL_CLUSTER_INVALIDATE (05 R106 step 2): at one instant every core of a cluster loses its lines of the frame under
the borrower's tag; dirty bytes are written back and kept, and a LATE_WRITE is to follow for them. -/
def execRecallClusterInvalidate (frame cluster : Nat) (s : State) : Host.Outcome State Fault Refusal :=
  let f := getFrame s frame
  .next (if !f.closing || !(f.pending.contains cluster) then s
    else
      let mine (c : Nat) (l : L1Line) : Bool := decide (clusterOf c = cluster) && decide (l.pl / 32 = frame) && decide (l.dom = f.peer)
      let n := ((upto 32).filter fun i => s.cores.any fun x => x.2.l1.any fun l =>
        mine x.1 l && decide (l.dirty ≠ 0) && decide (l.pl % 32 = i)).length
      let s := s.cores.foldl (fun s x => x.2.l1.foldl (fun s l => if mine x.1 l then flushL1 s x.1 l else s) s) s
      setFrame s frame { f with
        pending := f.pending.filter fun g => decide (g ≠ cluster),
        dirtied := if n = 0 then f.dirtied else f.dirtied ++ [cluster],
        lateLines := if n = 0 then f.lateLines else f.lateLines ++ [(cluster, n)] })

/-- A cluster as LATE_WRITE names it (26 R365): 16 × die + cluster, the hub die being 15. -/
def lateCluster (g : Nat) : Nat := if g < 160 then g else 240 + (g - 160)

/-- LATE_WRITE (05 R106, R365): the bytes a cluster kept have all reached memory, and the owner's kernel is told. -/
def execLateWrite (frame cluster : Nat) (s : State) : Host.Outcome State Fault Refusal :=
  let f := getFrame s frame
  .next (match f.lateLines.find? fun x => decide (x.1 = cluster) with
    | none => s
    | some (_, n) =>
      let s := dropL2Where s fun pl l => decide (pl / 32 = frame) && l.dirty
      let s := setFrame s frame { getFrame s frame with lateLines := f.lateLines.filter fun x => decide (x.1 ≠ cluster) }
      notice s (kernelOf f.owner) 4093 [7, BitVec.ofNat 64 (4096 * frame), BitVec.ofNat 64 f.owner, BitVec.ofNat 64 f.peer,
        BitVec.ofNat 64 (lateCluster cluster), BitVec.ofNat 64 n])

/-- RECALL_CLOSING_COMPLETE (05 R106 steps 3 to 6): once every cluster has processed the invalidation and every kept byte
has reached memory (log 49). -/
def execRecallClosingComplete (frame : Nat) (s : State) : Host.Outcome State Fault Refusal :=
  let f := getFrame s frame
  .next (if !f.closing || decide (f.state ≠ .recalling) || !f.pending.isEmpty || !f.lateLines.isEmpty then s
    else
      let s := dropL2Where s fun pl l => decide (pl / 32 = frame) && decide (l.dom = f.peer)
      let new := { f with state := .owned, late := min 3 (f.late + 1), closing := false, dirtied := [] }
      let s := changeFrame s frame new
      let words := [4, BitVec.ofNat 64 (4096 * frame), BitVec.ofNat 64 f.owner, BitVec.ofNat 64 f.peer,
        BitVec.ofNat 64 f.dirtied.length, BitVec.ofNat 64 new.late]
      let s := notice s (kernelOf f.owner) 4093 words
      if kernelOf f.owner = kernelOf f.peer then s else notice s (kernelOf f.peer) 4093 words)

end Sys2Proof.Machine
end

