-- ==== Sys2Proof/Machine/Kernel.lean ====
section
/-!
DEFINITION. Kernel operations on actors, endpoints, translations and quotas (19 R300-R304; 03 R33-R39 R53, 05 R98,
21 R305 R306, 23 R342 R346, 25 R355-R357).
-/
namespace Sys2Proof.Machine

/-- What a kernel operation answers. -/
inductive KAns where
  | done (v : Nat) (s : State)
  /-- it fails with no effect -/
  | fail (r : Result)
  /-- it fails with an effect and a VALUE its entry states -/
  | partly (r : Result) (v : Nat) (s : State)
  /-- it fails with no effect but its accesses' traffic, which stands in `t` (23 R336) -/
  | failAfter (r : Result) (t : State)
  /-- an access it makes waits for an outside host (05 R110) -/
  | wait (pl : Nat)
  /-- what it would change stands still with the clocks of the die of a core (31 R405) -/
  | clock (c : Nat)
  /-- its status comes later -/
  | later (s : State)

/-- A status word (19 R300). -/
def kernelStatus (r : Result) (v : Word) : Word := at_ r.code 56 ||| (v &&& at_ (2 ^ 56 - 1) 0)

/-- A kernel operation's answer as an instruction's effect. The VALUE of one that fails is open (log 16). -/
def kernelEff (s : State) (d : SReg) : KAns → Eff
  | .done v s => plain (s.setS d (kernelStatus .ok (BitVec.ofNat 64 v)))
  | .partly r v s => plain (s.setS d (kernelStatus r (BitVec.ofNat 64 v)))
  | .fail r =>
    let (n, s) := s.draw
    plain (s.setS d (kernelStatus r (Config.openValue n)))
  | .failAfter r t =>
    let (n, s) := (keepTraffic s t).draw
    plain (s.setS d (kernelStatus r (Config.openValue n)))
  | .wait pl => lineWait s pl
  | .clock c => .stall (.clock c) s
  | .later s => .stall .kernelOp s

/-- The word of a kernel operation (19 R302). -/
def kernelCode (n : BitVec 7) (d a b : SReg) : IWord := fmtR n b a d 0x7D

/-- A kernel operation's word issues: one that already waits for its status goes on waiting (19 R300). -/
def kernelOp (w : IWord) (s : State) (d : SReg) (f : State → KAns) : Host.Outcome State Fault Refusal :=
  issueWord w s fun s => if s.act.wait = some .kernelOp then .stall .kernelOp s else kernelEff s d (f s)

/-- An access of the device as a part of a kernel operation: a fault is MEMORY (19 R301). -/
def kernelAcc {α : Type} (r : Acc α) (f : α → KAns) : KAns :=
  match r with
  | .ok a => f a
  | .error (.wait pl) => .wait pl
  | .error (.fault _ _ t) => .failAfter .memory t

/-- The tests of a domain field by an issuer (19 R300, 21 R313) (log 50). -/
def domainTest (s : State) (k d : Nat) : Option Result :=
  if !inDomains d then some .format
  else if !domExists s d then some .state
  else if kernelOf d ≠ k then some .authority
  else if (s.getDom d).halted then some .state
  else none

/-- The core a target word names (19 R300). -/
def targetCore (w : Word) : Nat := bitsOf w 11 0
/-- The domain a target word names. -/
def targetDom (w : Word) : Nat := bitsOf w 19 12

/-- The tests of a target word (19 R300): its reserved bits outside `extra`, its core, its domain. -/
def targetTest (s : State) (k : Nat) (w extra : Word) : Option Result :=
  if w &&& ~~~(at_ 0xFFFFF 0 ||| extra) ≠ 0 ∨ 1312 ≤ targetCore w then some .format else domainTest s k (targetDom w)

/-- A target core that its domain's context must hold (19 R301). -/
def heldTest (s : State) (k : Nat) (w extra : Word) : Option Result :=
  (targetTest s k w extra).orElse fun _ =>
    if (s.getCore (targetCore w)).dom = some (targetDom w) then none else some .authority

/-- A granted entry names a tag of an actor of a domain on a core (03 R39). -/
def entryNames (e : Word) (c d i t : Nat) : Bool :=
  epValid e && decide (epDom e = d) && decide (epCore e = c) && decide (epActor e = i) && decide (epTag e = t)

/-- Entries of a core's table that name a tag of this package. -/
def Core.entries (x : Core) : List Word := (x.endpoints.filter fun e => decide (epPkg e.2 = 0)).map fun e => e.2

/-- Every granted entry that may name a tag of this package: of the cores and of the evicted contexts' images, of the
kernels' device endpoints, of the host link, those that name a Lanyard peer apart (03 R39), and of the Lanyard ports. -/
def grantedEntries (s : State) : List Word :=
  (s.cores.foldr (fun x acc => x.2.entries ++ acc) [])
    ++ ((s.images.filter fun x => x.2.live).foldr (fun x acc => x.2.saved.entries ++ acc) [])
    ++ (s.doms.foldr (fun x acc => x.2.notice :: x.2.homeless :: acc) [])
    ++ (s.fns.foldr (fun x acc => (x.2.ingress.map (fun e => e.2)).filter (fun e => decide (epPkg e = 0)) ++ acc) [])
    ++ s.lanIngress.map fun e => e.2

/-- A granted entry gives a tag another LEN (03 R39). -/
def lenClash (s : State) (c d i t len : Nat) : Bool :=
  (grantedEntries s).any fun e => entryNames e c d i t && decide (epLen e ≠ len)

/-- A granted entry names a tag. -/
def tagGranted (s : State) (c d i t : Nat) : Bool := (grantedEntries s).any fun e => entryNames e c d i t

/-- Pages of a domain from an address up lie in frames that it owns or borrows and may write (03 R36, 21 R321): the state with
the walks' traffic (23 R334) (log 51). -/
def pagesOk (s : State) (d meter : Nat) (va : Word) : Nat → Acc State
  | 0 => .ok s
  | n + 1 =>
    if bitsOf va 63 57 ≠ 0 then .error (.fault .pageAbsent (memEval va) s)
    else match leafCheck s d meter true .store va with
      | .error e => .error e
      | .ok (l, s) => if isDram l.pa then pagesOk s d meter (va + 4096) n else .error (.fault .window (memEval va) s)

/-- An area of a domain, by base and size in bytes (log 51). -/
def areaOk (s : State) (d meter : Nat) (base : Word) (size : Nat) : Acc State :=
  let b := base.toNat
  if size = 0 then .ok s else pagesOk s d meter (BitVec.ofNat 64 (b / 4096 * 4096)) ((b + size - 1) / 4096 - b / 4096 + 1)

/-- Several areas of a domain. -/
def areasOk (s : State) (d meter : Nat) : List (Word × Nat) → Acc State
  | [] => .ok s
  | (b, n) :: r => match areaOk s d meter b n with
    | .error e => .error e
    | .ok s => areasOk s d meter r

/-- A tag entry's reserved fields are zero (03 R35). -/
def tagFormatOk (bs : List Byte) : Bool :=
  onlyFields (recordWord bs 0) [(56, 0)] && onlyFields (recordWord bs 8) [(13, 0)] && onlyFields (recordWord bs 16) [(56, 0)]
    && decide (recordWord bs 24 = 0)

/-- A tag as its entry gives it (03 R35), its ring empty. -/
def tagOf (present : Bool) (bs : List Byte) : TagEnt :=
  let w := recordWord bs 8
  { present := present, entry := recordWord bs 0, prio := bitsOf w 1 0, fire := bitsOf w 4 2 + 1, len := bitsOf w 7 5,
    en := w.getLsbD 8, slog := bitsOf w 13 9, sbase := recordWord bs 16, head := 0, tail := 0, broken := false, ring := [] }

/-- Bytes of a spill ring (03 R35). -/
def TagEnt.ringBytes (e : TagEnt) : Nat := 64 * 2 ^ e.slog

/-- An actor record's index (03 R34). -/
def recordIndex (bs : List Byte) : Nat := bitsOf (recordWord bs 0) 3 0

/-- An actor as its record gives it (03 R34). -/
def actorOf (bs : List Byte) : Actor :=
  let w0 := recordWord bs 0
  let w1 := recordWord bs 8
  let w5 := recordWord bs 0x28
  { kernel := w0.getLsbD 4, conc := w0.getLsbD 5, spoff := bitsOf w1 18 0, spsize := bitsOf w1 50 32, mbase := recordWord bs 0x10,
    msize := bitsOf (recordWord bs 0x18) 47 0, dqbase := recordWord bs 0x20, dqlog := bitsOf w5 4 0, steal := bitsOf w5 9 8,
    savebase := recordWord bs 0x30,
    tags := (upto 16).map fun t => tagOf (w0.getLsbD (16 + t)) ((bs.drop (0x40 + 32 * t)).take 32) }

/-- An actor record's reserved fields are zero (03 R34 R36). -/
def recordFormatOk (bs : List Byte) : Bool :=
  let w := recordWord bs
  onlyFields (w 0) [(3, 0), (4, 4), (5, 5), (31, 16)] && onlyFields (w 8) [(18, 0), (50, 32)] && onlyFields (w 0x10) [(56, 0)]
    && onlyFields (w 0x18) [(47, 0)] && onlyFields (w 0x20) [(56, 0)] && onlyFields (w 0x28) [(4, 0), (9, 8)]
    && onlyFields (w 0x30) [(56, 0)] && decide (w 0x38 = 0)
    && (decide (recordIndex bs = 15) || (decide (w 0x20 = 0) && decide (w 0x28 = 0) && decide (w 0x30 = 0)))
    && (upto 16).all fun t => tagFormatOk ((bs.drop (0x40 + 32 * t)).take 32)

/-- A present tag's own tests (03 R36): tag 15, SLOG, ENTRY. -/
def tagRefused (t : Nat) (e : TagEnt) : Bool :=
  e.present && ((decide (t = 15) && (decide (e.len ≠ 7) || decide (e.fire ≠ 1))) || decide (16 < e.slog)
    || decide (bitsOf e.entry 1 0 ≠ 0))

/-- Two byte ranges overlap. -/
def overlaps (a b : Word × Nat) : Bool :=
  decide (a.1.toNat < b.1.toNat + b.2) && decide (b.1.toNat < a.1.toNat + a.2)

/-- The deque ring and the save area of a runtime actor (03 R34, 21 R318). -/
def runtimeAreas (a : Actor) : List (Word × Nat) := [(a.dqbase, 64 * 2 ^ a.dqlog), (a.savebase, 0x20000)]

/-- The runtime actors of a domain, loaded on a core or held in a context image (03 R36). -/
def runtimeActors (s : State) (d : Nat) : List Actor :=
  (s.cores.filterMap fun x => if x.2.dom = some d then tabFind x.2.actors 15 else none)
    ++ s.images.filterMap fun x => if x.2.dom = d ∧ x.2.live then tabFind x.2.saved.actors 15 else none

/-- The areas R36 requires to lie in the domain's frames. -/
def actorAreas (i : Nat) (a : Actor) : List (Word × Nat) :=
  (a.tags.filter fun e => e.present).map (fun e => (e.sbase, e.ringBytes)) ++ [(a.mbase, a.msize)]
    ++ (if i = 15 then runtimeAreas a else [])

/-- The conditions of R36 between the record's read and its areas, in the order of its table. -/
def recordRefused (s : State) (c d : Nat) (bs : List Byte) : Option Result :=
  let i := recordIndex bs
  let a := actorOf bs
  let any (f : Nat → TagEnt → Bool) : Bool := (upto 16).any fun t => match a.tagEnt t with
    | some e => e.present && f t e
    | none => false
  if !recordFormatOk bs then some .format
  else if a.spoff % 64 ≠ 0 ∨ a.spsize % 64 ≠ 0 then some .format
  else if a.kernel && isTenant d then some .authority
  else if any fun t _ => decide (t = 15) && decide (i ≠ 15) then some .format
  else if any fun t e => decide (t = 15) && (decide (e.len ≠ 7) || decide (e.fire ≠ 1)) then some .format
  else if (any fun _ e => decide (16 < e.slog)) || decide (20 < a.dqlog) then some .format
  else if any fun _ e => decide (bitsOf e.entry 1 0 ≠ 0) then some .format
  else if a.msize ≠ 0 ∧ a.spsize < 8 then some .format
  else if (findActor s c i).isSome then some .inuse
  else if spadSize c < a.spoff + a.spsize then some .memory
  else if a.mbase.toNat % 64 ≠ 0 ∨ a.dqbase.toNat % 64 ≠ 0 ∨ a.savebase.toNat % 4096 ≠ 0
      ∨ (any fun _ e => decide (e.sbase.toNat % e.ringBytes ≠ 0)) then some .memory
  else none

/-- The last two conditions of R36. -/
def recordClash (s : State) (c d i : Nat) (a : Actor) : Option Result :=
  if i = 15 ∧ ((runtimeActors s d).any fun o => (runtimeAreas o).any fun x => (runtimeAreas a).any fun y => overlaps x y) then
    some .memory
  else if (upto 16).any fun t => match a.tagEnt t with
      | some e => e.present && lenClash s c d i t e.len
      | none => false then some .length
  else none

/-- The actor loaded (03 R33 R36): MBASE stands in the first doubleword of its scratchpad state area. -/
def loadActor (s : State) (c i : Nat) (a : Actor) : State :=
  s.modCore c fun x => { x with
    actors := tabPut x.actors i a,
    spad := if a.msize = 0 then x.spad else memPutBytes x.spad a.spoff (leBytes 8 a.mbase.toNat) }

/-- The record of ACTLOAD read through the issuer's translation. -/
def readRecord (s : State) (va : Word) : Acc (List Byte × State) :=
  if va.toNat % 64 ≠ 0 then .error (.fault .misaligned va s) else devReadAll s s.act.dom (clusterOf s.core) s.core va 9

/-- ACTLOAD (19 R302, 03 R36). -/
def actLoad (s : State) (a b : SReg) : KAns :=
  let w := s.getS b
  let c := targetCore w
  let d := targetDom w
  match heldTest s s.act.dom w 0 with
  | some r => .fail r
  | none => kernelAcc (readRecord s (s.getS a)) fun (bs, s) =>
    let i := recordIndex bs
    let x := actorOf bs
    match recordRefused s c d bs with
    | some r => .failAfter r s
    | none => kernelAcc (areasOk s d (clusterOf s.core) (actorAreas i x)) fun s =>
      match recordClash s c d i x with
      | some r => .failAfter r s
      | none => .done i (loadActor s c i x)

/-- ACTLOAD (19 R302). -/
def execActload (d a b : SReg) (s : State) : Host.Outcome State Fault Refusal :=
  kernelOp (kernelCode 0 d a b) s d fun s => actLoad s a b

/-- The messages of a spill ring read back, oldest first (03 R47); one whose slot cannot be read is as the device holds
it. -/
def ringMessages (s : State) (c d : Nat) (e : TagEnt) : List Stored → Nat → Acc (List Stored × State)
  | [], _ => .ok ([], s)
  | m :: r, n =>
    match devRead s d (clusterOf c) c (e.sbase + BitVec.ofNat 64 (64 * (n % 2 ^ e.slog))) 64 with
    | .error (.wait pl) => .error (.wait pl)
    | .error (.fault _ _ t) => match ringMessages (keepTraffic s t) c d e r (n + 1) with
      | .error x => .error x
      | .ok (l, s) => .ok (m :: l, s)
    | .ok (bs, s) =>
      let ws := wordsOf 8 bs
      match ringMessages s c d e r (n + 1) with
      | .error x => .error x
      | .ok (l, s) => .ok ({ m with msg := { m.msg with hdr := ws.headD 0, words := ws.drop 1 } } :: l, s)

/-- The pending messages of a tag at its core, the network's apart, oldest first (03 R49). -/
def tagBacklog (s : State) (c d i t : Nat) : Acc (List Stored × State) :=
  match findTag s c i t with
  | none => .ok ([], s)
  | some e => match ringMessages s c d e e.ring e.head with
    | .error x => .error x
    | .ok (ring, s) => .ok (queueOf (s.getCore c) d i t ++ ring ++ ovfOf (s.getCore c) i t, s)

/-- The pending messages of several tags. -/
def backlogOf (s : State) (c d i : Nat) : List Nat → Acc (List Stored × State)
  | [] => .ok ([], s)
  | t :: r => match tagBacklog s c d i t with
    | .error x => .error x
    | .ok (l, s) => match backlogOf s c d i r with
      | .error x => .error x
      | .ok (l', s) => .ok (l ++ l', s)

/-- Tags of an actor lose their pending messages to the homeless queue in order of arrival (19 R302): how many. -/
def evictTags (s : State) (c d i : Nat) (ts : List Nat) : Acc (Nat × State) :=
  match backlogOf s c d i ts with
  | .error x => .error x
  | .ok (l, s) =>
    let mine (m : Msg) : Bool := decide (m.dom = d) && decide (m.core = c) && decide (m.actor = i) && ts.contains m.tag
    let net := s.flight.filter fun m => m.reached && mine m
    let msgs := (sortBy (fun m => m.arrived) l).map (fun m => m.msg) ++ net
    let s := { s with flight := s.flight.filter fun m => !(m.reached && mine m) }
    let s := s.modCore c fun x => { x with store := x.store.filter (fun m => !(mine m.msg && decide (m.slot = none))),
                                           ovf := x.ovf.filter fun m => !mine m.msg }
    .ok (msgs.length, msgs.foldl sendHomeless s)

/-- An activation of an actor exists on a core (03 R37). -/
def actorBusy (s : State) (c d i : Nat) : Bool :=
  (s.coreActs c).any fun x => decide (x.2.dom = d) && decide (x.2.actor = some i)

/-- ACTUNLD (19 R302) (log 52). -/
def actUnload (s : State) (a b : SReg) : KAns :=
  let w := s.getS b
  let c := targetCore w
  let d := targetDom w
  let i := bitsOf (s.getS a) 3 0
  match heldTest s s.act.dom w 0 with
  | some r => .fail r
  | none =>
    if bitsOf (s.getS a) 63 4 ≠ 0 then .fail .format
    else if (findActor s c i).isNone then .fail .absent
    else if actorBusy s c d i then .fail .busy
    else kernelAcc (evictTags s c d i (upto 16)) fun (n, s) =>
      .done n (s.modCore c fun x => { x with actors := tabErase x.actors i, ringHead := if i = 15 then 0 else x.ringHead,
                                             ringTail := if i = 15 then 0 else x.ringTail })

/-- ACTUNLD (19 R302). -/
def execActunld (d a b : SReg) (s : State) : Host.Outcome State Fault Refusal :=
  kernelOp (kernelCode 1 d a b) s d fun s => actUnload s a b

/-- A tag's binding replaced in one step (03 R53): its ring and its counters stay where the ring stays; a ring that could
not be written is used again (R47). -/
def rebind (old new : TagEnt) : TagEnt :=
  if old.sbase = new.sbase ∧ old.slog = new.slog then
    { new with head := old.head, tail := old.tail, ring := old.ring }
  else new

/-- ACTBIND (19 R302) (log 52). -/
def actBind (s : State) (a b : SReg) : KAns :=
  let w := s.getS b
  let c := targetCore w
  let d := targetDom w
  let i := bitsOf w 23 20
  let t := bitsOf w 27 24
  match heldTest s s.act.dom w (at_ 0x1FF 20) with
  | some r => .fail r
  | none => match findTag s c i t with
    | none => .fail .absent
    | some old =>
      if w.getLsbD 28 then
        if tagGranted s c d i t then .fail .length
        else kernelAcc (evictTags s c d i [t]) fun (_, s) => .done 0 (putTag s c i t { old with present := false, head := 0, tail := 0, ring := [] })
      else kernelAcc (devReadSpan s s.act.dom (clusterOf s.core) s.core (s.getS a) 32) fun (bs, s) =>
        let new := tagOf true bs
        if !tagFormatOk bs || tagRefused t new then .failAfter .format s
        else if new.sbase.toNat % new.ringBytes ≠ 0 then .failAfter .memory s
        else kernelAcc (areaOk s d (clusterOf s.core) new.sbase new.ringBytes) fun s =>
          if lenClash s c d i t new.len then .failAfter .length s
          else if (old.sbase ≠ new.sbase ∨ old.slog ≠ new.slog) ∧ old.head ≠ old.tail then .failAfter .busy s
          else .done 0 (putTag s c i t (rebind old new))

/-- ACTBIND (19 R302). -/
def execActbind (d a b : SReg) (s : State) : Host.Outcome State Fault Refusal :=
  kernelOp (kernelCode 2 d a b) s d fun s => actBind s a b

/-- Addresses a TINV covers (05 R98): `count` 4 KiB pages from a page. -/
structure Pages where
  first : Nat
  count : Nat
  deriving DecidableEq, Repr

/-- An aligned block of 2^log bytes, by number, meets the pages. -/
def Pages.meets (p : Pages) (log n : Nat) : Bool :=
  decide (n * 2 ^ log < 4096 * (p.first + p.count)) && decide (4096 * p.first < (n + 1) * 2 ^ log)

/-- What a completed TINV has done (05 R98): the matching walk-cache and translation entries removed, the matching lines
removed from every L2 slice and every L1 data cache (R83), dirty bytes written back and kept; a prefetch translated under an
old entry is translated again. -/
def invalidate (s : State) (d : Nat) (p : Pages) (keepG : Bool) : State :=
  let line (e vl : Nat) : Bool := decide (e = d) && p.meets 7 vl
  let s := dropL1Where s fun l => line l.dom l.vl
  let s := dropL2Where s fun _ l => line l.dom l.vl
  let again (q : Pending) : Pending := match q.pref with
    | some (e, va, _, _) => if line e (vlineOf va) then { q with walked := false } else q
    | none => q
  { s with
    cores := s.cores.map fun x => (x.1, { x.2 with pending := x.2.pending.map again })
    tlb := s.tlb.filter fun t => !(decide (t.dom = d) && p.meets t.log t.vpn && !(keepG && t.g))
    walk := s.walk.filter fun w => !(decide (w.dom = d) && p.meets (levelLog (w.level + 1)) w.prefix_) }

/-- TINV (19 R302, 05 R98) (log 52). -/
def tInv (s : State) (a b : SReg) : KAns :=
  let w := s.getS b
  let va := s.getS a
  let d := bitsOf w 7 0
  let kind := bitsOf w 9 8
  let count := bitsOf w 47 16
  let ranged := decide (kind < 2)
  if bitsOf w 15 10 ≠ 0 ∨ bitsOf w 63 48 ≠ 0 ∨ (kind = 1 ∧ count = 0) ∨ (kind ≠ 1 ∧ count ≠ 0) ∨ (ranged ∧ bitsOf va 63 57 ≠ 0) then
    .fail .format
  else match domainTest s s.act.dom d with
    | some r => .fail r
    | none =>
      let p : Pages := if kind = 0 then { first := va.toNat / 4096, count := 1 }
        else if kind = 1 then { first := va.toNat / 4096, count := count }
        else { first := 0, count := 2 ^ 45 }
      .done 0 (invalidate s d p (decide (kind = 2)))

/-- TINV (19 R302) (log 52). -/
def execTinv (d a b : SReg) (s : State) : Host.Outcome State Fault Refusal :=
  kernelOp (kernelCode 3 d a b) s d fun s => tInv s a b

/-- A number in the range of a 64-bit signed word. -/
def clampSigned (lo hi x : Int) : Int := max lo (min hi x)

/-- The saved activations of a domain become due for resumption (21 R315, 23 R346): those not parked, on cores that no
eviction is taking. -/
def quotaDue (s : State) (d : Nat) : State :=
  s.allActs.foldl (fun s x =>
    match x.2.2.status with
    | .saved _ false =>
      if decide (x.2.2.dom = d) && x.2.2.due.isNone && (s.getCore x.1).evict.isNone then setDue s x.1 x.2.1 else s
    | _ => s) s

/-- QSET (19 R302, 23 R342 R346). -/
def qSet (s : State) (a b : SReg) : KAns :=
  let w := s.getS b
  let d := bitsOf w 7 0
  if bitsOf w 63 10 ≠ 0 then .fail .format
  else match domainTest s s.act.dom d with
    | some r => .fail r
    | none =>
      let v := (s.getS a).toInt
      let q := if w.getLsbD 8 then clampSigned (-(2 ^ 63)) (2 ^ 63 - 1) ((s.getDom d).qbal.toInt + v) else v
      let s := s.modDom d fun x => { x with qbal := BitVec.ofInt 64 q }
      let value := (BitVec.ofInt 56 (clampSigned (-(2 ^ 55)) (2 ^ 55 - 1) q)).toNat
      if !w.getLsbD 9 then .done value s
      else if q < 0 then .partly .state value s
      else
        let s := s.modDom d fun x => { x with held := false }
        let s := { s with cores := s.cores.map fun x => (x.1, if x.2.dom = some d then { x.2 with heldSeen := false } else x.2) }
        .done value (quotaDue s d)

/-- QSET (19 R302). -/
def execQset (d a b : SReg) (s : State) : Host.Outcome State Fault Refusal :=
  kernelOp (kernelCode 7 d a b) s d fun s => qSet s a b

/-- A mask of R356 admits a domain: itself and its kernel always. -/
def admits (mask : BitVec 256) (self other : Nat) : Bool :=
  decide (other = self) || decide (other = kernelOf self) || mask.getLsbD other

/-- Check 3 of R355 for a source domain and an entry's destination. -/
def policyOk (s : State) (src : Nat) (e : Word) (remote : Bool) : Bool :=
  let dst := epDom e
  admits (s.getDom src).send src dst && (remote || admits (s.getDom dst).accept dst src)

/-- Checks 1 and 2 of R355: the destination core is held by DDOM's context and the tag has the LEN. -/
def destTest (s : State) (e : Word) : Option Result :=
  if !domExists s (epDom e) || decide ((s.getCore (epCore e)).dom ≠ some (epDom e)) then some .state
  else match findTag s (epCore e) (epActor e) (epTag e) with
    | none => some .absent
    | some t => if t.len = epLen e then none else some .length

/-- A reserved domain number (01 R27): a request that names one fails (log 55). -/
def reservedDom (d : Nat) : Bool := decide (195 ≤ d) && decide (d ≤ 254)

/-- The tests of an entry's destination: a Lanyard peer's fields (29 R385), an egress endpoint's (25 R355), or a tag of this
package. -/
def placeTest (s : State) (e : Word) : Option Result :=
  let names := decide (epActor e ≠ 0) || decide (epTag e ≠ 0)
  if epPkg e ≠ 0 then
    if 12 < epPkg e ∨ bitsOf e 43 40 ≠ 0 ∨ names ∨ reservedDom (epDom e) then some .format else none
  else if epCore e = 4095 then
    if names then some .format else if !domExists s (epDom e) then some .state else none
  else destTest s e

/-- The tests of R355 on an entry for a source: one of a core of the package or of a host function. -/
def entryTest (s : State) (src : Nat) (e : Word) : Option Result :=
  if bitsOf e 62 56 ≠ 0 ∨ bitsOf e 20 16 ≠ 0 then some .format
  else (placeTest s e).orElse fun _ => if policyOk s src e (decide (epPkg e ≠ 0)) then none else some .policy

/-- The tests on a Lanyard ingress entry (29 R386, 25 R355). -/
def lanEntryTest (s : State) (src : Nat) (e : Word) : Option Result :=
  if bitsOf e 62 56 ≠ 0 ∨ (e.getLsbD 20 ∧ epLen e ≠ 2) ∨ epPkg e = 0 ∨ 12 < epPkg e then some .format
  else (destTest s e).orElse fun _ => if policyOk s src e false then none else some .policy

/-- The tests on a kernel's device endpoint (21 R306) (log 55). -/
def deviceEntryTest (s : State) (d i : Nat) (e : Word) : Option Result :=
  if epDom e ≠ d then some .policy
  else if bitsOf e 62 56 ≠ 0 ∨ bitsOf e 20 16 ≠ 0 ∨ epPkg e ≠ 0 ∨ epLen e ≠ 7 then some .format
  else match (if (s.getCore (epCore e)).dom = some d then findTag s (epCore e) (epActor e) (epTag e) else none) with
    | none => some .format
    | some t => if t.len ≠ 7 ∨ (i = 1 ∧ t.fire ≠ 1) then some .format else none

/-- The entry a source core value, a domain and an index name (19 R302, 21 R306, 29 R383 R386). -/
def grantEntry (s : State) (src d i : Nat) : Word :=
  if src = 4090 then (if i = 0 then (s.getDom d).notice else (s.getDom d).homeless)
  else if src = 4094 then tabGet 0 s.lanIngress (256 * d + i)
  else if src = 4095 then tabGet 0 (s.getFn (fnOf d)).ingress i
  else endpoint s src i

/-- That entry written. -/
def putEntry (s : State) (src d i : Nat) (e : Word) : State :=
  if src = 4090 then
    releaseWaiting (s.modDom d fun x => if i = 0 then { x with notice := e } else { x with homeless := e })
  else if src = 4094 then { s with lanIngress := tabPut s.lanIngress (256 * d + i) e }
  else if src = 4095 then s.modFn (fnOf d) fun f => { f with ingress := tabPut f.ingress i e }
  else setEndpoint s src i e

/-- The source that EPREQ names (19 R302): what refuses it whatever the entry. -/
def grantSource (s : State) (k src d i : Nat) : Option Result :=
  (domainTest s k d).orElse fun _ =>
    if src = 4090 then (if d ≠ k then some .authority else if 1 < i then some .format else none)
    else if src = 4094 then none
    else if src = 4095 then (if 63 < i then some .format else none)
    else if 1312 ≤ src then some .format
    else if (s.getCore src).dom ≠ some d ∨ i = 253 then some .authority
    else none

/-- The tests of a grant (21 R305 R306, 25 R355, 29 R383 R386); a trap endpoint's destination is tested as any entry's is (03
R39, 29 R385) (log 55). -/
def grantTest (s : State) (src d i : Nat) (e : Word) : Option Result :=
  if src = 4090 then deviceEntryTest s d i e
  else if src = 4094 then lanEntryTest s d e
  else if src < 1312 ∧ (i = 254 ∨ i = 255) then
    (if bitsOf e 62 56 ≠ 0 ∨ bitsOf e 20 16 ≠ 0 then some .format
     else if epDom e ≠ kernelOf d then some .policy else if epLen e ≠ 7 then some .format
     else placeTest s e)
  else entryTest s d e

/-- EPREQ (19 R302, 25 R355); a valid entry is INUSE after every other test (log 95). -/
def epReq (s : State) (a b : SReg) : KAns :=
  let w := s.getS b
  let e := s.getS a
  let src := targetCore w
  let d := targetDom w
  let i := bitsOf w 27 20
  if bitsOf w 63 29 ≠ 0 then .fail .format
  else match grantSource s s.act.dom src d i with
    | some r => .fail r
    | none =>
      let old := grantEntry s src d i
      if w.getLsbD 28 then .done i (putEntry s src d i (old &&& ~~~at_ 1 63))
      else match grantTest s src d i e with
        | some r => .fail r
        | none =>
          if epValid old then .fail .inuse
          else .done i (putEntry s src d i ((e &&& ~~~at_ 0xFFFF 0) ||| at_ 1 63))

/-- EPREQ (19 R302). -/
def execEpreq (d a b : SReg) (s : State) : Host.Outcome State Fault Refusal :=
  kernelOp (kernelCode 8 d a b) s d fun s => epReq s a b

end Sys2Proof.Machine
end

