-- ==== Sys2Proof/Machine/Sync.lean ====
section
/-!
DEFINITION. Barriers, joins, rings (17 R263-R272).
-/
namespace Sys2Proof.Machine

/-- EXPECT of a barrier block, 0 read as 1 (17 R263). -/
def barExpect (b : Nat) : Nat := max (blockWord b 0 % 2 ^ 32) 1
/-- SCOPE of a barrier block (17 R263). A block that BARINIT has not written can hold codes 5 to 7, of which the spec says
nothing; they are taken as SYSTEM (log 85). -/
def barScope (b : Nat) : Scope :=
  match blockWord b 0 / 2 ^ 32 % 8 with
  | 0 => .core | 1 => .cluster | 2 => .die | 3 => .package | _ => .system
/-- ARRIVED. -/
def barArrived (b : Nat) : Nat := blockWord b 8 % 2 ^ 32
/-- PHASE. -/
def barPhase (b : Nat) : Nat := blockWord b 16 % 2 ^ 32
/-- DEFER. -/
def barDefer (b : Nat) : Nat := blockWord b 24 % 2 ^ 32

/-- The pass rule applied until it no longer holds (17 R263). -/
def passRule (b : Nat) : Nat :=
  let e := barExpect b
  let q := barArrived b / e
  if barDefer b = 0 ∧ q ≠ 0 then blockSet32 (blockSet32 b 8 (barArrived b - q * e)) 16 (barPhase b + q) else b

/-- Whether phase `p` has passed (17 R263). -/
def phasePassed (b p : Nat) : Bool :=
  let n := (barPhase b + 2 ^ 32 - p) % 2 ^ 32
  decide (1 ≤ n) && decide (n ≤ 2 ^ 31)

/-- The Reeve jobs an activation issued that have not landed (17 R265), by number. -/
def reeveUnlanded (s : State) : List Nat :=
  let g := s.getCluster (clusterOf s.core)
  ((g.reeve ++ g.reeveBack).filter fun j => decide (j.issuer = s.act.serial)).map fun j => j.serial

/-- The fields of a barrier block that a change of its counts writes (17 R263): ARRIVED, PHASE, DEFER. -/
def barCounts : List (Nat × Nat) := [(8, 4), (16, 4), (24, 4)]

/-- BARRIVE and BARRIVED (17 R265). The block's SCOPE is read first, the release made, then the arrival counted. -/
def arriveAt (i : Instr) (s : State) (d a : SReg) (deferred : Bool) : Host.Outcome State Fault Refusal :=
  issue i s fun s =>
    let ea := s.getS a
    orTrap s (atomicAccess s ea 64 (fun s => s) fun b => (none, barScope b)) fun (sc, _, s1) =>
      let jobs := if deferred then reeveUnlanded s else []
      orTrap s (blockAccess s1 (some .both) ea 64 barCounts (fun s => release s s.core s.act.dom sc) fun b =>
        let phase := barPhase b + barArrived b / barExpect b
        let b := blockSet32 b 8 (barArrived b + 1)
        let b := if jobs.isEmpty then b else blockSet32 b 24 (barDefer b + 1)
        (some (passRule b, none), phase)) fun (phase, h, s2) =>
          let t := homeTerms s2 h ea
          let s3 := s2.setS d (BitVec.ofNat 64 phase)
          .done (if jobs.isEmpty then s3
            else { s3 with defers := s3.defers ++ [{ dom := s.act.dom, core := s.core, kernel := s.act.kernel, block := ea, jobs := jobs }] })
            .seq t

/-- BARRIVE (17 R265). -/
def execBarrive (d a : SReg) (s : State) : Host.Outcome State Fault Refusal := arriveAt (.barrive d a) s d a false
/-- BARRIVED (17 R265). -/
def execBarrived (d a : SReg) (s : State) : Host.Outcome State Fault Refusal := arriveAt (.barrived d a) s d a true

/-- The state of a phase read at the home slice (17 R266). -/
def phaseRead (s : State) (ea : Word) (p : Nat) : Acc ((Bool × Scope) × HomeLine × State) :=
  atomicAccess s ea 64 (fun s => s) fun b => (none, (phasePassed b p, barScope b))

/-- The acquire of a wait that passes, at the block's scope, with the stamps it returned checked (17 R266, 07 R129). -/
def blockAcquire (s : State) (sc : Scope) (h : HomeLine) : State :=
  checkStamps (acquire s s.core s.act.dom sc) false sc h.pl h.vl h.stamps

/-- BARWAIT (17 R266): a stall point until the phase has passed. -/
def execBarwait (a b : SReg) (s : State) : Host.Outcome State Fault Refusal :=
  issue (.barwait a b) s fun s =>
    let ea := s.getS a
    orTrap s (phaseRead s ea (bitsOf (s.getS b) 31 0)) fun ((passed, sc), h, s1) =>
      if passed then .done (blockAcquire s1 sc h) .seq (homeTerms s1 h ea)
      else .stall (.barrier ea (s.getS b)) s1

/-- BARTRY (17 R266). -/
def execBartry (d a b : SReg) (s : State) : Host.Outcome State Fault Refusal :=
  issue (.bartry d a b) s fun s =>
    let ea := s.getS a
    orTrap s (phaseRead s ea (bitsOf (s.getS b) 31 0)) fun ((passed, sc), h, s1) =>
      let s2 := s1.setS d (if passed then 1 else 0)
      .done (if passed then blockAcquire s2 sc h else s2) .seq (homeTerms s1 h ea)

/-- A barrier block initialised (17 R264): its four words written, reserved bits 0 (log 78). -/
def barBlock (b expect : Nat) (sc : Scope) : Nat :=
  blockSet (blockSet (blockSet (blockSet b 0 (sc.code.toNat * 2 ^ 32 + expect % 2 ^ 32)) 8 0) 16 0) 24 0

/-- BARINIT (17 R264). -/
def execBarinit (a b : SReg) (sc : Scope) (s : State) : Host.Outcome State Fault Refusal :=
  issue (.barinit a b sc) s fun s =>
    let ea := s.getS a
    orTrap s (blockAccess s (some .both) ea 64 [(0, 32)] (fun s => s) fun x => (some (passRule (barBlock x (bitsOf (s.getS b) 31 0) sc), none), ()))
      fun (_, h, s1) => .done s1 .seq (homeTerms s1 h ea)

/-- A join block initialised (17 R267): COUNT, EP, ICORE, IDOM, reserved bits 0 (log 78); W0 to W5 stay. -/
def joinBlock (b count ep icore idom : Nat) : Nat :=
  blockSet (blockSet b 0 (count % 2 ^ 32)) 8 (idom % 256 * 2 ^ 20 + icore % 4096 * 2 ^ 8 + ep % 256)

/-- JINIT's traps on its entry (17 R267, 21 R305). -/
def joinEntryFault (s : State) (e : Nat) : Option (Cause × Word) :=
  let ent := endpoint s s.core e
  if trapEndpoint e || !epValid ent then some (.endpoint, BitVec.ofNat 64 e)
  else if 6 < epLen ent then some (.msgType, msgTypeEval e (epLen ent) 6)
  else none

/-- JINIT (17 R267). The check of the block comes first. -/
def execJinit (d a b : SReg) (s : State) : Host.Outcome State Fault Refusal :=
  issue (.jinit d a b) s fun s =>
    let ea := s.getS a
    let e := bitsOf (s.getS d) 7 0
    let count := bitsOf (s.getS b) 31 0
    orTrap s (atomicCheck s ea 64) fun s =>
      match joinEntryFault s e with
      | some (c, v) => .fault s c v
      | none =>
        orTrap s (blockAccess s (some .both) ea 64 [(0, 16)] releasePackage fun x =>
          let y := joinBlock x count e s.core s.act.dom
          (some (y, none), continuationOf y ea)) fun (m, h, s1) =>
            let t := homeTerms s1 h ea
            .done (if count = 0 then continuationDue s1 m else s1) .seq t

/-- COUNT of a ring handle (17 R269). -/
def Ring.count (r : Ring) : Nat := bitsOf r.desc 40 37 + 1
/-- SLOT in bytes. -/
def Ring.slotBytes (r : Ring) : Nat := 64 * bitsOf r.desc 36 24
/-- BASE. -/
def Ring.base (r : Ring) : Nat := bitsOf r.desc 18 0
/-- Filled slots. -/
def Ring.filled (r : Ring) : Nat := (r.tail - r.head).toNat
/-- Free slots. -/
def Ring.free (r : Ring) : Nat := r.count - r.filled
/-- The slot of a counter value. -/
def Ring.slotOf (r : Ring) (c : BitVec 16) : Nat := c.toNat % r.count

/-- A handle of a core. -/
def findRing (s : State) (c h : Nat) : Option Ring := tabFind (s.getCore c).rings h

/-- The state with a handle of a core set. -/
def putRing (s : State) (c h : Nat) (r : Ring) : State := s.modCore c fun x => { x with rings := tabPut x.rings h r }

/-- Whether a Splice job names a handle. -/
def SpliceOp.names (o : SpliceOp) (h : Nat) : Bool :=
  match o with
  | .mma a b | .mmar a b | .mmarLast a b => decide (a = h) || decide (b = h)
  | .mzero => false
  | .mrdacc a _ _ => decide (a = h)

/-- Whether an engine job of a core that names a handle has not completed (17 R270). -/
def ringInUse (s : State) (c h : Nat) : Bool :=
  let g := s.getCluster (clusterOf c)
  ((g.splice ++ g.spliceBack).any fun j => decide (j.core = c) && j.op.names h)
    || ((g.reeve ++ g.reeveBack).any fun j => decide (j.core = c) && decide (bitsOf j.ctl 38 37 = 3) && decide (bitsOf j.ctl 51 48 = h))

/-- Whether a descriptor is accepted on a core (17 R269 R270). -/
def descOk (c : Nat) (w : Word) : Bool :=
  let r : Ring := { desc := w, head := 0, tail := 0, meta_ := [], born := 0 }
  onlyFields w [(40, 37), (36, 24), (18, 0)] && decide (r.base % 64 = 0) && decide (r.slotBytes ≠ 0)
    && decide (r.base + r.count * r.slotBytes ≤ spadSize c)

/-- RDEF (17 R270). -/
def execRdef (h : HNum) (b : SReg) (s : State) : Host.Outcome State Fault Refusal :=
  issue (.rdef h b) s fun s =>
    let w := s.getS b
    if !descOk s.core w || ringInUse s s.core h.toNat then .trap .ring (h.setWidth 64)
    else
      let r : Ring := { desc := w, head := 0, tail := 0, meta_ := List.replicate 16 0, born := s.issues }
      plain (putRing s s.core h.toNat r)

/-- A wait on a handle (17 R271). -/
def ringWait (i : Instr) (s : State) (h : HNum) (n : BitVec 4) (empty : Bool) : Host.Outcome State Fault Refusal :=
  issue i s fun s =>
    let m := n.toNat + 1
    match findRing s s.core h.toNat with
    | none => .trap .ring (h.setWidth 64)
    | some r =>
      if r.count < m then .trap .ring (h.setWidth 64)
      else if m ≤ (if empty then r.free else r.filled) then plain s
      else .stall (.ring empty h.toNat m) s

/-- RWAITF (17 R271). -/
def execRwaitf (h : HNum) (n : BitVec 4) (s : State) : Host.Outcome State Fault Refusal := ringWait (.rwaitf h n) s h n false
/-- RWAITE (17 R271). -/
def execRwaite (h : HNum) (n : BitVec 4) (s : State) : Host.Outcome State Fault Refusal := ringWait (.rwaite h n) s h n true

/-- RADVH (17 R271). -/
def execRadvh (h : HNum) (n : BitVec 4) (s : State) : Host.Outcome State Fault Refusal :=
  issue (.radvh h n) s fun s =>
    let m := n.toNat + 1
    match findRing s s.core h.toNat with
    | none => .trap .ring (h.setWidth 64)
    | some r =>
      if r.filled < m then .trap .ring (h.setWidth 64)
      else plain (putRing s s.core h.toNat { r with head := r.head + BitVec.ofNat 16 m })

/-- RADVT (17 R271). -/
def execRadvt (h : HNum) (n : BitVec 4) (s : State) : Host.Outcome State Fault Refusal :=
  issue (.radvt h n) s fun s =>
    let m := n.toNat + 1
    match findRing s s.core h.toNat with
    | none => .trap .ring (h.setWidth 64)
    | some r =>
      if r.free < m then .trap .ring (h.setWidth 64)
      else plain (putRing s s.core h.toNat { r with tail := r.tail + BitVec.ofNat 16 m })

/-- The word RINFO writes (17 R272). Of an undefined handle the spec gives DEFINED and COUNTM1 alone; HEAD and TAIL are 0 too
(log 86). -/
def ringInfo (s : State) (c h : Nat) : Word :=
  match findRing s c h with
  | none => 0
  | some r => at_ 1 36 ||| at_ (r.count - 1) 32 ||| at_ r.tail.toNat 16 ||| at_ r.head.toNat 0

/-- RINFO (17 R272). -/
def execRinfo (d : SReg) (h : HNum) (s : State) : Host.Outcome State Fault Refusal :=
  issue (.rinfo d h) s fun s => plain (s.setS d (ringInfo s s.core h.toNat))

end Sys2Proof.Machine
end

