-- ==== Sys2Proof/Machine/Jobs.lean ====
section
/-!
DEFINITION. Engine jobs as both engines share them (19 R273-R277 R287): ids, job tables, status words, ends.
-/
namespace Sys2Proof.Machine

/-- A core's index within its cluster or group (01 R17). -/
def coreInCluster (c : Nat) : Nat := c % 8

/-- A status word (19 R275). -/
def statusWord (progress cause : Nat) (sat : Bool) (state : Nat) : Word :=
  at_ (progress % 2 ^ 40) 24 ||| at_ cause 16 ||| at_ (flag sat) 8 ||| at_ state 0

/-- STATE of a status word (19 R275). -/
def statusState (w : Word) : Nat := bitsOf w 2 0

/-- The job table of a core in an engine (19 R274). -/
def jobTable (x : Core) (splice : Bool) : JobTable := if splice then x.spliceTab else x.reeveTab

/-- The core with a job table written. -/
def putJobTable (x : Core) (splice : Bool) (t : JobTable) : Core :=
  if splice then { x with spliceTab := t } else { x with reeveTab := t }

/-- The id the next accepted job of a core gets (19 R274). -/
def nextJobId (s : State) (c : Nat) (splice : Bool) : Nat :=
  coreInCluster c * 8192 + (jobTable (s.getCore c) splice).seq % 8192

/-- A job is accepted: its id enters the table with a state, the oldest of more than 256 leaves, the sequence number
advances (19 R274). -/
def tableAccept (s : State) (c : Nat) (splice : Bool) (state : Nat) : State :=
  let id := nextJobId s c splice
  s.modCore c fun x =>
    let t := jobTable x splice
    putJobTable x splice { seq := (t.seq + 1) % 8192,
                           jobs := ((id, statusWord 0 0 false state) :: t.jobs.filter fun j => decide (j.1 ≠ id)).take 256 }

/-- A job's status written in the table, if the id is there. -/
def setStatus (s : State) (c : Nat) (splice : Bool) (id : Nat) (w : Word) : State :=
  s.modCore c fun x =>
    let t := jobTable x splice
    putJobTable x splice { t with jobs := mapIf (fun j => decide (j.1 = id)) (fun j => (j.1, w)) t.jobs }

/-- The status a job id register names (19 R287); 0 where it is unknown. -/
def jobStatus (s : State) (c : Nat) (splice : Bool) (w : Word) : Word :=
  let id := bitsOf w 15 0
  if bitsOf w 63 16 ≠ 0 ∨ id / 8192 ≠ coreInCluster c then 0
  else (((jobTable (s.getCore c) splice).jobs.find? fun j => decide (j.1 = id)).map fun j => j.2).getD 0

/-- SCORE of an engine (03 R40). -/
def engineScore (splice : Bool) : Nat := if splice then 4092 else 4091

/-- The scope an observed job's acquire has (07 R118): Splice jobs are at CORE scope; a Reeve job's is in its control word. -/
def jobScope (s : State) (c : Nat) (splice : Bool) (id : Nat) : Scope :=
  if splice then .core else tabGet .package (s.getCore c).reeveScopes id

/-- A message sent through an entry of a core as it stood before, `e` (19 R276): where it has been replaced since, it goes
where `e` leads, and the new entry stays as it is (log 107). -/
def sendThrough (s : State) (c i : Nat) (e : Word) (send : State → State) : State :=
  let now := endpoint s c i
  if now >>> 16 = e >>> 16 then send s else setEndpoint (send (setEndpoint s c i e)) c i now

/-- A job's end becomes visible (19 R276): its status, its completion message, at most one JOB_ERROR. `e`, its completion
entry as it stood when the job ended; one that names a port whose link is down carries no message (29 R394) (log 114). -/
def jobVisible (s : State) (u : Unseen) (e : Word) : State :=
  let s := setStatus s u.core u.splice u.id u.status
  let ok := epValid e && decide (epLen e = u.words.length) && !portDown s e
  let s := if u.notify && ok then
      sendThrough s u.core u.ep e fun s =>
        deviceSendAt (some (jobScope s u.core u.splice u.id)) s u.core u.ep u.dom (engineScore u.splice) u.dom (clusterOf u.core) u.words
    else s
  let unsent := u.notify && !ok
  if statusState u.status = 4 || unsent then
    notice s (kernelOf u.dom) (engineScore u.splice)
      [6, if u.splice then 1 else 2, BitVec.ofNat 64 u.id, BitVec.ofNat 64 u.core, u.status, BitVec.ofNat 64 u.dom,
       BitVec.ofNat 64 (flag unsent)]
  else s

/-- A job has ended (19 R276, 27 R372): unseen while the issuing context is under a debug hold, with its
completion entry as it stands. -/
def jobEnded (s : State) (u : Unseen) : State :=
  if groupHeld s u.dom (clusterOf u.core) then
    s.modCluster (clusterOf u.core) fun g => { g with unseen := g.unseen ++ [(u, endpoint s u.core u.ep)] }
  else jobVisible s u (endpoint s u.core u.ep)

/-- A Reeve job has landed (17 R265): every deferred arrival that waits for it, by its number, no longer does. -/
def jobLanded (s : State) (n : Nat) : State :=
  { s with defers := s.defers.map fun d => { d with jobs := d.jobs.filter fun j => decide (j ≠ n) } }

/-- Jobs of restored contexts take the places that are free in their engines' queues, in their order (01 R18, 21 R323)
(log 56). -/
def admitBack (s : State) (g : Nat) : State :=
  s.modCluster g fun x =>
    let n := 16 - x.splice.length
    let m := 16 - x.reeve.length
    { x with splice := x.splice ++ x.spliceBack.take n, spliceBack := x.spliceBack.drop n,
             reeve := x.reeve ++ x.reeveBack.take m, reeveBack := x.reeveBack.drop m }

/-- A trap ENGINE_OPERAND with a code of R277. -/
def operandTrap (bad : Bool) (code : Nat) : Option (Cause × Word) := if bad then some (.engineOperand, BitVec.ofNat 64 code) else none

/-- RING for an undefined handle (19 R282). -/
def ringTrap (s : State) (h : HNum) : Option (Cause × Word) :=
  if (findRing s s.core h.toNat).isNone then some (.ring, h.setWidth 64) else none

/-- The first trap of an engine instruction's list. -/
def engineGuard (l : List (Option (Cause × Word))) (f : Unit → Eff) : Eff :=
  match l.findSome? fun x => x with
  | some (c, v) => .trap c v
  | none => f ()

/-- Tests of a completion entry (19 R281 R290, 21 R305): ENDPOINT, one that names a port whose link is down among them
(29 R394), then MSG_TYPE. -/
def notifyTrap (s : State) (notify : Bool) (ep len : Nat) : Option (Cause × Word) :=
  let e := endpoint s s.core ep
  if !notify then none
  else if trapEndpoint ep || !epValid e || portDown s e then some (.endpoint, BitVec.ofNat 64 ep)
  else if epLen e ≠ len then some (.msgType, msgTypeEval ep (epLen e) len)
  else none

/-- A trap endpoint named where an endpoint is given (21 R305). -/
def reservedEp (i : Nat) : Option (Cause × Word) := if trapEndpoint i then some (.endpoint, BitVec.ofNat 64 i) else none

/-- A status read that reports an end is an acquire at the job's scope (19 R287). -/
def observeJob (s : State) (splice : Bool) (id : Nat) (w : Word) : State :=
  if statusState w = 3 ∨ statusState w = 4 then acquire s s.core s.act.dom (jobScope s s.core splice id) else s

/-- MPOLL and CPOLL (19 R287). -/
def jobPoll (i : Instr) (s : State) (d a : SReg) (splice : Bool) : Host.Outcome State Fault Refusal :=
  issue i s fun s =>
    let w := jobStatus s s.core splice (s.getS a)
    plain (observeJob (s.setS d w) splice (bitsOf (s.getS a) 15 0) w)

/-- MWAIT and CWAIT (19 R287): a stall point while STATE is 1 or 2. -/
def jobWait (i : Instr) (s : State) (d a : SReg) (splice : Bool) : Host.Outcome State Fault Refusal :=
  issue i s fun s =>
    let w := jobStatus s s.core splice (s.getS a)
    if statusState w = 1 ∨ statusState w = 2 then .stall (.job splice (bitsOf (s.getS a) 15 0)) s
    else plain (observeJob (s.setS d w) splice (bitsOf (s.getS a) 15 0) w)

/-- MWAIT (19 R287). -/
def execMwait (d a : SReg) (s : State) : Host.Outcome State Fault Refusal := jobWait (.mwait d a) s d a true
/-- MPOLL (19 R287). -/
def execMpoll (d a : SReg) (s : State) : Host.Outcome State Fault Refusal := jobPoll (.mpoll d a) s d a true
/-- CWAIT (19 R287). -/
def execCwait (d a : SReg) (s : State) : Host.Outcome State Fault Refusal := jobWait (.cwait d a) s d a false
/-- CPOLL (19 R287). -/
def execCpoll (d a : SReg) (s : State) : Host.Outcome State Fault Refusal := jobPoll (.cpoll d a) s d a false

end Sys2Proof.Machine
end

