-- ==== Sys2Proof/Machine/Mem.lean ====
section
/-!
DEFINITION. Scalar memory access: loads, stores, LDA, STL, PREF, the cache operations, the scratchpad (13 R208-R217).
-/
namespace Sys2Proof.Machine

/-- The effective address of an I or S form (13 R208). -/
def ea (s : State) (a : SReg) (imm : BitVec 13) : Word := s.getS a + sext13 imm

/-- The low `8 n` bits of a number sign-extended to a register. -/
def sextBytes (n v : Nat) : Word :=
  if v < 2 ^ (8 * n - 1) then BitVec.ofNat 64 v else BitVec.ofNat 64 (v + 2 ^ 64 - 2 ^ (8 * n))

/-- A plain load (13 R210). -/
def loadOp (i : Instr) (s : State) (d a : SReg) (imm : BitVec 13) (n : Nat) (signed : Bool) : Host.Outcome State Fault Refusal :=
  issue i s fun s => orTrap s (loadBytes s (ea s a imm) n) fun (v, _, s') =>
    plain (s'.setS d (if signed then sextBytes n v else BitVec.ofNat 64 v))

/-- A plain store (13 R211). -/
def storeOp (i : Instr) (s : State) (a b : SReg) (imm : BitVec 13) (n : Nat) : Host.Outcome State Fault Refusal :=
  issue i s fun s => orTrap s (storeBytes s (ea s a imm) n ((s.getS b).toNat % 2 ^ (8 * n)) none) fun s' => plain s'

/-- LD.B (13 R210). -/
def execLdB (d a : SReg) (imm : BitVec 13) (s : State) : Host.Outcome State Fault Refusal := loadOp (.ldB d a imm) s d a imm 1 true
/-- LD.H (13 R210). -/
def execLdH (d a : SReg) (imm : BitVec 13) (s : State) : Host.Outcome State Fault Refusal := loadOp (.ldH d a imm) s d a imm 2 true
/-- LD.W (13 R210). -/
def execLdW (d a : SReg) (imm : BitVec 13) (s : State) : Host.Outcome State Fault Refusal := loadOp (.ldW d a imm) s d a imm 4 true
/-- LD.D (13 R210). -/
def execLdD (d a : SReg) (imm : BitVec 13) (s : State) : Host.Outcome State Fault Refusal := loadOp (.ldD d a imm) s d a imm 8 false
/-- LD.BN (13 R210). -/
def execLdBn (d a : SReg) (imm : BitVec 13) (s : State) : Host.Outcome State Fault Refusal := loadOp (.ldBn d a imm) s d a imm 1 false
/-- LD.HN (13 R210). -/
def execLdHn (d a : SReg) (imm : BitVec 13) (s : State) : Host.Outcome State Fault Refusal := loadOp (.ldHn d a imm) s d a imm 2 false
/-- LD.WN (13 R210). -/
def execLdWn (d a : SReg) (imm : BitVec 13) (s : State) : Host.Outcome State Fault Refusal := loadOp (.ldWn d a imm) s d a imm 4 false
/-- ST.B (13 R211). -/
def execStB (a b : SReg) (imm : BitVec 13) (s : State) : Host.Outcome State Fault Refusal := storeOp (.stB a b imm) s a b imm 1
/-- ST.H (13 R211). -/
def execStH (a b : SReg) (imm : BitVec 13) (s : State) : Host.Outcome State Fault Refusal := storeOp (.stH a b imm) s a b imm 2
/-- ST.W (13 R211). -/
def execStW (a b : SReg) (imm : BitVec 13) (s : State) : Host.Outcome State Fault Refusal := storeOp (.stW a b imm) s a b imm 4
/-- ST.D (13 R211). -/
def execStD (a b : SReg) (imm : BitVec 13) (s : State) : Host.Outcome State Fault Refusal := storeOp (.stD a b imm) s a b imm 8

/-- LDA's read at a scope (13 R212): through the L1 at CORE scope, at the home slice at CLUSTER and wider. The value, the
stamps it returned, the physical line. -/
def acquireLoad (s : State) (va : Word) (n : Nat) (sc : Scope) : Acc (Nat × Tab Stamp × Nat × State) :=
  if sc = .core then
    match loadBytes s va n with
    | .error e => .error e
    | .ok (v, st, s) => .ok (v, st, ((findL1 s s.core s.act.dom (vlineOf va)).map fun l => l.pl).getD 0, s)
  else
    match homeAccess s .load (some .load) va n (fun s => s) (fun v => (none, v)) with
    | .error e => .error e
    | .ok (v, h, s) => .ok (v, h.stamps, h.pl, chargeMove s s.act.dom s.core (homeSlice s h.pl s.act.dom (vlineOf va)))

/-- The core's own L1 line serves `n` bytes of an access (05 R81). -/
def ownLine (s : State) (va : Word) (n : Nat) : Bool :=
  let m := byteMask (va.toNat % 128) n
  ((findL1 s s.core s.act.dom (vlineOf va)).map fun l => decide (l.valid &&& m = m)).getD false

/-- LDA (13 R212): the value, the acquire's cache action, the stamps checked (07 R129). -/
def execLda (d a : SReg) (wd : Width) (sc : Scope) (s : State) : Host.Outcome State Fault Refusal :=
  issue (.lda d a wd sc) s fun s => orTrap s (acquireLoad s (s.getS a) (widthBytes wd) sc) fun (v, st, pl, s') =>
    plain (checkStamps (acquire (s'.setS d (BitVec.ofNat 64 v)) s'.core s'.act.dom sc) (decide (sc = .core) && ownLine s (s.getS a) (widthBytes wd)) sc pl (vlineOf (s.getS a)) st)

/-- STL at CLUSTER scope or wider (13 R213): after the release the stamped bytes go through to the home slice; a copy in
this L1, under this or another address of the line, takes them, clean. -/
def storeThrough (s : State) (va : Word) (n x : Nat) (sc : Scope) : Acc State :=
  match addrFault va n with
  | some (c, v) => .error (.fault c v s)
  | none =>
    match homeCheck s .store va with
    | .error e => .error e
    | .ok (p, t) =>
      if watchHit s .store va n then .error (.fault .watchpoint va t)
      else
        let c := s.core
        let d := s.act.dom
        let off := va.toNat % 128
        let m := byteMask off n
        let st : Stamp := { core := c, scope := sc }
        let (_, h, u) := servedAt (release t c d sc) c d (clusterOf c) va p
          fun _ => (lineOf off n x, m, (fun _ => some st), ())
        let u := addPending (chargeMove u d c (homeSlice u h.pl d (vlineOf va))) c h.da
        .ok (u.modCore c fun y => { y with
          l1 := mapIf (fun l => decide (l.dom = d) && (decide (l.vl = vlineOf va) || decide (l.pl = h.pl)))
            (fun l => { l with data := mergeLine l.data (lineOf off n x) m, valid := l.valid ||| m,
                               dirty := l.dirty &&& ~~~m, stamps := stampsAfter l.stamps m fun _ => some st }) y.l1 })

/-- STL (13 R213, 07 R128). -/
def execStl (a b : SReg) (wd : Width) (sc : Scope) (s : State) : Host.Outcome State Fault Refusal :=
  issue (.stl a b wd sc) s fun s =>
    let x := (s.getS b).toNat % 2 ^ (8 * (widthBytes wd))
    if sc = .core then
      orTrap s (storeBytes s (s.getS a) (widthBytes wd) x (some { core := s.core, scope := .core })) fun s' => plain s'
    else orTrap s (storeThrough s (s.getS a) (widthBytes wd) x sc) fun s' => plain s'

/-- Whether every check of R100 that a prefetch is held to passes (13 R214). -/
def prefetchOk (s : State) (va : Word) (need : Need) : Bool :=
  match lineCheck s s.core s.act.dom s.act.kernel need va 1 with
  | .ok _ | .error (.wait _) => true
  | .error (.fault _ _ _) => false

/-- PREF (13 R214): the request joins the core's outstanding ones, or is dropped. -/
def execPref (k : PrefKind) (a : SReg) (imm : BitVec 13) (s : State) : Host.Outcome State Fault Refusal :=
  issue (.pref k a imm) s fun s =>
    let va := ea s a imm
    if prefetchOk s va (if k = .write then .store else .load) then
      plain (s.modCore s.core fun c => { c with
        pending := c.pending ++ [{ da := none, pref := some (s.act.dom, va, s.act.kernel, k), walked := false, reads := [] }] })
    else plain s

/-- The check of a cache operation (13 R215): the bits of this L1's line, else a translation that fills nothing and has no
DATA_LOST test; the physical line. -/
def cacheOpLine (s : State) (va : Word) : Acc (Nat × State) :=
  let d := s.act.dom
  if bitsOf va 63 57 ≠ 0 then .error (.fault .pageAbsent (memEval va) s)
  else match findL1 s s.core d (vlineOf va) with
  | some l => if l.perms.allow .store s.act.kernel then .ok (l.pl, s) else .error (.fault .pagePerm (memEval va) s)
  | none =>
    match leafCheck s d (clusterOf s.core) s.act.kernel .store va with
    | .error e => .error e
    | .ok (l, s) => .ok (l.pa / 128, s)

/-- A cache operation's action on every target L1 (13 R215): this core's, and those within the scope that hold the
physical line under a tag of the domain. -/
def onTargets (s : State) (pl : Nat) (sc : Scope) (f : State → Nat → L1Line → State) : State :=
  s.cores.foldl (fun s x =>
    if x.1 = s.core ∨ covers sc s.core x.1 then
      x.2.l1.foldl (fun s l => if l.pl = pl ∧ l.dom = s.act.dom then f s x.1 l else s) s
    else s) s

/-- An L2 line written back to memory and kept (13 R215). -/
def cleanL2 (s : State) (pl : Nat) : State :=
  match tabFind s.l2 pl with
  | none => s
  | some l =>
    if l.dirty then
      let s := writeUnder s l.keyid l.gen pl l.data
      chargeDram { s with l2 := tabPut s.l2 pl { l with dirty := false } } l.dom (homeOf l.dom l.vl) (128 * pl) 2
    else s

/-- CCLEAN and CFLUSH at SYSTEM scope first back-invalidate an outside host's holding (13 R215, 05 R110). -/
def systemAction (s : State) (pl : Nat) (sc : Scope) (f : State → Eff) : Eff :=
  if sc = .system ∧ (tabFind s.ext pl).isSome then orTrap s (.error (.wait pl) : Acc Unit) fun _ => plain s else f s

/-- CCLEAN (13 R215). -/
def execCclean (a : SReg) (sc : Scope) (s : State) : Host.Outcome State Fault Refusal :=
  issue (.cclean a sc) s fun s => orTrap s (cacheOpLine s (s.getS a)) fun (pl, s') =>
    systemAction s' pl sc fun s' =>
      let s' := onTargets s' pl sc cleanL1
      plain (if sc = .system then cleanL2 s' pl else s')

/-- CINV (13 R215 R216). -/
def execCinv (a : SReg) (sc : Scope) (s : State) : Host.Outcome State Fault Refusal :=
  issue (.cinv a sc) s fun s => orTrap s (cacheOpLine s (s.getS a)) fun (pl, s') =>
    plain (onTargets s' pl sc fun s c l => dropL1 s c l.dom l.vl)

/-- CFLUSH (13 R215). -/
def execCflush (a : SReg) (sc : Scope) (s : State) : Host.Outcome State Fault Refusal :=
  issue (.cflush a sc) s fun s => orTrap s (cacheOpLine s (s.getS a)) fun (pl, s') =>
    systemAction s' pl sc fun s' =>
      let s' := onTargets s' pl sc flushL1
      plain (if sc = .system && (tabFind s'.l2 pl).isSome then dropL2 s' pl else s')

/-- A scratchpad access with its traps (13 R217). -/
def spadOp (i : Instr) (s : State) (a : SReg) (imm : BitVec 13) (n : Nat) (f : State → Nat → State) :
    Host.Outcome State Fault Refusal :=
  issue i s fun s =>
    match spadFault s (ea s a imm) n with
    | some (c, v) => .trap c v
    | none => plain (f s (ea s a imm).toNat)

/-- SPLD.W (13 R217). -/
def execSpldW (d a : SReg) (imm : BitVec 13) (s : State) : Host.Outcome State Fault Refusal :=
  spadOp (.spldW d a imm) s a imm 4 fun s o => s.setS d (sextBytes 4 (spadLoad s o 4))
/-- SPLD.D (13 R217). -/
def execSpldD (d a : SReg) (imm : BitVec 13) (s : State) : Host.Outcome State Fault Refusal :=
  spadOp (.spldD d a imm) s a imm 8 fun s o => s.setS d (BitVec.ofNat 64 (spadLoad s o 8))
/-- SPST.W (13 R217). -/
def execSpstW (a b : SReg) (imm : BitVec 13) (s : State) : Host.Outcome State Fault Refusal :=
  spadOp (.spstW a b imm) s a imm 4 fun s o => spadStore s o 4 ((s.getS b).toNat % 2 ^ 32)
/-- SPST.D (13 R217). -/
def execSpstD (a b : SReg) (imm : BitVec 13) (s : State) : Host.Outcome State Fault Refusal :=
  spadOp (.spstD a b imm) s a imm 8 fun s o => spadStore s o 8 (s.getS b).toNat

end Sys2Proof.Machine
end

