-- ==== Sys2Proof/Machine/Vector.lean ====
section
/-!
DEFINITION. What the vector instructions share (11 R174 R175 R178 R179, 15 R229): tags and lanes, the tag tests in their
order, predicated writes, flags.
-/
namespace Sys2Proof.Machine

/-- Lanes of a tag (11 R174). -/
def tagLanes : Tag → Nat
  | .none => 0 | .i8 | .n8 => 16 | .i16 | .n16 => 8 | .i32 | .n32 => 4 | .i64 | .n64 => 2
  | .f16 | .bf16 => 8 | .f32 => 4 | .f64 => 2 | .c8 => 16 | .c6 => 21 | .c4 => 32

/-- Bits of a lane of a tag (11 R174, 09 R147). -/
def tagWidth : Tag → Nat
  | .none => 0 | .i8 | .n8 => 8 | .i16 | .n16 => 16 | .i32 | .n32 => 32 | .i64 | .n64 => 64
  | .f16 | .bf16 => 16 | .f32 => 32 | .f64 => 64 | .c8 => 8 | .c6 => 6 | .c4 => 4

/-- The class INT (15 R229). -/
def tagInt (t : Tag) : Bool := decide (1 ≤ t.code.toNat) && decide (t.code.toNat ≤ 8)
/-- The class FLT (15 R229). -/
def tagFlt (t : Tag) : Bool := decide (9 ≤ t.code.toNat) && decide (t.code.toNat ≤ 12)
/-- The class CODE (15 R229). -/
def tagCode (t : Tag) : Bool := decide (13 ≤ t.code.toNat)
/-- A signed integer tag (11 R174). -/
def tagSigned (t : Tag) : Bool := tagInt t && decide (t.code.toNat % 2 = 1)

/-- A tag's 128 bits: bits [127:126] of a C6 register are zero (09 R147). -/
def maskTag (t : Tag) (bits : Quad) : Quad := if t = .c6 then bits &&& (BitVec.allOnes 126).setWidth 128 else bits

/-- The floating format of a tag (09 R138). -/
def tagFmt : Tag → Fmt
  | .f16 => fmtF16 | .bf16 => fmtBF16 | .f64 => fmtF64 | _ => fmtF32

/-- Lane `i` of 128 bits under a tag (11 R174, 09 R147). -/
def lane (t : Tag) (q : Quad) (i : Nat) : Nat := (q.toNat >>> (tagWidth t * i)) % 2 ^ tagWidth t

/-- Lanes of `w` bits packed, lane 0 lowest. -/
def packLanes (w : Nat) (l : List Nat) : Quad := BitVec.ofNat 128 (l.foldr (fun x acc => x % 2 ^ w + 2 ^ w * acc) 0)

/-- A lane's integer (15 R229): signed for I tags, unsigned otherwise. -/
def laneInt (t : Tag) (x : Nat) : Int :=
  if tagSigned t && decide (2 ^ (tagWidth t - 1) ≤ x) then (x : Int) - 2 ^ tagWidth t else x

/-- An integer kept to `w` bits (09 R136). -/
def wrapTo (w : Nat) (x : Int) : Nat := (x % 2 ^ w).toNat

/-- The least integer of a tag's lanes. -/
def tagMin (t : Tag) : Int := if tagSigned t then -(2 ^ (tagWidth t - 1)) else 0
/-- The greatest integer of a tag's lanes. -/
def tagMax (t : Tag) : Int := if tagSigned t then 2 ^ (tagWidth t - 1) - 1 else 2 ^ tagWidth t - 1

/-- An exact integer clamped to a tag's range, SAT where it clamps (09 R136). -/
def satTo (t : Tag) (x : Int) : Nat × Nat :=
  let y := clampInt (tagMin t) (tagMax t) x
  (wrapTo (tagWidth t) y, if y = x then 0 else flagSAT)

/-- A trap's cause and EVAL. -/
abbrev TrapVal := Cause × Word

/-- The first trap of a list in its order. -/
def firstTrap : List (Option TrapVal) → Option TrapVal
  | [] => none
  | some t :: _ => some t
  | none :: r => firstTrap r

/-- An effect behind its traps, tested in order. -/
def guarded (l : List (Option TrapVal)) (f : Unit → Eff) : Eff :=
  match firstTrap l with
  | some (c, v) => .trap c v
  | none => f ()

/-- Rule 1 of R178: a NONE source (log 27). -/
def noneTrap (s : State) (r : VNum) : Option TrapVal :=
  if (s.getV r).tag = .none then some (.tagNone, r.setWidth 64) else none

/-- Rule 2 of R178: unequal tags (log 29). -/
def pairTrap (a b : Tag) : Option TrapVal :=
  if a = b then none else some (.tagMismatch, at_ a.code.toNat 0 ||| at_ b.code.toNat 4)

/-- Rule 3 of R178: a tag the instruction does not accept (log 29). -/
def acceptTrap (ok : Bool) (t : Tag) : Option TrapVal := if ok then none else some (.tagMismatch, at_ t.code.toNat 0)

/-- R229: an operand that must carry a tag (log 29). -/
def requireTrap (t req : Tag) : Option TrapVal := pairTrap t req

/-- A condition of the entry's own. -/
def condTrap (bad : Bool) (c : Cause) (v : Word) : Option TrapVal := if bad then some (c, v) else none

/-- vd as a source of a predicated write: NONE (11 R179). -/
def predNone (s : State) (p : PNum) (vd : VNum) : Option TrapVal := if p = 0 then none else noneTrap s vd

/-- vd as a source of a predicated write whose result carries the sources' tag (11 R178 R179). -/
def predPair (s : State) (p : PNum) (vd : VNum) (t : Tag) : Option TrapVal :=
  if p = 0 then none else pairTrap t (s.getV vd).tag

/-- vd as a source of a predicated write whose result carries a tag the entry names: it must carry that tag (11 R179, 15 R229)
(log 28). -/
def predNeed (s : State) (p : PNum) (vd : VNum) (t : Tag) : Option TrapVal :=
  if p = 0 then none else requireTrap (s.getV vd).tag t

/-- Flags raised by an instruction, added to FSTAT (09 R142). -/
def raiseFlags (s : State) (fl : Nat) : State :=
  if fl = 0 then s else s.modRegs fun r => { r with fstat := r.fstat ||| BitVec.ofNat 64 fl }

/-- The lanes of a result (11 R179): an enabled lane's value and flags, a disabled lane of vd's bits. -/
def laneResults (p : BitVec 32) (old : Quad) (t : Tag) (f : Nat → Nat × Nat) : List (Nat × Nat) :=
  (upto (tagLanes t)).map fun i => if p.getLsbD i then f i else (lane t old i, 0)

/-- A vector register written by enabled lanes under a predicate register, with the flags they raise. -/
def writeLanes (s : State) (p : PNum) (vd : VNum) (t : Tag) (f : Nat → Nat × Nat) : State :=
  let r := laneResults (s.getP p) (s.getV vd).bits t f
  raiseFlags (s.setV vd { bits := packLanes (tagWidth t) (r.map fun x => x.1), tag := t })
    (r.foldl (fun acc x => acc ||| x.2) 0)

/-- A vector register written whole. -/
def writeWhole (s : State) (vd : VNum) (t : Tag) (f : Nat → Nat × Nat) : State := writeLanes s 0 vd t f

/-- The rounding mode in force (09 R141). -/
def modeOf (s : State) : RMode := rmodeOf s.act.regs.fmode

/-- A predicated operation on two sources of one tag (15 R229 R232): lanes of INT by `fi`, of FLT by `ff`. -/
def vecBinary (i : Instr) (s : State) (p : PNum) (vd va vb : VNum) (ok : Tag → Bool)
    (f : Tag → RMode → Nat → Nat → Nat × Nat) : Host.Outcome State Fault Refusal :=
  issue i s fun s =>
    let t := (s.getV va).tag
    guarded [noneTrap s va, noneTrap s vb, predNone s p vd, pairTrap t (s.getV vb).tag, predPair s p vd t,
             acceptTrap (ok t) t] fun _ =>
      plain (writeLanes s p vd t fun j => f t (modeOf s) (lane t (s.getV va).bits j) (lane t (s.getV vb).bits j))

/-- A predicated operation on one source. -/
def vecUnary (i : Instr) (s : State) (p : PNum) (vd va : VNum) (ok : Tag → Bool)
    (f : Tag → RMode → Nat → Nat × Nat) : Host.Outcome State Fault Refusal :=
  issue i s fun s =>
    let t := (s.getV va).tag
    guarded [noneTrap s va, predNone s p vd, predPair s p vd t, acceptTrap (ok t) t] fun _ =>
      plain (writeLanes s p vd t fun j => f t (modeOf s) (lane t (s.getV va).bits j))

/-- INT or FLT (15 R232). -/
def intFlt (t : Tag) : Bool := tagInt t || tagFlt t
/-- Every tag but NONE (15 R237). -/
def anyTag (t : Tag) : Bool := decide (t ≠ .none)

end Sys2Proof.Machine
end

