-- ==== Sys2Proof/Machine/VecMem.lean ====
section
/-!
DEFINITION. Vector memory access (15 R230 R231).
-/
namespace Sys2Proof.Machine

/-- s[A] + 16 × sext(OFF9) (15 R230). -/
def eaVec (s : State) (a : SReg) (off : BitVec 9) : Word := s.getS a + (off.signExtend 64 <<< 4)

/-- A vector register's 128 bits under a tag (09 R147). -/
def vregOf (t : Tag) (bits : Quad) : VReg := { bits := maskTag t bits, tag := t }

/-- VLD (15 R230). -/
def execVld (t : Tag) (vd : VNum) (a : SReg) (off : BitVec 9) (s : State) : Host.Outcome State Fault Refusal :=
  issue (.vld t vd a off) s fun s => orTrap s (loadBytes s (eaVec s a off) 16) fun (v, _, s') =>
    plain (s'.setV vd (vregOf t (BitVec.ofNat 128 v)))

/-- VST (15 R230). -/
def execVst (vd : VNum) (a : SReg) (off : BitVec 9) (s : State) : Host.Outcome State Fault Refusal :=
  issue (.vst vd a off) s fun s => guarded [noneTrap s vd] fun _ =>
    orTrap s (storeBytes s (eaVec s a off) 16 (s.getV vd).bits.toNat none) fun s' => plain s'

/-- SPVLD (15 R230). -/
def execSpvld (t : Tag) (vd : VNum) (a : SReg) (off : BitVec 9) (s : State) : Host.Outcome State Fault Refusal :=
  issue (.spvld t vd a off) s fun s => guarded [spadFault s (eaVec s a off) 16] fun _ =>
    plain (s.setV vd (vregOf t (BitVec.ofNat 128 (spadLoad s (eaVec s a off).toNat 16))))

/-- SPVST (15 R230). -/
def execSpvst (vd : VNum) (a : SReg) (off : BitVec 9) (s : State) : Host.Outcome State Fault Refusal :=
  issue (.spvst vd a off) s fun s => guarded [noneTrap s vd, spadFault s (eaVec s a off) 16] fun _ =>
    plain (spadStore s (eaVec s a off).toNat 16 (s.getV vd).bits.toNat)

/-- The elements a strided or indexed access reaches (15 R231): the enabled lanes with their addresses. -/
def laneAddrs (s : State) (p : PNum) (t : Tag) (ea : Nat → Word) : List (Nat × Word) :=
  ((upto (tagLanes t)).filter fun i => (s.getP p).getLsbD i).map fun i => (i, ea i)

/-- Every element checked in ascending order (15 R231, 13 R208): nothing is read, written or filled. -/
def checkLanes (s : State) (need : Need) (n : Nat) : List (Nat × Word) → Acc State
  | [] => .ok s
  | (_, va) :: r =>
    match addrFault va n with
    | some (c, v) => .error (.fault c v s)
    | none =>
      match lineCheck s s.core s.act.dom s.act.kernel need va n with
      | .error e => .error e
      | .ok s => checkLanes s need n r

/-- The watchpoint test after all checks, for the lowest matching lane (15 R231, 27 R368). -/
def watchLanes (s : State) (k : WatchKind) (n : Nat) (l : List (Nat × Word)) : Option AccErr :=
  (l.find? fun x => watchHit s k x.2 n).map fun x => .fault .watchpoint x.2 s

/-- The elements loaded, by lane. -/
def loadLanes (s : State) (n : Nat) : List (Nat × Word) → Acc (List (Nat × Nat) × State)
  | [] => .ok ([], s)
  | (i, va) :: r =>
    match loadLine s s.core s.act.dom s.act.kernel va n with
    | .error e => .error e
    | .ok (v, _, s) =>
      match loadLanes s n r with
      | .error e => .error e
      | .ok (l, s) => .ok ((i, v) :: l, s)

/-- The elements stored, in ascending order of lanes. -/
def storeLanes (s : State) (n : Nat) (f : Nat → Nat) : List (Nat × Word) → Acc State
  | [] => .ok s
  | (i, va) :: r =>
    match storeLine s s.core s.act.dom s.act.kernel va n (f i) none with
    | .error e => .error e
    | .ok s => storeLanes s n f r

/-- Every element checked, then watched. -/
def checkedLanes (s : State) (need : Need) (k : WatchKind) (n : Nat) (l : List (Nat × Word)) : Acc State :=
  match checkLanes s need n l with
  | .error e => .error e
  | .ok s' =>
    match watchLanes s' k n l with
    | some e => .error e
    | none => .ok s'

/-- A load of elements (15 R231): the whole check, then the loads, then vd's enabled lanes. -/
def gatherOp (s : State) (p : PNum) (vd : VNum) (t : Tag) (ea : Nat → Word) : Eff :=
  let n := tagWidth t / 8
  let l := laneAddrs s p t ea
  orTrap s (checkedLanes s .load .load n l) fun s1 =>
    orTrap s (undone s1 (loadLanes s1 n l)) fun (vs, s2) =>
      plain (writeLanes s2 p vd t fun i => ((tabFind vs i).getD 0, 0))

/-- A store of elements (15 R231): the whole check, then the stores. -/
def scatterOp (s : State) (p : PNum) (vd : VNum) (ea : Nat → Word) : Eff :=
  let v := s.getV vd
  let n := tagWidth v.tag / 8
  let l := laneAddrs s p v.tag ea
  orTrap s (checkedLanes s .store .store n l) fun s1 =>
    orTrap s (undone s1 (storeLanes s1 n (lane v.tag v.bits) l)) fun s2 => plain s2

/-- Tags whose lanes are whole bytes: every tag but C6 and C4 (15 R231). -/
def byteTag (t : Tag) : Bool := decide (t ≠ .c6) && decide (t ≠ .c4)

/-- The address of lane `i` of a strided access (15 R231). -/
def strideEa (s : State) (a b : SReg) (i : Nat) : Word := s.getS a + BitVec.ofNat 64 i * s.getS b

/-- The address of lane `i` of an indexed access with data tag `t` (15 R231). -/
def indexEa (s : State) (a : SReg) (vb : VNum) (t : Tag) (i : Nat) : Word :=
  let x := s.getV vb
  s.getS a + BitVec.ofInt 64 (laneInt x.tag (lane x.tag x.bits i) * (tagWidth t / 8 : Nat))

/-- The signed tag with the lane count of a data tag (15 R231). -/
def indexTag (t : Tag) : Tag :=
  match tagLanes t with
  | 16 => .i8 | 8 => .i16 | 4 => .i32 | _ => .i64

/-- The index vector's tag test (15 R231) (log 27). -/
def indexTrap (s : State) (vb : VNum) (t : Tag) : Option TrapVal :=
  let x := (s.getV vb).tag
  if !byteTag t || (tagInt x && decide (tagLanes x = tagLanes t)) then none
  else some (.tagMismatch, at_ x.code.toNat 0 ||| at_ (indexTag t).code.toNat 4)

/-- VLDS (15 R231) (log 31). -/
def execVlds (t : Tag) (p : PNum) (vd : VNum) (a b : SReg) (s : State) : Host.Outcome State Fault Refusal :=
  issue (.vlds t p vd a b) s fun s =>
    guarded [predNone s p vd, acceptTrap (byteTag t) t, predNeed s p vd t] fun _ => gatherOp s p vd t (strideEa s a b)

/-- VSTS (15 R231) (log 31). -/
def execVsts (p : PNum) (vd : VNum) (a b : SReg) (s : State) : Host.Outcome State Fault Refusal :=
  issue (.vsts p vd a b) s fun s =>
    guarded [noneTrap s vd, acceptTrap (byteTag (s.getV vd).tag) (s.getV vd).tag] fun _ => scatterOp s p vd (strideEa s a b)

/-- VGATH (15 R231). -/
def execVgath (t : Tag) (p : PNum) (vd : VNum) (a : SReg) (vb : VNum) (s : State) : Host.Outcome State Fault Refusal :=
  issue (.vgath t p vd a vb) s fun s =>
    guarded [predNone s p vd, noneTrap s vb, acceptTrap (byteTag t) t, predNeed s p vd t, indexTrap s vb t] fun _ =>
      gatherOp s p vd t (indexEa s a vb t)

/-- VSCAT (15 R231). -/
def execVscat (p : PNum) (vd : VNum) (a : SReg) (vb : VNum) (s : State) : Host.Outcome State Fault Refusal :=
  issue (.vscat p vd a vb) s fun s =>
    let t := (s.getV vd).tag
    guarded [noneTrap s vd, noneTrap s vb, acceptTrap (byteTag t) t, indexTrap s vb t] fun _ =>
      scatterOp s p vd (indexEa s a vb t)

end Sys2Proof.Machine
end

