-- ==== Sys2Proof/Machine/Table.lean ====
section
/-!
DEFINITION. Code tables (09 R147-R153, 15 R242 R243): the header's fields, decoding, encoding, the built-in tables, images.
-/
namespace Sys2Proof.Machine

/-- A field of a 32-bit header. -/
def hdrField (h : BitVec 32) (hi lo : Nat) : Nat := (h.toNat >>> lo) % 2 ^ (hi + 1 - lo)

/-- NANFIRST (09 R148). -/
def CodeSlot.nanFirst (t : CodeSlot) : Nat := hdrField t.hdr 15 8
/-- NANEN. -/
def CodeSlot.nanEn (t : CodeSlot) : Bool := t.hdr.getLsbD 7
/-- VALID. -/
def CodeSlot.valid (t : CodeSlot) : Bool := t.hdr.getLsbD 6
/-- ENC. -/
def CodeSlot.enc (t : CodeSlot) : Bool := t.hdr.getLsbD 5
/-- KIND is SIGNMAG. -/
def CodeSlot.signMag (t : CodeSlot) : Bool := t.hdr.getLsbD 4

/-- The code width of a WIDTH field (09 R148). -/
def codeBits (w : Nat) : Nat :=
  match w with
  | 0 => 8 | 1 => 6 | _ => 4

/-- c of a table. -/
def CodeSlot.width (t : CodeSlot) : Nat := codeBits (hdrField t.hdr 1 0)
/-- h of a table. -/
def CodeSlot.half (t : CodeSlot) : Nat := 2 ^ (t.width - 1)
/-- The code tag of a table's width (15 R241). -/
def CodeSlot.tag (t : CodeSlot) : Tag :=
  match t.width with
  | 8 => .c8 | 6 => .c6 | _ => .c4

/-- Whether a code is a NaN code (09 R148). -/
def CodeSlot.nanCode (t : CodeSlot) (k : Nat) : Bool :=
  t.nanEn && (if t.signMag then
      (decide (t.nanFirst ≤ k) && decide (k < t.half)) || (decide (t.nanFirst + t.half ≤ k) && decide (k < 2 * t.half))
    else decide (t.nanFirst ≤ k) && decide (k < 2 * t.half))

/-- L, the last code below the NaN codes (09 R148). -/
def CodeSlot.last (t : CodeSlot) : Nat :=
  if t.nanEn then t.nanFirst - 1 else if t.signMag then t.half - 1 else 2 * t.half - 1

/-- Entry k's N19 bits (09 R149). -/
def CodeSlot.entry (t : CodeSlot) (k : Nat) : Nat := (t.ents.getD k 0).toNat % 2 ^ 19
/-- Entry k's value. -/
def CodeSlot.value (t : CodeSlot) (k : Nat) : Fp := unpackF fmtN19 (t.entry k)

/-- The N19 value of a code (09 R151): at a NaN code or a NaN entry the canonical NaN. -/
def CodeSlot.decode (t : CodeSlot) (k : Nat) : Nat :=
  if t.nanCode k || fpIsNan (t.value k) then fmtN19.nan else t.entry k

/-- |x|. -/
def fpAbs : Fp → Fp
  | .nan s => .nan s
  | .inf _ => .inf false
  | .fin _ m e => .fin false m e

/-- The sign of a value that is no NaN. -/
def fpSign : Fp → Bool
  | .nan _ => false
  | .inf n => n
  | .fin n _ _ => n

/-- The mantissa and exponent of a finite value, signed. -/
def fpDyadic : Fp → Int × Int
  | .fin n m e => (signedMant n m, e)
  | _ => (0, 0)

/-- The order of 2a against b + c, for finite values: negative, zero or positive. -/
def twiceAgainst (a b c : Fp) : Int :=
  let (x, e) := fpDyadic a
  let (y, f) := fpDyadic b
  let (z, g) := fpDyadic c
  let (u, h) := dyAdd y f z g
  (dyAdd (2 * x) e (-u) h).1

/-- The nearest entry of the search of R152 for a magnitude or a value, ties to the even index, with OF and NX. -/
def CodeSlot.search (t : CodeSlot) (a : Fp) : Nat × Nat :=
  let l := t.last
  if fpLess false a (t.value 0) then (0, flagOF + flagNX)
  else if fpLess false (t.value l) a then (l, flagOF + flagNX)
  else
    let j := (upto (l + 1)).foldl (fun acc k => if fpLess false a (t.value k) then acc else k) 0
    let k :=
      if fpEqual (t.value j) a || decide (j = l) then j
      else
        let d := twiceAgainst a (t.value j) (t.value (j + 1))
        if d < 0 then j else if 0 < d then j + 1 else if j % 2 = 0 then j else j + 1
    (k, if fpEqual (t.value k) a then 0 else flagNX)

/-- A value encoded, with the flags raised (09 R152). -/
def CodeSlot.encode (t : CodeSlot) (x : Fp) : Nat × Nat :=
  if fpIsNan x then (if t.nanEn then t.nanFirst else (t.search (.fin false 0 0)).1, flagNV)
  else
    let s := t.signMag && fpSign x
    let (k, fl) := t.search (if t.signMag then fpAbs x else x)
    (if s then k + t.half else k, fl)

/-- A finite value. -/
def fpFinite : Fp → Bool
  | .fin _ _ _ => true
  | _ => false

/-- Whether entries 0 to L rise strictly and are finite, from entry 0 up `n` steps. -/
def CodeSlot.rising (t : CodeSlot) : Bool :=
  (upto (t.last + 1)).all fun k => fpFinite (t.value k) && (decide (k = 0) || fpLess false (t.value (k - 1)) (t.value k))

/-- Whether a table is encodable (09 R150). -/
def CodeSlot.encodable (t : CodeSlot) : Bool :=
  ((upto (2 * t.half)).all fun k => !t.nanCode k || fpIsNan (t.value k))
    && t.rising
    && (!t.signMag || (decide (t.entry 0 = 0) && (upto t.half).all fun k => decide (t.entry (k + t.half) = t.entry k ^^^ 2 ^ 18)))

/-- A slot that has never been loaded (09 R148). -/
def CodeSlot.unloaded : CodeSlot := { hdr := 0, ents := [] }

/-- A slot of the core (11 R176, 15 R243). -/
def codeSlot (s : State) (k : SlotNum) : CodeSlot := tabGet CodeSlot.unloaded s.here.code k.toNat

/-- A slot of the core loaded. -/
def putSlot (s : State) (k : SlotNum) (t : CodeSlot) : State :=
  s.modCore s.core fun c => { c with code := tabPut c.code k.toNat t }

/-- Whether a header and the reserved bytes of an image are accepted (09 R150). -/
def headerOk (h : BitVec 32) (rest : Nat) : Bool :=
  let t : CodeSlot := { hdr := h, ents := [] }
  decide (hdrField h 31 16 = 0) && decide (hdrField h 3 2 = 0) && decide (rest = 0) && decide (hdrField h 1 0 ≠ 3)
    && !(t.nanEn && (decide (t.nanFirst = 0) || (if t.signMag then decide (t.half ≤ t.nanFirst) else decide (2 * t.half ≤ t.nanFirst))))

/-- The slot an image loads, or none where CTLD traps (09 R149 R150). -/
def slotOfImage (bs : List Byte) : Option CodeSlot :=
  let h : BitVec 32 := BitVec.ofNat 32 (leNat (bs.take 4))
  let ents := (upto 256).map fun k => BitVec.ofNat 32 (leNat ((bs.drop (16 + 4 * k)).take 4))
  let t : CodeSlot := { hdr := h, ents := ents }
  if headerOk h (leNat ((bs.drop 4).take 12)) && (upto (2 * t.half)).all fun k => decide ((ents.getD k 0).toNat < 2 ^ 19) then
    let base := (h &&& ~~~(0x60 : BitVec 32)) ||| 0x40
    some { t with hdr := if t.encodable then base ||| 0x20 else base }
  else none

/-- The image of a slot (09 R149, 15 R242): reserved bits and bytes zero. -/
def imageOfSlot (t : CodeSlot) : List Byte :=
  leBytes 4 (t.hdr &&& 0xFFF3).toNat ++ List.replicate 12 0
    ++ (upto 256).foldr (fun k acc => leBytes 4 (t.entry k) ++ acc) []

/-- m × 2^e as N19 bits, exact for the built-in entries. -/
def n19Of (neg : Bool) (m : Nat) (e : Int) : Nat := (roundF fmtN19 .rne false neg m e).1

/-- The value of a small float by its fields (09 R153): exponent field `ex`, fraction `fr` of `fb` bits, bias `b`. -/
def smallFloat (neg : Bool) (fb b ex fr : Nat) : Nat :=
  if ex = 0 then n19Of neg fr (1 - (b : Int) - fb) else n19Of neg (2 ^ fb + fr) ((ex : Int) - b - fb)

/-- A built-in SIGNMAG table (09 R153): c, fraction bits, bias, the first NaN code if any. -/
def builtinFloat (c fb b : Nat) (nan : Option Nat) : CodeSlot :=
  let h := 2 ^ (c - 1)
  let ent (k : Nat) : BitVec 32 :=
    if 2 * h ≤ k then 0
    else if nan.any fun n => decide (n ≤ k % h) then (if k < h then 0x3FE00 else 0x7FE00)
    else BitVec.ofNat 32 (smallFloat (decide (h ≤ k)) fb b (k % h / 2 ^ fb) (k % 2 ^ fb))
  let w := if c = 8 then 0 else if c = 6 then 1 else 2
  { hdr := BitVec.ofNat 32 ((nan.getD 0) * 256 + (if nan.isSome then 128 else 0) + 0x70 + w), ents := (upto 256).map ent }

/-- The built-in offset-integer table (09 R153). -/
def builtinOffset (w : CodeWidth) : CodeSlot :=
  let (c, f) : Nat × Nat := match w with | .c8 => (8, 0) | .c6 => (6, 1) | .c4 => (4, 2)
  let ent (k : Nat) : BitVec 32 :=
    if 2 ^ c ≤ k then 0
    else
      let v : Int := (k : Int) - 2 ^ (c - 1)
      BitVec.ofNat 32 (n19Of (decide (v < 0)) v.natAbs 0)
  { hdr := BitVec.ofNat 32 (0x60 + f), ents := (upto 256).map ent }

/-- The built-in tables by number (09 R153). -/
def builtin (n : Nat) (w : CodeWidth) : Option CodeSlot :=
  match n with
  | 0 => some (builtinFloat 8 3 7 (some 0x7F))
  | 1 => some (builtinFloat 8 2 15 (some 0x7C))
  | 2 => some (builtinFloat 6 2 3 none)
  | 3 => some (builtinFloat 6 3 1 none)
  | 4 => some (builtinFloat 4 1 1 none)
  | 5 => some (builtinOffset w)
  | _ => none

/-- The 65 parts of 16 bytes of an image's access (15 R242). -/
def imageParts (va : Word) : List (Nat × Word) := (upto 65).map fun i => (i, va + BitVec.ofNat 64 (16 * i))

/-- The checks of an image's access (15 R242): every byte, then a watchpoint. R368 names the accesses of R208 and R231 and R242
says nothing of watchpoints; the model matches the 1,040 bytes of the image, with EVAL its address (log 84). -/
def checkImage (s : State) (need : Need) (k : WatchKind) (va : Word) : Acc State :=
  match checkLanes s need 16 (imageParts va) with
  | .error e => .error e
  | .ok s' => if watchHit s k va 1040 then .error (.fault .watchpoint va s') else .ok s'

/-- CTLD (15 R242, 09 R150). -/
def execCtld (slot : SlotNum) (a : SReg) (s : State) : Host.Outcome State Fault Refusal :=
  issue (.ctld slot a) s fun s =>
    orTrap s (checkImage s .load .load (s.getS a)) fun s1 =>
      orTrap s (undone s1 (loadLanes s1 16 (imageParts (s.getS a)))) fun (vs, s2) =>
        match slotOfImage (vs.foldr (fun x acc => leBytes 16 x.2 ++ acc) []) with
        | some t => plain (putSlot s2 slot t)
        | none => .fault s2 .table (slot.setWidth 64)

/-- CTLDI (15 R242, 09 R153). -/
def execCtldi (slot : SlotNum) (n : BitVec 6) (w : CodeWidth) (s : State) : Host.Outcome State Fault Refusal :=
  issue (.ctldi slot n w) s fun s =>
    match builtin n.toNat w with
    | some t => plain (putSlot s slot t)
    | none => .trap .table (n.setWidth 64)

/-- CTST (15 R242). -/
def execCtst (slot : SlotNum) (a : SReg) (s : State) : Host.Outcome State Fault Refusal :=
  issue (.ctst slot a) s fun s =>
    let bs := imageOfSlot (codeSlot s slot)
    orTrap s (checkImage s .store .store (s.getS a)) fun s1 =>
      orTrap s (undone s1 (storeLanes s1 16 (fun i => leNat ((bs.drop (16 * i)).take 16)) (imageParts (s.getS a)))) fun s2 => plain s2

/-- CTINFO (15 R242). -/
def execCtinfo (d : SReg) (slot : SlotNum) (s : State) : Host.Outcome State Fault Refusal :=
  issue (.ctinfo d slot) s fun s => plain (s.setS d ((codeSlot s slot).hdr.setWidth 64))

end Sys2Proof.Machine
end

