-- ==== Sys2Proof/Machine/VecPerm.lean ====
section
/-!
DEFINITION. Permutes, reductions, dot products, moves (15 R237 R238 R245).
-/
namespace Sys2Proof.Machine

/-- A permute of two sources (15 R237): every tag but NONE, lanes copied. -/
def permBinary (i : Instr) (s : State) (p : PNum) (vd va vb : VNum) (f : Nat → (Nat → Nat) → (Nat → Nat) → Nat → Nat) :
    Host.Outcome State Fault Refusal :=
  issue i s fun s =>
    let t := (s.getV va).tag
    guarded [noneTrap s va, noneTrap s vb, predNone s p vd, pairTrap t (s.getV vb).tag, predPair s p vd t] fun _ =>
      plain (writeLanes s p vd t fun j => (f (tagLanes t) (lane t (s.getV va).bits) (lane t (s.getV vb).bits) j, 0))

/-- VSHUF (15 R237). -/
def execVshuf (p : PNum) (vd va vb : VNum) (s : State) : Host.Outcome State Fault Refusal :=
  permBinary (.vshuf p vd va vb) s p vd va vb fun n x y j => if y j < n then x (y j) else 0
/-- VZIP (15 R237). -/
def execVzip (p : PNum) (vd va vb : VNum) (s : State) : Host.Outcome State Fault Refusal :=
  permBinary (.vzip p vd va vb) s p vd va vb fun _ x y j => if j % 2 = 0 then x (j / 2) else y ((j - 1) / 2)
/-- VUZP (15 R237). -/
def execVuzp (p : PNum) (vd va vb : VNum) (s : State) : Host.Outcome State Fault Refusal :=
  permBinary (.vuzp p vd va vb) s p vd va vb fun n x y j =>
    let m := (n + 1) / 2
    if j < m then x (2 * j) else y (2 * (j - m))

/-- 128 bits of two registers from byte `k` up, the first lowest (15 R237). -/
def slideBits (a b : Quad) (k : Nat) : Quad := BitVec.ofNat 128 ((a.toNat + 2 ^ 128 * b.toNat) / 2 ^ (8 * k))

/-- VSLD (15 R237): the second source is the register after va. -/
def execVsld (p : PNum) (vd va : VNum) (k : BitVec 4) (s : State) : Host.Outcome State Fault Refusal :=
  issue (.vsld p vd va k) s fun s =>
    let t := (s.getV va).tag
    guarded [noneTrap s va, noneTrap s (va + 1), predNone s p vd, pairTrap t (s.getV (va + 1)).tag, predPair s p vd t] fun _ =>
      plain (writeLanes s p vd t fun j => (lane t (slideBits (s.getV va).bits (s.getV (va + 1)).bits k.toNat) j, 0))

/-- A lane number beyond the tag's lanes (15 R229). -/
def laneTrap (i : Instr) (t : Tag) (l : BitVec 5) : Option TrapVal :=
  condTrap (decide (tagLanes t ≤ l.toNat)) .reservedField (i.word.setWidth 64)

/-- VBCAST (15 R237). -/
def execVbcast (p : PNum) (vd va : VNum) (l : BitVec 5) (s : State) : Host.Outcome State Fault Refusal :=
  issue (.vbcast p vd va l) s fun s =>
    let t := (s.getV va).tag
    guarded [noneTrap s va, predNone s p vd, predPair s p vd t, laneTrap (.vbcast p vd va l) t l] fun _ =>
      plain (writeLanes s p vd t fun _ => (lane t (s.getV va).bits l.toNat, 0))

/-- VINS (15 R237): reads vd; writes lane l only where the predicate enables it. -/
def execVins (p : PNum) (vd : VNum) (a : SReg) (l : BitVec 5) (s : State) : Host.Outcome State Fault Refusal :=
  issue (.vins p vd a l) s fun s =>
    let v := s.getV vd
    guarded [noneTrap s vd, laneTrap (.vins p vd a l) v.tag l] fun _ =>
      plain (writeLanes s p vd v.tag fun j => (if j = l.toNat then (s.getS a).toNat else lane v.tag v.bits j, 0))

/-- VEXT (15 R237). -/
def execVext (d : SReg) (va : VNum) (l : BitVec 5) (s : State) : Host.Outcome State Fault Refusal :=
  issue (.vext d va l) s fun s =>
    let v := s.getV va
    guarded [noneTrap s va, laneTrap (.vext d va l) v.tag l] fun _ =>
      plain (s.setS d (BitVec.ofInt 64 (laneInt v.tag (lane v.tag v.bits l.toNat))))

/-- Neighbours of a list combined: one level of the tree of R159, with the flags raised. -/
def combinePairs (f : Nat → Nat → Nat × Nat) : List Nat → List Nat × Nat
  | x :: y :: r =>
    let (l, fl) := combinePairs f r
    let (z, g) := f x y
    (z :: l, fl ||| g)
  | l => (l, 0)

/-- The fixed tree of R159 over 2^k lanes, k levels. -/
def reduceTree (f : Nat → Nat → Nat × Nat) : Nat → List Nat → Nat × Nat
  | 0, l => (l.headD 0, 0)
  | k + 1, l =>
    let (l, fl) := combinePairs f l
    let (x, g) := reduceTree f k l
    (x, fl ||| g)

/-- A reduction (15 R238, 09 R159): the predicate says which lanes contribute; the others contribute `z`. -/
def vecReduce (i : Instr) (s : State) (p : PNum) (vd va : VNum) (z : Tag → Nat) (f : Tag → RMode → Nat → Nat → Nat × Nat) :
    Host.Outcome State Fault Refusal :=
  issue i s fun s =>
    let v := s.getV va
    let t := v.tag
    guarded [noneTrap s va, acceptTrap (intFlt t) t] fun _ =>
      let l := (upto (tagLanes t)).map fun j => if (s.getP p).getLsbD j then lane t v.bits j else z t
      let (x, fl) := reduceTree (f t (modeOf s)) 4 l
      plain (raiseFlags (s.setV vd { bits := BitVec.ofNat 128 (x % 2 ^ tagWidth t), tag := t }) fl)

/-- What a disabled lane contributes to a maximum or a minimum (09 R159). -/
def reduceIdent (greater : Bool) (t : Tag) : Nat :=
  if tagInt t then wrapTo (tagWidth t) (if greater then tagMin t else tagMax t)
  else (tagFmt t).signed greater (tagFmt t).infBits

/-- A sum of two lanes (09 R159). -/
def laneSum (t : Tag) (md : RMode) (x y : Nat) : Nat × Nat :=
  if tagInt t then ((x + y) % 2 ^ tagWidth t, 0) else fpAdd (tagFmt t) md (unpackF (tagFmt t) x) (unpackF (tagFmt t) y)

/-- The lesser or greater of two lanes (15 R238, 09 R140). -/
def lanePick (greater : Bool) (t : Tag) (_ : RMode) (x y : Nat) : Nat × Nat :=
  if tagInt t then
    (if greater then (if laneInt t x < laneInt t y then y else x) else (if laneInt t y < laneInt t x then y else x), 0)
  else fpMinMax (tagFmt t) greater x y

/-- VREDADD (15 R238). -/
def execVredadd (p : PNum) (vd va : VNum) (s : State) : Host.Outcome State Fault Refusal :=
  vecReduce (.vredadd p vd va) s p vd va (fun t => if tagInt t then 0 else (tagFmt t).signBit) laneSum
/-- VREDMAX (15 R238). -/
def execVredmax (p : PNum) (vd va : VNum) (s : State) : Host.Outcome State Fault Refusal :=
  vecReduce (.vredmax p vd va) s p vd va (reduceIdent true) (lanePick true)
/-- VREDMIN (15 R238). -/
def execVredmin (p : PNum) (vd va : VNum) (s : State) : Host.Outcome State Fault Refusal :=
  vecReduce (.vredmin p vd va) s p vd va (reduceIdent false) (lanePick false)

/-- VDOT's destination tag for a source tag (09 R160); NONE where the source is not accepted. -/
def dotTag : Tag → Tag
  | .i8 => .i32 | .n8 => .n32 | .i16 => .i64 | .n16 => .n64 | .bf16 | .f16 => .f32 | _ => .none

/-- What a sum of a value and products has so far: the infinities, the exact finite sum, the signs of its terms. -/
structure DotSum where
  invalid : Bool
  pos : Bool
  neg : Bool
  m : Int
  e : Int
  anyPlus : Bool
  anyMinus : Bool
  nonzero : Bool
  deriving DecidableEq, Repr

/-- A finite or infinite term added. -/
def DotSum.add (d : DotSum) : Fp → DotSum
  | .nan _ => { d with invalid := true }
  | .inf n => { d with pos := d.pos || !n, neg := d.neg || n }
  | .fin n m e =>
    let (t, q) := dyAdd d.m d.e (signedMant n m) e
    { d with m := t, e := q, anyPlus := d.anyPlus || !n, anyMinus := d.anyMinus || n, nonzero := d.nonzero || decide (m ≠ 0) }

/-- The exact product of two values that are no NaN; a NaN for 0 × ∞. -/
def fpProduct (x y : Fp) : Fp :=
  match x, y with
  | .inf a, .inf b => .inf (a != b)
  | .inf a, .fin b m _ | .fin b m _, .inf a => if m = 0 then .nan false else .inf (a != b)
  | .fin a m e, .fin b n g => .fin (a != b) (m * n) (e + g)
  | _, _ => .nan false

/-- round(d + Σ a × b) with its flags (09 R160): one rounding of the exact sum to F32; a product 0 × ∞ and infinities of
opposite sign give the canonical NaN and NV, beside a quiet NaN too; a zero sum is -0 where every term is -0, and R139's
otherwise. -/
def fpDot (md : RMode) (d : Fp) (ps : List (Fp × Fp)) : Nat × Nat :=
  let snan := ps.foldl (fun acc x => acc ||| snanFlag x.1 ||| snanFlag x.2) (snanFlag d)
  let bad := ps.any fun x => !fpIsNan x.1 && !fpIsNan x.2 && fpIsNan (fpProduct x.1 x.2)
  let nan := fpIsNan d || ps.any fun x => fpIsNan x.1 || fpIsNan x.2
  let z : DotSum := { invalid := false, pos := false, neg := false, m := 0, e := 0, anyPlus := false, anyMinus := false,
                      nonzero := false }
  let t := ps.foldl (fun (acc : DotSum) x => acc.add (fpProduct x.1 x.2)) (z.add d)
  let opposite := t.pos && t.neg
  if nan || bad || opposite then (fmtF32.nan, snan ||| if bad || opposite then flagNV else 0)
  else if t.pos || t.neg then (fmtF32.signed t.neg fmtF32.infBits, 0)
  else if t.m = 0 then
    (fmtF32.signed (if !t.nonzero && !(t.anyPlus && t.anyMinus) then t.anyMinus else decide (md = .rdn)) 0, 0)
  else roundF fmtF32 md false (decide (t.m < 0)) t.m.natAbs t.e

/-- VDOT (15 R238, 09 R160). -/
def execVdot (p : PNum) (vd va vb : VNum) (s : State) : Host.Outcome State Fault Refusal :=
  issue (.vdot p vd va vb) s fun s =>
    let t := (s.getV va).tag
    let u := dotTag t
    let x := lane t (s.getV va).bits
    let y := lane t (s.getV vb).bits
    let z := lane u (s.getV vd).bits
    guarded [noneTrap s va, noneTrap s vb, noneTrap s vd, pairTrap t (s.getV vb).tag, acceptTrap (decide (u ≠ .none)) t,
             requireTrap (s.getV vd).tag u] fun _ =>
      plain (writeLanes s p vd u fun j =>
        if tagInt t then
          (wrapTo (tagWidth u) ((upto 4).foldl (fun acc k =>
            acc + laneInt t (x (4 * j + k)) * laneInt t (y (4 * j + k))) (laneInt u (z j))), 0)
        else
          let f := tagFmt t
          fpDot (modeOf s) (unpackF fmtF32 (z j)) ((upto 2).map fun k => (unpackF f (x (2 * j + k)), unpackF f (y (2 * j + k)))))

/-- Lanes of a register replaced under a predicate: whole where P is 0 (11 R179). -/
def writeBits (s : State) (p : PNum) (vd : VNum) (t : Tag) (bits : Quad) : State :=
  if p = 0 then s.setV vd { bits := maskTag t bits, tag := t } else writeLanes s p vd t fun j => (lane t bits j, 0)

/-- VMOV (15 R245). -/
def execVmov (p : PNum) (vd va : VNum) (s : State) : Host.Outcome State Fault Refusal :=
  issue (.vmov p vd va) s fun s =>
    let v := s.getV va
    guarded [noneTrap s va, predNone s p vd, predPair s p vd v.tag] fun _ => plain (writeBits s p vd v.tag v.bits)
/-- VZERO (15 R245). -/
def execVzero (vd : VNum) (u : Tag) (s : State) : Host.Outcome State Fault Refusal :=
  issue (.vzero vd u) s fun s => plain (s.setV vd { bits := 0, tag := u })
/-- VSPLATI (15 R245). -/
def execVsplati (p : PNum) (vd : VNum) (v : BitVec 6) (u : Tag) (s : State) : Host.Outcome State Fault Refusal :=
  issue (.vsplati p vd v u) s fun s =>
    guarded [predNone s p vd, acceptTrap (intFlt u) u, predNeed s p vd u] fun _ =>
      plain (writeLanes s p vd u fun _ =>
        (if tagInt u then wrapTo (tagWidth u) v.toInt else (intConv (tagFmt u) .rne v.toInt).1, 0))

end Sys2Proof.Machine
end

