-- ==== Sys2Proof/Machine/VecConv.lean ====
section
/-!
DEFINITION. Conversions, retagging, packing, codes (15 R239-R241).
-/
namespace Sys2Proof.Machine

/-- Whether a floating tag's values are all values of another (09 R143). -/
def tagWidens (t u : Tag) : Bool :=
  decide (t = u) || (match t, u with
    | .f16, .f32 | .f16, .f64 | .bf16, .f32 | .bf16, .f64 | .f32, .f64 => true
    | _, _ => false)

/-- A lane converted from tag `t` to tag `u` (15 R239, 09 R143-R145). -/
def laneConv (t u : Tag) (md : RMode) (x : Nat) : Nat × Nat :=
  if tagInt t then
    (if tagInt u then satTo u (laneInt t x) else intConv (tagFmt u) md (laneInt t x))
  else
    let v := unpackF (tagFmt t) x
    if tagInt u then
      let (y, fl) := fpConvInt md (tagMin u) (tagMax u) v
      (wrapTo (tagWidth u) y, fl)
    else fpConv (tagFmt u) md (tagWidens t u) v

/-- VCVT (15 R239). -/
def execVcvt (p : PNum) (vd va : VNum) (u : Tag) (s : State) : Host.Outcome State Fault Refusal :=
  issue (.vcvt p vd va u) s fun s =>
    let v := s.getV va
    let t := v.tag
    guarded [noneTrap s va, predNone s p vd, acceptTrap (intFlt t) t, acceptTrap (intFlt u) u, predNeed s p vd u] fun _ =>
      plain (writeLanes s p vd u fun j =>
        if j < min (tagLanes t) (tagLanes u) then laneConv t u (modeOf s) (lane t v.bits j) else (0, 0))

/-- VRETAG (15 R239). -/
def execVretag (p : PNum) (vd va : VNum) (u : Tag) (s : State) : Host.Outcome State Fault Refusal :=
  issue (.vretag p vd va u) s fun s =>
    guarded [noneTrap s va, predNone s p vd, predNeed s p vd u] fun _ => plain (writeBits s p vd u (s.getV va).bits)

/-- VTAG (15 R239): vd may be NONE. -/
def execVtag (vd : VNum) (u : Tag) (s : State) : Host.Outcome State Fault Refusal :=
  issue (.vtag vd u) s fun s => plain (s.setV vd { bits := maskTag u (s.getV vd).bits, tag := u })

/-- VPACK's result tag (15 R240); NONE where the source is not accepted. -/
def packTag : Tag → Tag
  | .i16 => .i8 | .n16 => .n8 | .i32 => .i16 | .n32 => .n16 | .i64 => .i32 | .n64 => .n32 | .f32 => .f16 | .f64 => .f32
  | _ => .none

/-- The unpacks' result tag (15 R240); NONE where the source is not accepted. -/
def unpackTag : Tag → Tag
  | .i8 => .i16 | .n8 => .n16 | .i16 => .i32 | .n16 => .n32 | .i32 => .i64 | .n32 => .n64 | .f16 | .bf16 => .f32 | .f32 => .f64
  | _ => .none

/-- VPACK (15 R240). -/
def execVpack (p : PNum) (vd va vb : VNum) (s : State) : Host.Outcome State Fault Refusal :=
  issue (.vpack p vd va vb) s fun s =>
    let t := (s.getV va).tag
    let u := packTag t
    guarded [noneTrap s va, noneTrap s vb, predNone s p vd, pairTrap t (s.getV vb).tag,
             acceptTrap (decide (u ≠ .none)) t, predNeed s p vd u] fun _ =>
      plain (writeLanes s p vd u fun j =>
        let n := tagLanes t
        laneConv t u (modeOf s) (if j < n then lane t (s.getV va).bits j else lane t (s.getV vb).bits (j - n)))

/-- An unpack (15 R240) of the lower or upper half. -/
def vecUnpack (i : Instr) (s : State) (p : PNum) (vd va : VNum) (upper : Bool) : Host.Outcome State Fault Refusal :=
  issue i s fun s =>
    let t := (s.getV va).tag
    let u := unpackTag t
    guarded [noneTrap s va, predNone s p vd, acceptTrap (decide (u ≠ .none)) t, predNeed s p vd u] fun _ =>
      plain (writeLanes s p vd u fun j =>
        laneConv t u (modeOf s) (lane t (s.getV va).bits (if upper then tagLanes t / 2 + j else j)))

/-- VUNPKL (15 R240). -/
def execVunpkl (p : PNum) (vd va : VNum) (s : State) : Host.Outcome State Fault Refusal :=
  vecUnpack (.vunpkl p vd va) s p vd va false
/-- VUNPKH (15 R240). -/
def execVunpkh (p : PNum) (vd va : VNum) (s : State) : Host.Outcome State Fault Refusal :=
  vecUnpack (.vunpkh p vd va) s p vd va true

/-- The enabled lanes of VENC's source that map to a code (15 R241). -/
def encLanes (s : State) (p : PNum) (n q codes : Nat) : List Nat :=
  (upto n).filter fun j => (s.getP p).getLsbD j && decide (q * n + j < codes)

/-- VENC (15 R241). -/
def execVenc (p : PNum) (vd va : VNum) (slot : SlotNum) (part : BitVec 3) (s : State) : Host.Outcome State Fault Refusal :=
  let i := Instr.venc p vd va slot part
  issue i s fun s =>
    let t := (s.getV va).tag
    let tab := codeSlot s slot
    let k := tab.tag
    let n := tagLanes t
    let q := part.toNat
    let codes := tagLanes k
    guarded [noneTrap s va, noneTrap s vd, acceptTrap (decide (t = .f16) || decide (t = .bf16) || decide (t = .f32)) t,
             condTrap (!tab.valid) .table (slot.setWidth 64), requireTrap (s.getV vd).tag k,
             condTrap (decide (codes ≤ q * n)) .reservedField (i.word.setWidth 64),
             condTrap (!tab.enc) .table (slot.setWidth 64)] fun _ =>
      let r := (encLanes s p n q codes).map fun j =>
        (q * n + j, tab.encode (unpackF (tagFmt t) (lane t (s.getV va).bits j)))
      let fl := r.foldl (fun acc x => acc ||| x.2.2) 0
      plain (raiseFlags (writeWhole s vd k fun c =>
        (((r.find? fun x => decide (x.1 = c)).map fun x => x.2.1).getD (lane k (s.getV vd).bits c), 0)) fl)

/-- VDEC (15 R241): no flag. -/
def execVdec (p : PNum) (vd va : VNum) (slot : SlotNum) (part : BitVec 3) (s : State) : Host.Outcome State Fault Refusal :=
  let i := Instr.vdec p vd va slot part
  issue i s fun s =>
    let t := (s.getV va).tag
    let tab := codeSlot s slot
    let k := tab.tag
    let q := part.toNat
    guarded [noneTrap s va, predNone s p vd, acceptTrap (tagCode t) t, predNeed s p vd .f32,
             condTrap (!tab.valid) .table (slot.setWidth 64), requireTrap t k,
             condTrap (decide (tagLanes k ≤ 4 * q)) .reservedField (i.word.setWidth 64)] fun _ =>
      plain (writeLanes s p vd .f32 fun j =>
        if 4 * q + j < tagLanes k then
          ((fpConv fmtF32 .rne true (unpackF fmtN19 (tab.decode (lane k (s.getV va).bits (4 * q + j))))).1, 0)
        else (0, 0))

end Sys2Proof.Machine
end

