-- ==== Sys2Proof/Machine/Splice.lean ====
section
/-!
DEFINITION. The Splice matrix engine (19 R278-R288, 09 R154-R158): formats and tiles, MCTX, the job-starting instructions,
what a job computes, its start and its end.
-/
namespace Sys2Proof.Machine

/-- A float format code: BF16, F16, N19, C8, C6, C4 (19 R279, 09 R154). -/
def fmtFloat (c : Nat) : Bool := decide (1 ≤ c) && decide (c ≤ 6)
/-- An integer format code (19 R279). -/
def fmtInteger (c : Nat) : Bool := decide (0x10 ≤ c) && decide (c ≤ 0x1F)
/-- A code format (19 R279). -/
def fmtCoded (c : Nat) : Bool := decide (4 ≤ c) && decide (c ≤ 6)

/-- w of a plane format (19 R279). -/
def fmtWidth (c : Nat) : Nat :=
  match c with
  | 1 | 2 => 16 | 3 => 19 | 4 => 8 | 5 => 6 | 6 => 4
  | n => n % 8 + 1

/-- Bytes of a plane tile (19 R278). -/
def planeBytes (c : Nat) : Nat := 2048 * fmtWidth c

/-- AFMT of a context word (19 R280). -/
def ctxA (w : Word) : Nat := bitsOf w 4 0
/-- BFMT. -/
def ctxB (w : Word) : Nat := bitsOf w 12 8
/-- ASLOT. -/
def ctxASlot (w : Word) : SlotNum := BitVec.ofNat 2 (bitsOf w 17 16)
/-- BSLOT. -/
def ctxBSlot (w : Word) : SlotNum := BitVec.ofNat 2 (bitsOf w 19 18)
/-- ACC: I32 mode. -/
def ctxInt (w : Word) : Bool := w.getLsbD 22
/-- NOTIFY. -/
def ctxNotify (w : Word) : Bool := w.getLsbD 23
/-- EP. -/
def ctxEp (w : Word) : Nat := bitsOf w 31 24

/-- TABLE for a code format whose slot is not loaded or has another width (19 R281). -/
def ctxTableTrap (s : State) (f : Nat) (k : SlotNum) : Option (Cause × Word) :=
  let t := codeSlot s k
  if fmtCoded f && (!t.valid || decide (t.width ≠ fmtWidth f)) then some (.table, k.setWidth 64) else none

/-- The table a format context copies (19 R281). -/
def ctxTable (s : State) (f : Nat) (k : SlotNum) : Option CodeSlot := if fmtCoded f then some (codeSlot s k) else none

/-- MCTX (19 R280 R281); AFMT's slot is tested before BFMT's (log 111). -/
def execMctx (a : SReg) (s : State) : Host.Outcome State Fault Refusal :=
  issue (.mctx a) s fun s =>
    let w := s.getS a
    let fa := ctxA w
    let fb := ctxB w
    engineGuard [
      operandTrap (!onlyFields w [(31, 22), (19, 16), (12, 8), (4, 0)]) 4,
      operandTrap (!(fmtFloat fa || fmtInteger fa) || !(fmtFloat fb || fmtInteger fb)) 5,
      operandTrap (decide (fmtFloat fa ≠ fmtFloat fb) || decide (ctxInt w ≠ fmtInteger fa)) 6,
      ctxTableTrap s fa (ctxASlot w), ctxTableTrap s fb (ctxBSlot w),
      notifyTrap s (ctxNotify w) (ctxEp w) 2] fun _ =>
        let c : SpliceCtx := { word := w, atab := ctxTable s fa (ctxASlot w), btab := ctxTable s fb (ctxBSlot w) }
        plain (s.modCore s.core fun x => { x with splice := some c })

/-- Slot bytes of a handle of the activation's core, 0 where undefined. -/
def slotBytesOf (s : State) (h : HNum) : Nat := ((findRing s s.core h.toNat).map Ring.slotBytes).getD 0

/-- The engine has room for a job (01 R18). -/
def spliceRoom (s : State) : Bool :=
  let g := s.getCluster (clusterOf s.core)
  decide (g.splice.length < 16) && g.spliceBack.isEmpty

/-- An activation waits at the port of an engine of a cluster with its instruction unissued (19 R273). -/
def portWaits (s : State) (g : Nat) (splice : Bool) (x : Nat × Nat × Act) : Bool :=
  decide (clusterOf x.1 = g) && decide (x.2.2.wait = some (.port splice)) && decide (x.2.2.status = .running)
    && decide (x.2.2.halt = .none) && !(s.getDom x.2.2.dom).halted

/-- An engine's arbitration, round-robin by core index from the core after the one whose job it accepted last (01 R18): no
core with an instruction at its port comes before the issuing one (log 82). -/
def portTurn (s : State) (splice : Bool) : Bool :=
  let g := s.getCluster (clusterOf s.core)
  let last := if splice then g.lastSplice else g.lastReeve
  let place (c : Nat) : Nat := (c % 8 + 7 - last % 8) % 8
  !(s.allActs.any fun x => portWaits s (clusterOf s.core) splice x && decide (place x.1 < place s.core))

/-- A job-starting Splice instruction after its other traps (19 R273): ENDPOINT where its context's completion entry names a
port whose link is down (29 R394) (log 114); else accepted, or waiting at its port. -/
def spliceAccept (s : State) (d : SReg) (op : SpliceOp) (ctx : SpliceCtx) : Eff :=
  if ctxNotify ctx.word && portDown s (endpoint s s.core (ctxEp ctx.word)) then .trap .endpoint (BitVec.ofNat 64 (ctxEp ctx.word))
  else if !(spliceRoom s && portTurn s true) then .stall (.port true) s
  else
    let c := s.core
    let id := nextJobId s c true
    let j : SpliceJob := { core := c, id := id, op := op, ctx := ctx, dom := s.act.dom, running := false,
                           passed := false, ta := .none, tb := .none, serial := s.serial, westTail := false, northTail := false }
    let s := ({ tableAccept s c true 1 with serial := s.serial + 1 } : State).modCluster (clusterOf c) fun g => { g with splice := g.splice ++ [j], lastSplice := c % 8 }
    plain (s.setS d (BitVec.ofNat 64 id))

/-- The context's formats of the issuing core, if it has a valid context. -/
def ctxOf (s : State) : Option SpliceCtx := s.here.splice

/-- MMA and MMAR (19 R282). -/
def matrixOp (i : Instr) (s : State) (d : SReg) (ha hb : HNum) (op : SpliceOp) : Host.Outcome State Fault Refusal :=
  issue i s fun s =>
    let w := ((ctxOf s).map fun c => c.word).getD 0
    engineGuard [ringTrap s ha, ringTrap s hb, operandTrap (ctxOf s).isNone 1, operandTrap (decide (ha = hb)) 2,
      operandTrap (decide (slotBytesOf s ha < planeBytes (ctxA w)) || decide (slotBytesOf s hb < planeBytes (ctxB w))) 3] fun _ =>
        match ctxOf s with
        | some c => spliceAccept s d op c
        | none => .trap .engineOperand 1

/-- MMA (19 R282). -/
def execMma (d : SReg) (ha hb : HNum) (s : State) : Host.Outcome State Fault Refusal :=
  matrixOp (.mma d ha hb) s d ha hb (.mma ha.toNat hb.toNat)
/-- MMAR (19 R282 R283). -/
def execMmar (d : SReg) (ha hb : HNum) (s : State) : Host.Outcome State Fault Refusal :=
  matrixOp (.mmar d ha hb) s d ha hb (.mmar ha.toNat hb.toNat)
/-- MMAR.LAST (19 R282 R283). -/
def execMmarLast (d : SReg) (ha hb : HNum) (s : State) : Host.Outcome State Fault Refusal :=
  matrixOp (.mmarLast d ha hb) s d ha hb (.mmarLast ha.toNat hb.toNat)

/-- MZERO (19 R285). -/
def execMzero (d : SReg) (s : State) : Host.Outcome State Fault Refusal :=
  issue (.mzero d) s fun s =>
    match ctxOf s with
    | none => .trap .engineOperand 1
    | some c => spliceAccept s d .mzero c

/-- FMT's code of an MRDACC target (19 R279 R286). -/
def targetFmt (t : AccTarget) (tab : Option CodeSlot) : Nat :=
  match t with
  | .bf16 => 1 | .f16 => 2 | .f32 => 7 | .i32 => 8 | .i8 => 9
  | .code _ => match (tab.map fun x => x.width).getD 8 with | 8 => 4 | 6 => 5 | _ => 6

/-- Row bytes of a row-major tile by format code (19 R286). -/
def rowBytes (f : Nat) : Nat :=
  match f with
  | 7 | 8 => 512 | 1 | 2 => 256 | 4 | 9 => 128 | 5 => 112 | _ => 64

/-- The table a code target copies at issue (19 R286). -/
def targetTable (s : State) (t : AccTarget) : Option CodeSlot :=
  match t with
  | .code k => some (codeSlot s k)
  | _ => none

/-- TABLE for a code target (19 R286). -/
def targetTableTrap (s : State) (t : AccTarget) : Option (Cause × Word) :=
  match t with
  | .code k => if (codeSlot s k).valid && (codeSlot s k).enc then none else some (.table, k.setWidth 64)
  | _ => none

/-- MRDACC (19 R286). -/
def execMrdacc (d : SReg) (ha : HNum) (t : AccTarget) (s : State) : Host.Outcome State Fault Refusal :=
  issue (.mrdacc d ha t) s fun s =>
    engineGuard [ringTrap s ha, operandTrap (ctxOf s).isNone 1, targetTableTrap s t,
      operandTrap (decide (slotBytesOf s ha < 128 * rowBytes (targetFmt t (targetTable s t)))) 3] fun _ =>
        match ctxOf s with
        | some c => spliceAccept s d (.mrdacc ha.toNat t (targetTable s t)) c
        | none => .trap .engineOperand 1

/-- The bits of element `j` of row `k` of a plane tile at a scratchpad offset (19 R278). -/
def planeBits (m : Memory) (base w k j : Nat) : Nat :=
  (upto w).foldl (fun acc b =>
    acc + flag ((memGet m (base + 2048 * b + 16 * k + j / 8)).getLsbD (j % 8)) * 2 ^ b) 0

/-- An operand element of the float class (09 R154). -/
def floatElem (f : Nat) (tab : Option CodeSlot) (x : Nat) : Fp :=
  match f with
  | 1 => unpackF fmtBF16 x
  | 2 => unpackF fmtF16 x
  | 3 => unpackF fmtN19 x
  | _ => unpackF fmtN19 ((tab.map fun t => t.decode x).getD 0)

/-- An operand element of the integer class (09 R154). -/
def intElem (f x : Nat) : Int :=
  let w := fmtWidth f
  if 0x18 ≤ f ∧ 2 ^ (w - 1) ≤ x then (x : Int) - 2 ^ w else x

/-- A value times 2^e (09 R155). -/
def fpScale (e : Int) : Fp → Fp
  | .fin n m q => .fin n m (q + e)
  | x => x

/-- One group of four products as R156 sums them. -/
def groupSum (l : List (Fp × Fp)) (e : Int) : Fp :=
  let z : DotSum := { invalid := false, pos := false, neg := false, m := 0, e := 0, anyPlus := false, anyMinus := false,
                      nonzero := false }
  let t := l.foldl (fun (acc : DotSum) x => acc.add (fpScale e (fpProduct x.1 x.2))) z
  if t.invalid || (t.pos && t.neg) then .nan false
  else if t.pos || t.neg then .inf t.neg
  else if t.m = 0 then .fin (!t.nonzero && !t.anyPlus) 0 0
  else .fin (decide (t.m < 0)) t.m.natAbs t.e

/-- An accumulator element after a job in F32 mode (09 R156); `a k` and `b k` its operands. -/
def accFloat (a b : Nat → Fp) (e : Int) (acc : BitVec 32) : BitVec 32 :=
  (upto 32).foldl (fun acc g =>
    let t := groupSum ((upto 4).map fun i => (a (4 * g + i), b (4 * g + i))) e
    BitVec.ofNat 32 (fpAdd fmtF32 .rne (unpackF fmtF32 acc.toNat) t).1) acc

/-- floor(x × 2^e). -/
def scaleFloor (x e : Int) : Int := if 0 ≤ e then x * 2 ^ e.toNat else x / 2 ^ (-e).toNat

/-- An accumulator element after a job in I32 mode, with SAT (09 R157). -/
def accInt (a b : Nat → Int) (e : Int) (acc : BitVec 32) : BitVec 32 × Bool :=
  let r := (upto 128).foldl (fun (x : Int × Bool) k =>
    let y := x.1 + scaleFloor (a k * b k) e
    let z := clampInt (-(2 ^ 31)) (2 ^ 31 - 1) y
    (z, x.2 || decide (z ≠ y))) (acc.toInt, false)
  (BitVec.ofInt 32 r.1, r.2)

/-- SCALE of a slot's metadata (19 R279). -/
def metaScale (m : Word) : Int := (BitVec.ofNat 8 (bitsOf m 15 8)).toInt

/-- A tile's tests before the first k-step (19 R282): row-major, another format, another orientation, an unusable scale. -/
def tileBad (m : Word) (f : Nat) (bRole : Bool) : Bool :=
  m.getLsbD 7 || (decide (bitsOf m 4 0 ≠ 0) && (decide (bitsOf m 4 0 ≠ f) || decide (m.getLsbD 6 ≠ bRole)))
    || decide (metaScale m = -128)

/-- The metadata of the slot a counter value of a handle names. -/
def slotMeta (r : Ring) (c : BitVec 16) : Word := r.meta_.getD (r.slotOf c) 0

/-- The scratchpad offset of a slot of a handle (17 R269). -/
def slotBase (r : Ring) (k : Nat) : Nat := r.base + k * r.slotBytes

/-- The slot that a counter value of a handle of a core names, taken with its metadata. -/
def takeSlot (s : State) (c h : Nat) (tail : Bool) : TakenSlot :=
  match findRing s c h with
  | some r => let k := if tail then r.tail else r.head
    { slot := r.slotOf k, meta_ := slotMeta r k }
  | none => .none

/-- The accepted jobs of a core that fill a ring and have not ended, Reeve's with DK = 3 and MRDACC (19 R286 R291), by
number. -/
def ringFillers (s : State) (c h : Nat) : List Nat :=
  let g := s.getCluster (clusterOf c)
  ((g.reeve ++ g.reeveBack).filterMap fun j =>
      if j.core = c ∧ bitsOf j.ctl 38 37 = 3 ∧ bitsOf j.ctl 51 48 = h then some j.serial else none)
    ++ (g.splice ++ g.spliceBack).filterMap fun j => match j.op with
      | .mrdacc k _ _ => if j.core = c ∧ k = h then some j.serial else none
      | _ => none

/-- A landing of a Lanyard port fills a ring of a core (29 R389). -/
def portFills (s : State) (c h : Nat) : Bool :=
  s.ports.any fun p => (p.2.landing.map fun l => decide (l.ring = some (c, h)) && decide (l.reason ≠ 1)
    && decide (l.reason ≠ 3)).getD false

/-- A job that fills a ring of a core may take the slot at TAIL (19 R286 R291): the slot is free, no job accepted before it
fills the ring still, and no landing does. -/
def fillTurn (s : State) (c h n : Nat) (r : Ring) : Bool :=
  decide (1 ≤ r.free) && ((ringFillers s c h).all fun k => decide (n ≤ k)) && !portFills s c h

/-- The west or the north neighbour of a cluster (19 R283). -/
def neighbour (g : Nat) (west : Bool) : Nat :=
  let x := g % 4
  let y := g % 16 / 4
  16 * (g / 16) + (if west then 4 * y + (x + 3) % 4 else 4 * ((y + 3) % 4) + x)

/-- The core of the same index in a neighbour cluster (19 R283). -/
def neighbourCore (c : Nat) (west : Bool) : Nat := 8 * neighbour (c / 8) west + c % 8

/-- A neighbour ring that cannot take a tile (19 R283). -/
def forwardBad (s : State) (j : SpliceJob) (west : Bool) (h bytes : Nat) : Bool :=
  let n := neighbourCore j.core west
  match findRing s n h with
  | none => true
  | some r => decide ((s.getCore n).dom ≠ some j.dom) || decide (r.slotBytes < bytes)

/-- Whether a neighbour ring has a free slot. -/
def forwardRoom (s : State) (c : Nat) (west : Bool) (h : Nat) : Bool :=
  match findRing s (neighbourCore c west) h with
  | some r => decide (1 ≤ r.free)
  | none => false

/-- The handles of a matrix job, and whether it forwards. -/
def matrixHandles : SpliceOp → Option (Nat × Nat × Bool)
  | .mma a b | .mmarLast a b => some (a, b, false)
  | .mmar a b => some (a, b, true)
  | _ => none

/-- What makes a matrix job fail before its first k-step (19 R282 R283). -/
def matrixBad (s : State) (j : SpliceJob) (a b : Nat) (fwd : Bool) : Bool :=
  match findRing s j.core a, findRing s j.core b with
  | some ra, some rb =>
    tileBad (slotMeta ra ra.head) (ctxA j.ctx.word) false || tileBad (slotMeta rb rb.head) (ctxB j.ctx.word) true
      || (fwd && (forwardBad s j true a (planeBytes (ctxA j.ctx.word)) || forwardBad s j false b (planeBytes (ctxB j.ctx.word))))
  | _, _ => true

/-- Whether a queued job may start now (19 R282-R286): its slots are there. -/
def spliceReady (s : State) (j : SpliceJob) : Bool :=
  match j.op with
  | .mzero => true
  | .mrdacc h _ _ => match findRing s j.core h with
    | some r => fillTurn s j.core h j.serial r
    | none => true
  | .mma a b | .mmarLast a b => filled a && filled b
  | .mmar a b => filled a && filled b && (matrixBad s j a b true || (forwardRoom s j.core true a && forwardRoom s j.core false b))
where
  /-- A filled slot of a handle of the job's core. -/
  filled (h : Nat) : Bool := match findRing s j.core h with
    | some r => decide (1 ≤ r.filled)
    | none => true

/-- A job of an engine. -/
def findSplice (s : State) (g id : Nat) : Option SpliceJob := (s.getCluster g).splice.find? fun j => decide (j.id = id)

/-- A job of an engine written. -/
def putSplice (s : State) (g : Nat) (j : SpliceJob) : State :=
  s.modCluster g fun x => { x with splice := mapIf (fun k => decide (k.id = j.id)) (fun _ => j) x.splice }

/-- The tests before a matrix job's first k-step have passed (19 R282 R283): it keeps that answer, and an MMAR keeps the
neighbour slots it waited for. -/
def spliceTested (s : State) (j : SpliceJob) : Bool :=
  match matrixHandles j.op with
  | some (a, b, fwd) => !matrixBad s j a b fwd
  | none => true

/-- A Splice job with the slots of its rings that it takes at its start (19 R282 R286). -/
def SpliceJob.taking (j : SpliceJob) (s : State) : SpliceJob :=
  match j.op with
  | .mma a b | .mmar a b | .mmarLast a b => { j with ta := takeSlot s j.core a false, tb := takeSlot s j.core b false }
  | .mrdacc h _ _ => { j with ta := takeSlot s j.core h true }
  | .mzero => j

/-- SPLICE_JOB_START (19 R282): the oldest job of its core whose slots are ready, while the engine runs none (R284) and
the cluster's arithmetic clock runs (log 38). It keeps the slots that it then takes. -/
def execSpliceJobStart (eng id : Nat) (s : State) : Host.Outcome State Fault Refusal :=
  .next (match findSplice s eng id with
    | none => s
    | some j =>
      let q := (s.getCluster eng).splice
      let first := (q.find? fun k => decide (k.core = j.core)).map fun k => k.id
      if q.any (fun k => k.running) || (s.getCore j.core).evict.isSome || decide (first ≠ some id) || !spliceReady s j || (s.getDie (dieOf j.core)).stopped then s
      else setStatus (putSplice s eng { j.taking s with running := true, passed := spliceTested s j }) j.core true id (statusWord 0 0 false 2))

/-- A job leaves the engine with a status (19 R275 R276). -/
def spliceFinish (s : State) (g : Nat) (j : SpliceJob) (st : Word) : State :=
  let s := admitBack (s.modCluster g fun x => { x with splice := x.splice.filter fun k => decide (k.id ≠ j.id) }) g
  jobEnded s { splice := true, core := j.core, id := j.id, dom := j.dom, status := st, notify := ctxNotify j.ctx.word,
               ep := ctxEp j.ctx.word, words := [BitVec.ofNat 64 j.id, st] }

/-- The charge of a matrix job's k-steps (23 R334). -/
def matrixTerms (w : Word) (steps : Nat) : List Term :=
  let a := ctxA w
  let b := ctxB w
  if fmtInteger a then [(steps * fmtWidth a * fmtWidth b, 13)]
  else if fmtCoded a && fmtCoded b then [(steps, 15)]
  else [(steps, 14)]

/-- The accumulator bank after a matrix job on slots of two rings, with SAT (19 R282, 09 R156 R157). -/
def matrixBank (x : Core) (ctx : SpliceCtx) (ra rb : Ring) (ta tb : TakenSlot) : Tab (BitVec 32) × Bool :=
  let fa := ctxA ctx.word
  let fb := ctxB ctx.word
  let e := metaScale ta.meta_ + metaScale tb.meta_
  let elA (k m : Nat) := planeBits x.spad (slotBase ra ta.slot) (fmtWidth fa) k m
  let elB (k n : Nat) := planeBits x.spad (slotBase rb tb.slot) (fmtWidth fb) k n
  (upto 16384).foldl (fun (acc : Tab (BitVec 32) × Bool) n =>
    let i := n / 128
    let j := n % 128
    let old := tabGet 0 x.bank n
    let (v, sat) : BitVec 32 × Bool :=
      if ctxInt ctx.word then accInt (fun k => intElem fa (elA k i)) (fun k => intElem fb (elB k j)) e old
      else (accFloat (fun k => floatElem fa ctx.atab (elA k i)) (fun k => floatElem fb ctx.btab (elB k j)) e old, false)
    (tabPut acc.1 n v, acc.2 || sat)) ([], false)

/-- HEAD of a handle advanced (17 R269). -/
def advanceHead (s : State) (c h : Nat) : State :=
  match findRing s c h with
  | some r => putRing s c h { r with head := r.head + 1 }
  | none => s

/-- A matrix job ends (19 R282 R283): by the tests of its start; one whose own ring is no longer defined fails. -/
def matrixEnd (s : State) (g : Nat) (j : SpliceJob) (a b : Nat) (fwd : Bool) : State :=
  if !j.passed || (findRing s j.core a).isNone || (findRing s j.core b).isNone then spliceFinish s g j (statusWord 0 Cause.engineOperand.code false 4)
  else if fwd && !(j.westTail && j.northTail) then s
  else match findRing s j.core a, findRing s j.core b with
  | some ra, some rb =>
    let (bank, sat) := matrixBank (s.getCore j.core) j.ctx ra rb j.ta j.tb
    let s := s.modCore j.core fun x => { x with bank := bank }
    let s := advanceHead (advanceHead s j.core a) j.core b
    let s := charge s j.dom g (matrixTerms j.ctx.word 128)
    spliceFinish s g j (statusWord 128 0 sat 3)
  | _, _ => s

/-- MMAR_FORWARD_LANDED (19 R283): every byte of a forwarded tile has landed in the neighbour's slot with its metadata, and
that ring's TAIL advances; a tile whose ring the neighbour has lost since the job's start lands nowhere (log 38); none on a die whose clocks stand still (31 R405). -/
def execMmarForwardLanded (eng id : Nat) (west : Bool) (s : State) : Host.Outcome State Fault Refusal :=
  .next (match findSplice s eng id with
    | none => s
    | some j =>
      match matrixHandles j.op with
      | some (a, b, true) =>
        let h := if west then a else b
        let t := if west then j.ta else j.tb
        let done := if west then j.westTail else j.northTail
        let bytes := planeBytes (if west then ctxA j.ctx.word else ctxB j.ctx.word)
        let landed (s : State) : State := putSplice s eng (if west then { j with westTail := true } else { j with northTail := true })
        if (s.getDie (dieOf j.core)).stopped || !j.running || done || !j.passed then s
        else if forwardBad s j west h bytes then landed s
        else match findRing s j.core h, findRing s (neighbourCore j.core west) h with
        | some r, some n =>
          let nc := neighbourCore j.core west
          let tile := memBytes (s.getCore j.core).spad (slotBase r t.slot) bytes
          let s := s.modCore nc fun x => { x with spad := memPutBytes x.spad (slotBase n (n.slotOf n.tail)) tile }
          landed (putRing s nc h { n with tail := n.tail + 1, meta_ := n.meta_.set (n.slotOf n.tail) t.meta_ })
        | _, _ => landed s
      | _ => s)

/-- A bank element converted to a target by R158: the element's bits and whether it sets SAT. An I32 element goes to BF16
or F16 through its rounded F32 value (log 15). -/
def accConvert (int : Bool) (t : AccTarget) (tab : Option CodeSlot) (x : BitVec 32) : Nat × Bool :=
  let f := unpackF fmtF32 x.toNat
  let toFmt (m : Fmt) (r : Nat × Nat) : Nat × Bool := (r.1, decide (r.2 / flagOF % 2 = 1) && decide (m.fb < 23))
  let viaInt : Fp := .fin (decide (x.toInt < 0)) x.toInt.natAbs 0
  let wide : Fp := if int then unpackF fmtF32 (intConv fmtF32 .rne x.toInt).1 else f
  match t with
  | .f32 => if int then ((intConv fmtF32 .rne x.toInt).1, false) else (x.toNat, false)
  | .bf16 => toFmt fmtBF16 (fpConv fmtBF16 .rne false wide)
  | .f16 => toFmt fmtF16 (fpConv fmtF16 .rne false wide)
  | .i32 =>
    if int then (x.toNat, false)
    else
      let (v, fl) := fpConvInt .rne (-(2 ^ 31)) (2 ^ 31 - 1) f
      (wrapTo 32 v, decide (fl / flagNV % 2 = 1))
  | .i8 =>
    if int then
      let v := clampInt (-128) 127 x.toInt
      (wrapTo 8 v, decide (v ≠ x.toInt))
    else
      let (v, fl) := fpConvInt .rne (-128) 127 f
      (wrapTo 8 v, decide (fl / flagNV % 2 = 1))
  | .code _ =>
    match tab with
    | none => (0, false)
    | some c =>
      let v := if int then viaInt else f
      let (k, fl) := c.encode v
      (k, if fpIsNan v then !c.nanEn else decide (fl / flagOF % 2 = 1))

/-- One row of a row-major tile as bytes (19 R286). -/
def rowImage (f : Nat) (l : List Nat) : List Byte :=
  match f with
  | 7 | 8 => l.foldr (fun x acc => leBytes 4 x ++ acc) []
  | 1 | 2 => l.foldr (fun x acc => leBytes 2 x ++ acc) []
  | 4 | 9 => l.map fun x => BitVec.ofNat 8 x
  | 5 => (upto 7).foldr (fun u acc =>
      leBytes 16 (((l.drop (21 * u)).take 21).foldr (fun x a => x % 64 + 64 * a) 0) ++ acc) []
  | _ => (upto 64).map fun i => BitVec.ofNat 8 (l.getD (2 * i) 0 % 16 + 16 * (l.getD (2 * i + 1) 0 % 16))

/-- MRDACC's job ends (19 R286): the rows written into the slot it took at its start, the metadata set, TAIL advanced. -/
def mrdaccEnd (s : State) (g : Nat) (j : SpliceJob) (h : Nat) (t : AccTarget) (tab : Option CodeSlot) : State :=
  match findRing s j.core h with
  | none => spliceFinish s g j (statusWord 0 Cause.engineOperand.code false 4)
  | some r =>
    let x := s.getCore j.core
    let f := targetFmt t tab
    let el (i k : Nat) := accConvert (ctxInt j.ctx.word) t tab (tabGet 0 x.bank (128 * i + k))
    let sat := (upto 128).any fun i => (upto 128).any fun k => (el i k).2
    let spad := (upto 128).foldl (fun m i =>
      memPutBytes m (slotBase r j.ta.slot + i * rowBytes f) (rowImage f ((upto 128).map fun k => (el i k).1))) x.spad
    let s := s.modCore j.core fun x => { x with spad := spad }
    let s := putRing s j.core h { r with tail := r.tail + 1, meta_ := r.meta_.set j.ta.slot (at_ f 0 ||| at_ 1 7) }
    let s := chargeFrac s j.dom g 128 128 [(5, 14)]
    spliceFinish s g j (statusWord 128 0 sat 3)

/-- SPLICE_JOB_END (19 R282-R286): a running job ends, DONE or FAILED (log 38). -/
def execSpliceJobEnd (eng id : Nat) (s : State) : Host.Outcome State Fault Refusal :=
  .next (match findSplice s eng id with
    | none => s
    | some j =>
      if !j.running || (s.getDie (dieOf j.core)).stopped then s
      else match j.op with
      | .mzero => spliceFinish (s.modCore j.core fun x => { x with bank := [] }) eng j (statusWord 0 0 false 3)
      | .mrdacc h t tab => mrdaccEnd s eng j h t tab
      | .mma a b => matrixEnd s eng j a b false
      | .mmarLast a b => matrixEnd s eng j a b false
      | .mmar a b => matrixEnd s eng j a b true)

end Sys2Proof.Machine
end

