-- ==== Sys2Proof/Machine/Reeve.lean ====
section
/-!
DEFINITION. The Reeve copy engine (19 R289-R295, 30 R396): the five forms with their tests, what a job reads and lands, held
jobs (05 R99), and the end of a job.
-/
namespace Sys2Proof.Machine

/-- NEP of a control word (19 R289). -/
def ctlNep (w : Word) : Nat := bitsOf w 63 56
/-- NOTIFY. -/
def ctlNotify (w : Word) : Bool := w.getLsbD 55
/-- SCOPE. -/
def ctlScope (w : Word) : Nat := bitsOf w 54 52
/-- RH. -/
def ctlRh (w : Word) : Nat := bitsOf w 51 48
/-- MEP. -/
def ctlMep (w : Word) : Nat := bitsOf w 47 40
/-- MSG. -/
def ctlMsg (w : Word) : Bool := w.getLsbD 39
/-- DK. -/
def ctlDk (w : Word) : Nat := bitsOf w 38 37
/-- SK. -/
def ctlSk (w : Word) : Nat := bitsOf w 36 35
/-- FMT of CPYPL's OPT (19 R294). -/
def optFmt (w : Word) : Nat := bitsOf w 4 0
/-- SRCF32 (log 40). -/
def optF32 (w : Word) : Bool := w.getLsbD 5
/-- ORIENT. -/
def optOrient (w : Word) : Bool := w.getLsbD 6
/-- SCALE. -/
def optScale (w : Word) : Nat := bitsOf w 15 8
/-- The fill width of CPYFILL in bytes (19 R289). -/
def optFill (w : Word) : Nat := 2 ^ bitsOf w 1 0

/-- Bytes of a source row of CPYPL (19 R294). -/
def plRowBytes (w : Word) : Nat :=
  match optFmt w with
  | 1 | 2 => if optF32 w then 512 else 256
  | 3 => 512 | 5 => 112 | 6 => 64
  | _ => 128

/-- Rows of a form, and bytes of a row (19 R290). -/
def copyRows (f : ReeveForm) (shape : Word) : Nat × Nat :=
  match f with
  | .cpy2 => (bitsOf shape 31 16, bitsOf shape 15 0)
  | .cpypl => (128, 0)
  | _ => (1, bitsOf shape 39 0)

/-- Source and destination strides of a form (19 R290). -/
def copyStrides (f : ReeveForm) (shape : Word) : Nat × Nat :=
  match f with
  | .cpy2 => (bitsOf shape 47 32, bitsOf shape 63 48)
  | .cpypl => (bitsOf shape 23 0, 0)
  | _ => (0, 0)

/-- Bytes a job lands (19 R290 R294). -/
def copySize (f : ReeveForm) (shape ctl : Word) : Nat :=
  match f with
  | .cpypl => planeBytes (optFmt ctl)
  | _ => (copyRows f shape).1 * (copyRows f shape).2

/-- Bytes from the first to the last byte of a range with rows and a stride. -/
def rangeBytes (rows row stride : Nat) : Nat := if rows = 0 ∨ row = 0 then 0 else (rows - 1) * stride + row

/-- Bytes a job's source spans, and its destination (19 R290). -/
def copySpans (f : ReeveForm) (shape ctl : Word) : Nat × Nat :=
  let (rows, row) := copyRows f shape
  let (ss, ds) := copyStrides f shape
  match f with
  | .cpypl => (rangeBytes 128 (plRowBytes ctl) ss, planeBytes (optFmt ctl))
  | .cpyfill => (0, row)
  | _ => (rangeBytes rows row ss, rangeBytes rows row ds)

/-- A reserved bit set in an operand word (19 R289 R290 R294) (log 39). -/
def copyReserved (f : ReeveForm) (shape ctl : Word) : Bool :=
  let opt := match f with
    | .cpypl => decide (bitsOf ctl 31 16 ≠ 0) || ctl.getLsbD 7
    | .cpyfill => decide (bitsOf ctl 31 2 ≠ 0)
    | _ => decide (bitsOf ctl 31 0 ≠ 0)
  let sh := match f with
    | .cpy2 => false
    | .cpypl => decide (bitsOf shape 63 24 ≠ 0)
    | _ => decide (bitsOf shape 63 40 ≠ 0)
  decide (bitsOf ctl 34 32 ≠ 0) || opt || sh

/-- An undefined kind, scope, format or scale (19 R290 R294) (log 39). -/
def copyUndefined (f : ReeveForm) (ctl : Word) : Bool :=
  decide (5 ≤ ctlScope ctl) || (decide (f ≠ .cpyfill) && decide (ctlSk ctl = 3))
    || (decide (f = .cpypl) && (!(fmtFloat (optFmt ctl) || fmtInteger (optFmt ctl)) || decide (optScale ctl = 128)))

/-- A length, row count or stride outside its limits (19 R290 R294). -/
def copyLength (f : ReeveForm) (shape ctl : Word) : Bool :=
  let len := bitsOf shape 39 0
  match f with
  | .cpy => ctlMsg ctl && decide (len % 64 ≠ 0)
  | .cpy2 => decide (bitsOf shape 15 0 = 0) || decide (bitsOf shape 31 16 = 0)
  | .cpypl => decide (bitsOf shape 23 0 < plRowBytes ctl)
  | .cpyrd => decide (len = 0) || decide (2097152 < len)
  | .cpyfill => decide (len % optFill ctl ≠ 0)

/-- A combination of kinds that the form forbids (19 R290 R294) (log 40). -/
def copyKinds (f : ReeveForm) (dst ctl : Word) : Bool :=
  let sk := ctlSk ctl
  let dk := ctlDk ctl
  let kinds := match f with
    | .cpy | .cpyfill => false
    | .cpy2 => decide (dk = 3)
    | .cpypl => decide (1 < sk) || !(decide (dk = 1) || decide (dk = 3))
    | .cpyrd => decide (sk ≠ 0) || !(decide (dk = 1) || decide (dk = 3)) || !ctlNotify ctl
  let fmt := optFmt ctl
  let pl := decide (f = .cpypl) && ((optF32 ctl && decide (3 < fmt)) || (decide (fmt = 3) && !optF32 ctl)
    || (decide (dk = 1) && decide (dst.toNat % 64 ≠ 0)))
  kinds || pl || (ctlMsg ctl && (decide (f ≠ .cpy) || decide (dk ≠ 0) || decide (dst.toNat % 64 ≠ 0)))

/-- ENDPOINT for the message endpoint of MSG = 1 (19 R290, 21 R305, 29 R394) (log 41). -/
def mepTrap (s : State) (ctl : Word) : Option (Cause × Word) :=
  let e := endpoint s s.core (ctlMep ctl)
  if ctlMsg ctl && (!epValid e || portDown s e) then some (.endpoint, BitVec.ofNat 64 (ctlMep ctl))
  else none

/-- WINDOW for a scratchpad range beyond the scratchpad (19 R290). -/
def spadRangeTrap (c : Nat) (used : Bool) (o : Word) (n : Nat) : Option (Cause × Word) :=
  if used && decide (n ≠ 0) && decide (spadSize c < o.toNat + n) then some (.window, o) else none

/-- The engine has room for a job (01 R18). -/
def reeveRoom (s : State) : Bool :=
  let g := s.getCluster (clusterOf s.core)
  decide (g.reeve.length < 16) && g.reeveBack.isEmpty

/-- The scope of a code (07 R112). -/
def scopeOfCode (n : Nat) : Scope :=
  match n with
  | 0 => .core | 1 => .cluster | 2 => .die | 3 => .package | _ => .system

/-- Message lengths of completions (19 R280 R290). -/
def completionLen (f : ReeveForm) : Nat := if f = .cpyrd then 4 else 2

/-- The scope at which a job is ordered (07 R118): the edges to its reads and from its writes hold always, and a job works at
home slices, so that one of CORE scope is ordered as at CLUSTER (log 109). -/
def orderScope (sc : Scope) : Scope := if sc = .core then .cluster else sc

/-- An accepted job: a release at SCOPE, its place in the queue, its id (19 R273 R290). -/
def reeveAccept (s : State) (d : SReg) (f : ReeveForm) (src dst shape ctl : Word) : Eff :=
  if !(reeveRoom s && portTurn s false) then .stall (.port false) s
  else
    let c := s.core
    let id := nextJobId s c false
    let ring := decide (ctlDk ctl = 3)
    let j : ReeveJob := { core := c, id := id, form := f, src := src, dst := dst, shape := shape, ctl := ctl, dom := s.act.dom,
                          kernel := s.act.kernel, modes := s.act.modes, running := !ring, slot := none, held := false,
                          killed := false, trapKernel := 0, trapOut := false, issuer := s.act.serial, done := 0, sent := false, acked := 0,
                          serial := s.serial, port := none, ending := none }
    let sc := orderScope (scopeOfCode (ctlScope ctl))
    let s := release s c s.act.dom sc
    let s := (tableAccept s c false (if ring then 1 else 2)).modCore c fun x => { x with reeveScopes := tabPut x.reeveScopes id sc }
    let s := { s with serial := s.serial + 1 }.modCluster (clusterOf c) fun g => { g with reeve := g.reeve ++ [j], lastReeve := c % 8 }
    plain (s.setS d (BitVec.ofNat 64 id))

/-- The job-starting Reeve instructions (19 R289 R290). -/
def copyOp (i : Instr) (s : State) (d : SReg) (g : BitVec 4) (f : ReeveForm) : Host.Outcome State Fault Refusal :=
  issue i s fun s =>
    let reg (k : Nat) : Word := s.getS (BitVec.ofNat 6 (4 * g.toNat + k))
    let src := reg 0
    let dst := reg 1
    let shape := reg 2
    let ctl := reg 3
    let (sb, db) := copySpans f shape ctl
    engineGuard [
      operandTrap (copyReserved f shape ctl) 4, operandTrap (copyUndefined f ctl) 5, operandTrap (copyLength f shape ctl) 7,
      operandTrap (copyKinds f dst ctl) 8,
      reservedEp (ctlNep ctl), notifyTrap s (ctlNotify ctl) (ctlNep ctl) (completionLen f), reservedEp (ctlMep ctl), mepTrap s ctl,
      if ctlDk ctl = 3 then ringTrap s (BitVec.ofNat 4 (ctlRh ctl)) else none,
      spadRangeTrap s.core (decide (f ≠ .cpyfill) && decide (ctlSk ctl = 1)) src sb,
      spadRangeTrap s.core (decide (ctlDk ctl = 1)) dst db,
      operandTrap (decide (ctlDk ctl = 3) && decide (slotBytesOf s (BitVec.ofNat 4 (ctlRh ctl)) < copySize f shape ctl)) 3] fun _ =>
        reeveAccept s d f src dst shape ctl

/-- CPY (19 R290). -/
def execCpy (d : SReg) (g : BitVec 4) (s : State) : Host.Outcome State Fault Refusal := copyOp (.cpy d g) s d g .cpy
/-- CPY2 (19 R290). -/
def execCpy2 (d : SReg) (g : BitVec 4) (s : State) : Host.Outcome State Fault Refusal := copyOp (.cpy2 d g) s d g .cpy2
/-- CPYPL (19 R290 R294). -/
def execCpypl (d : SReg) (g : BitVec 4) (s : State) : Host.Outcome State Fault Refusal := copyOp (.cpypl d g) s d g .cpypl
/-- CPYRD (19 R290). -/
def execCpyrd (d : SReg) (g : BitVec 4) (s : State) : Host.Outcome State Fault Refusal := copyOp (.cpyrd d g) s d g .cpyrd
/-- CPYFILL (19 R290) (log 39). -/
def execCpyfill (d : SReg) (g : BitVec 4) (s : State) : Host.Outcome State Fault Refusal := copyOp (.cpyfill d g) s d g .cpyfill

/-- JOB_ACCEPT (01 R18, 19 R273): an instruction that waits at its port, not issued, is issued where the engine has room and
its core's turn comes, unless a budget that has ended has its activation dumped first (03 R73); the word is read again as the
fetch reads it, and a fetch that faults traps. -/
def execJobAccept (core slot : Nat) (s : State) : Host.Outcome State Fault Refusal :=
  let s := s.select core slot
  let waits := match s.act.wait with
    | some (.port splice) => (if splice then spliceRoom s else reeveRoom s) && portTurn s splice
    | _ => false
  if !(decide (s.core = core) && decide (s.slot = slot) && s.live && waits && decide (s.act.status = .running)
      && decide (s.act.halt = .none) && !(s.getDie (dieOf core)).stopped && !budgetOver s core s.act s.time) then .next s
  else match fetchLine s s.core s.act.dom s.act.kernel s.act.pc with
  | .error (.wait pl) => .next (askBack s pl)
  | .error (.fault c v t) => .next (takeTrap t c v)
  | .ok (l, s) =>
    match decodeMain (wordAt l s.act.pc) with
    | .ok (.mma d a b) => execMma d a b s
    | .ok (.mmar d a b) => execMmar d a b s
    | .ok (.mmarLast d a b) => execMmarLast d a b s
    | .ok (.mzero d) => execMzero d s
    | .ok (.mrdacc d h t) => execMrdacc d h t s
    | .ok (.cpy d g) => execCpy d g s
    | .ok (.cpy2 d g) => execCpy2 d g s
    | .ok (.cpypl d g) => execCpypl d g s
    | .ok (.cpyrd d g) => execCpyrd d g s
    | .ok (.cpyfill d g) => execCpyfill d g s
    | _ => .next s

/-- What a piece of a job's access answers: the bytes that could be read, or how many could be written, and why not more. -/
abbrev Piece (α : Type) := α × Option AccErr × State

/-- A part of a core window that a Reeve job of a domain may reach (05 R79 R80): the core, whether it is the accumulator
bank, the offset in the part, and its bytes from there (log 23). -/
def windowPart (s : State) (dom pa : Nat) : Option (Nat × Bool × Nat × Nat) :=
  match regionOf pa with
  | .coreWindow c =>
    let off := (pa - 0xF00000000000) % 0x100000
    if (s.getCore c).dom ≠ some dom then none
    else if off < spadSize c then some (c, false, off, spadSize c - off)
    else if !isSystem c ∧ 0x80000 ≤ off ∧ off < 0x90000 then some (c, true, off - 0x80000, 0x90000 - off)
    else none
  | _ => none

/-- Bytes of an accumulator bank in the layout of R79. -/
def bankBytes (b : Tab (BitVec 32)) (off n : Nat) : List Byte :=
  (upto n).map fun i => ((tabGet 0 b ((off + i) / 4)) >>> (8 * ((off + i) % 4))).setWidth 8

/-- An accumulator bank with one byte written in the layout of R79. -/
def bankPutByte (b : Tab (BitVec 32)) (off : Nat) (x : Byte) : Tab (BitVec 32) :=
  let old := tabGet 0 b (off / 4)
  let sh := 8 * (off % 4)
  tabPut b (off / 4) ((old &&& ~~~((0xFF : BitVec 32) <<< sh)) ||| (x.setWidth 32 <<< sh))

/-- An accumulator bank with bytes written. -/
def bankPutBytes (b : Tab (BitVec 32)) (off : Nat) : List Byte → Tab (BitVec 32)
  | [] => b
  | x :: r => bankPutBytes (bankPutByte b off x) (off + 1) r

/-- Bytes of core windows from a physical address up, through parts that follow each other, at most one for each unit of
fuel: those before an absent part (05 R79 R80). -/
def windowRead (s : State) (dom : Nat) : Nat → Nat → Nat → List Byte
  | 0, _, _ => []
  | f + 1, pa, n =>
    match windowPart s dom pa with
    | none => []
    | some (c, bank, off, room) =>
      let k := min n room
      let bs := if bank then bankBytes (s.getCore c).bank off k else memBytes (s.getCore c).spad off k
      if k = n then bs else bs ++ windowRead s dom f (pa + k) (n - k)

/-- Step 1 of R100 for a job's access, with the address whole, so that a walk's absent entry is told apart (05 R99 R100). -/
def engineHigh (s : State) (va : Word) : Option AccErr := if bitsOf va 63 57 ≠ 0 then some (.fault .pageAbsent va s) else none

/-- Bytes within one line of a job's domain read at the home slice (19 R292, 05 R94 R100). -/
def engineRead (s : State) (j : ReeveJob) (va : Word) (n : Nat) : Piece (List Byte) :=
  if (engineHigh s va).isSome then ([], engineHigh s va, s)
  else match homeLine s j.core j.dom (clusterOf j.core) j.kernel .load va false with
  | .error e => ([], some e, e.after s)
  | .ok (h, s) => (leBytes n (lineNat h.data (va.toNat % 128) n), none, s)

/-- A job with a virtual destination writes all 128 bytes of the line of an address (05 R110, 19 R290): each byte lies in
the last of its rows that begins at the byte or below it, if in any. -/
def coversLine (j : ReeveJob) (va : Word) : Bool :=
  let (rows, row) := copyRows j.form j.shape
  let (_, ds) := copyStrides j.form j.shape
  let dst := j.dst.toNat
  (upto 128).all fun i =>
    let x := va.toNat / 128 * 128 + i
    let r := if ds = 0 then 0 else min (rows - 1) ((x - dst) / ds)
    decide (dst ≤ x) && decide (x < dst + r * ds + row)

/-- A write to a poisoned-lost line by a kernel-mode job of the owning domain's kernel that writes all 128 bytes of it
(05 R110): it is let through. What the job has written so far is kept beside the mark; with the last byte the line is written
whole, and the mark goes (log 113). -/
def healWrite (s : State) (j : ReeveJob) (va : Word) (bs : List Byte) : Option State :=
  if !j.kernel || !coversLine j va then none
  else match homePlace s j.dom (clusterOf j.core) j.kernel .store va true with
  | .error _ => none
  | .ok (p, s) =>
    let pl := p.pa / 128
    let off := va.toNat % 128
    let m := byteMask off bs.length
    let (old, done) := tabGet (0, 0) (tabGet [] s.lost pl) j.serial
    let now := mergeLine old (lineOf off bs.length (leNat bs)) m
    if kernelOf (getFrame s (pl / 32)).owner ≠ j.dom then none
    else if done ||| m = BitVec.allOnes 128 then
      let (h, s) := homeServe s j.core j.dom (clusterOf j.core) va p
      some (homeStore { s with lost := tabErase s.lost pl } j.dom (clusterOf j.core) h.keyid h.pl now (BitVec.allOnes 128) fun _ => none)
    else some { s with lost := tabPut s.lost pl (tabPut (tabGet [] s.lost pl) j.serial (now, done ||| m)) }

/-- Bytes within one line of a job's domain written at the home slice (19 R292). -/
def engineWrite (s : State) (j : ReeveJob) (va : Word) (bs : List Byte) : Option AccErr × State :=
  let off := va.toNat % 128
  if (engineHigh s va).isSome then (engineHigh s va, s)
  else match atHome s j.core j.dom (clusterOf j.core) j.kernel .store va
      (fun _ => (lineOf off bs.length (leNat bs), byteMask off bs.length, (fun _ => none), ())) with
  | .ok (_, _, s) => (none, s)
  | .error (.fault .dataLost v t) =>
    match healWrite s j va bs with
    | some s => (none, s)
    | none => (some (.fault .dataLost v t), t)
  | .error e => (some e, e.after s)

/-- Up to 128 bytes of a job's source by kind (19 R289): those that could be read in copy order. -/
def sourceRead (s : State) (j : ReeveJob) (a : Word) (n : Nat) : Piece (List Byte) :=
  match ctlSk j.ctl with
  | 0 =>
    let first := min n (128 - a.toNat % 128)
    match engineRead s j a first with
    | (bs, some e, s) => (bs, some e, s)
    | (bs, none, s) =>
      if n ≤ first then (bs, none, s)
      else
        let (r, e, s) := engineRead s j (a + BitVec.ofNat 64 first) (n - first)
        (bs ++ r, e, s)
  | 1 => (memBytes (s.getCore j.core).spad a.toNat n, none, s)
  | _ =>
    let bs := windowRead s j.dom 2 a.toNat n
    (bs, if bs.length < n then some (.fault .window a s) else none, s)

/-- Up to 128 bytes, within one line, of a job's destination by kind: how many landed (19 R289 R292). -/
def destWrite (s : State) (j : ReeveJob) (dk : Nat) (a : Word) (bs : List Byte) : Piece Nat :=
  match dk with
  | 0 => match engineWrite s j a bs with
    | (some e, s) => (0, some e, s)
    | (none, s) => (bs.length, none, s)
  | 1 => (bs.length, none, s.modCore j.core fun x => { x with spad := memPutBytes x.spad a.toNat bs })
  | _ =>
    match windowPart s j.dom a.toNat with
    | none => (0, some (.fault .window a s), s)
    | some (c, bank, off, room) =>
      let k := min bs.length room
      let s := s.modCore c fun x =>
        if bank then { x with bank := bankPutBytes x.bank off (bs.take k) } else { x with spad := memPutBytes x.spad off (bs.take k) }
      (k, if k < bs.length then some (.fault .window a s) else none, s)

/-- Where a job lands: its destination kind with a ring slot as its scratchpad range, and the address (19 R291). -/
def jobDest (s : State) (j : ReeveJob) : Nat × Word :=
  if ctlDk j.ctl = 3 then
    (1, match findRing s j.core (ctlRh j.ctl) with
      | some r => BitVec.ofNat 64 (r.base + (j.slot.getD 0) * r.slotBytes)
      | none => 0)
  else (ctlDk j.ctl, j.dst)

/-- The source and destination addresses of byte `p` in copy order (19 R290 R292), and the bytes left in its row (log 12). -/
def copyAt (j : ReeveJob) (dest : Word) (p : Nat) : Word × Word × Nat :=
  let (_, row) := copyRows j.form j.shape
  let (ss, ds) := copyStrides j.form j.shape
  let r := p / row
  let c := p % row
  (j.src + BitVec.ofNat 64 (r * ss + c), dest + BitVec.ofNat 64 (r * ds + c), row - c)

/-- The bytes of a fill from position `p` (19 R290). -/
def fillBytes (j : ReeveJob) (p n : Nat) : List Byte :=
  let w := optFill j.ctl
  (upto n).map fun i => (j.src >>> (8 * ((p + i) % w))).setWidth 8

/-- The bytes a piece of a copy lands (19 R292): where a source byte has changed since the job began to run (state `s0`), as
it may where source and destination overlap, what it held then or what it holds now. -/
def overlapBytes (s0 : State) (j : ReeveJob) (sa : Word) (p : Nat) (bs : List Byte) (s : State) : List Byte × State :=
  let old := (sourceRead s0 j sa bs.length).1
  if old = bs then (bs, s)
  else
    let (n, s) := s.draw
    ((upto bs.length).map fun i => if Config.copyChoice n (p + i) then old.getD i (bs.getD i 0) else bs.getD i 0, s)

/-- Up to 128 bytes of a job from byte `p` in copy order. -/
def pieceBytes (s0 : State) (j : ReeveJob) (sa : Word) (p k : Nat) (s : State) : Piece (List Byte) :=
  if j.form = .cpyfill then (fillBytes j p k, none, s)
  else
    let (bs, e, s) := sourceRead s j sa k
    let (bs, s) := overlapBytes s0 j sa p bs s
    (bs, e, s)

/-- A job's copy from byte `p` on, at most one piece for each unit of fuel (19 R292): the bytes completed, and what stopped
it. -/
def copyLoop (s0 : State) (j : ReeveJob) (dk : Nat) (dest : Word) (total : Nat) : Nat → Nat → State → Piece Nat
  | 0, p, s => (p, none, s)
  | n + 1, p, s =>
    if total ≤ p then (p, none, s)
    else
      let (sa, da, left) := copyAt j dest p
      let k := min left (128 - da.toNat % 128)
      let (bs, e1, s) := pieceBytes s0 j sa p k s
      let (m, e2, s) : Piece Nat := if bs.isEmpty then (0, none, s) else destWrite s j dk da bs
      match e2, e1 with
      | some e, _ => (p + m, some e, s)
      | none, some e => (p + m, some e, s)
      | none, none => copyLoop s0 j dk dest total n (p + m) s

/-- Of a piece's bytes, those that choice `n` lets land, one by one; a byte whose destination faults does not. -/
def landChosen (j : ReeveJob) (dk n p : Nat) (da : Word) (bs : List Byte) (s : State) : State :=
  (upto bs.length).foldl (fun s i =>
    if Config.copyChoice n (p + i) then (destWrite s j dk (da + BitVec.ofNat 64 i) [bs.getD i 0]).2.2 else s) s

/-- The bytes of a failed copy from byte `p` to `stop` in copy order that have landed none the less (19 R293) (log 12). -/
def copyLate (s0 : State) (j : ReeveJob) (dk : Nat) (dest : Word) (n stop : Nat) : Nat → Nat → State → State
  | 0, _, s => s
  | f + 1, p, s =>
    if stop ≤ p then s
    else
      let (sa, da, left) := copyAt j dest p
      let k := min (min left (stop - p)) (min (128 - da.toNat % 128) (128 - sa.toNat % 128))
      let s := if (upto k).any fun i => Config.copyChoice n (p + i) then
          let (bs, _, s) := pieceBytes s0 j sa p k s
          landChosen j dk n p da bs s
        else s
      copyLate s0 j dk dest n stop f (p + k) s

/-- What a failed job may have landed past its first `p` bytes (19 R293): up to 4,096 further bytes in copy order, of a
message-mode job none. -/
def landLate (s : State) (j : ReeveJob) (p : Nat) : State :=
  let (dk, dest) := jobDest s j
  let stop := min (copySize j.form j.shape j.ctl) (p + 4096)
  if ctlMsg j.ctl then s
  else
    let (n, s) := s.draw
    if j.form = .cpypl then
      s.modCore j.core fun x => { x with spad := (upto (stop - p)).foldl (fun m i =>
        if Config.copyChoice n (p + i) then memPut m (dest.toNat + p + i) (Config.tileByte n (p + i)) else m) x.spad }
    else copyLate s j dk dest n stop 4096 p s

/-- The bytes a message-mode job reads (19 R291): those before a fault. -/
def readLoop (j : ReeveJob) (total : Nat) : Nat → Nat → List Byte → State → List Byte × Option AccErr × State
  | 0, _, acc, s => (acc, none, s)
  | n + 1, p, acc, s =>
    if total ≤ p then (acc, none, s)
    else
      let k := min 128 (total - p)
      match sourceRead s j (j.src + BitVec.ofNat 64 p) k with
      | (bs, some e, s) => (acc ++ bs, some e, s)
      | (bs, none, s) => readLoop j total n (p + k) (acc ++ bs) s

/-- Source elements of a CPYPL row as plane fields, and whether an integer clamped (19 R294). -/
def planeRow (ctl : Word) (bs : List Byte) : List Nat × Bool :=
  let f := optFmt ctl
  let num (off n : Nat) : Nat := leNat ((bs.drop off).take n)
  match f with
  | 1 | 2 | 3 =>
    let m := if f = 1 then fmtBF16 else if f = 2 then fmtF16 else fmtN19
    (if optF32 ctl then (upto 128).map fun c => (fpConv m .rne false (unpackF fmtF32 (num (4 * c) 4))).1
     else (upto 128).map fun c => num (2 * c) 2, false)
  | 4 => ((upto 128).map fun c => num c 1, false)
  | 5 => ((upto 128).map fun c => num (16 * (c / 21)) 16 / 2 ^ (6 * (c % 21)) % 64, false)
  | 6 => ((upto 128).map fun c => num (c / 2) 1 / 16 ^ (c % 2) % 16, false)
  | _ =>
    let w := fmtWidth f
    let signed := decide (0x18 ≤ f)
    let val (c : Nat) : Int := if signed then (BitVec.ofNat 8 (num c 1)).toInt else num c 1
    let lo : Int := if signed then -(2 ^ (w - 1)) else 0
    let hi : Int := if signed then 2 ^ (w - 1) - 1 else 2 ^ w - 1
    ((upto 128).map fun c => wrapTo w (clampInt lo hi (val c)), (upto 128).any fun c => decide (clampInt lo hi (val c) ≠ val c))

/-- The bytes of a plane tile of rows of fields (19 R278): `orient` true for B. -/
def planeTile (w : Nat) (orient : Bool) (rows : List (List Nat)) : List Byte :=
  let el (k jj : Nat) : Nat := if orient then (rows.getD k []).getD jj 0 else (rows.getD jj []).getD k 0
  (upto (2048 * w)).map fun o =>
    let b := o / 2048
    let k := o % 2048 / 16
    let jb := o % 16
    BitVec.ofNat 8 ((upto 8).foldl (fun acc i => acc + el k (8 * jb + i) / 2 ^ b % 2 * 2 ^ i) 0)

/-- Row `r` of a CPYPL source. -/
def planeSource (s : State) (j : ReeveJob) (r : Nat) : List Byte × Option AccErr × State :=
  let row := { j with src := j.src + BitVec.ofNat 64 (r * bitsOf j.shape 23 0) }
  readLoop row (plRowBytes j.ctl) (plRowBytes j.ctl + 1) 0 [] s

/-- The rows of a CPYPL source from row `r` on, `n` of them. -/
def planeRows (j : ReeveJob) : Nat → Nat → State → List (List Nat) × Bool × Option AccErr × State
  | 0, _, s => ([], false, none, s)
  | n + 1, r, s =>
    match planeSource s j r with
    | (_, some e, s) => ([], false, some e, s)
    | (bs, none, s) =>
      let (l, sat) := planeRow j.ctl bs
      let (ls, sat', e, s) := planeRows j n (r + 1) s
      (l :: ls, sat || sat', e, s)

/-- A CPYPL job's landing (19 R294): bytes completed, SAT, what stopped it (log 12). -/
def planeCopy (s : State) (j : ReeveJob) : Nat × Bool × Option AccErr × State :=
  match planeRows j 128 0 s with
  | (_, _, some e, s) => (0, false, some e, s)
  | (rows, sat, none, s) =>
    let tile := planeTile (fmtWidth (optFmt j.ctl)) (optOrient j.ctl) rows
    let (_, da) := jobDest s j
    (tile.length, sat, none, s.modCore j.core fun x => { x with spad := memPutBytes x.spad da.toNat tile })

/-- A job of an engine. -/
def findReeve (s : State) (g id : Nat) : Option ReeveJob := (s.getCluster g).reeve.find? fun j => decide (j.id = id)

/-- A job of an engine written. -/
def putReeve (s : State) (g : Nat) (j : ReeveJob) : State :=
  s.modCluster g fun x => { x with reeve := mapIf (fun k => decide (k.id = j.id)) (fun _ => j) x.reeve }

/-- The die a byte of a job lies on (23 R334) (log 46). -/
def byteDie (s : State) (j : ReeveJob) (kind : Nat) (a : Word) : Nat :=
  match kind with
  | 0 => match findLeaf s j.dom (clusterOf j.core) a with
    | .ok (l, _) => dieOfAddr l.pa
    | .error _ => dieOf j.core
  | 1 | 3 => dieOf j.core
  | _ => match regionOf a.toNat with
    | .coreWindow c => dieOf c
    | _ => dieOf j.core

/-- The charge of a job at its end (23 R334): 2, plus 3 or 5 for each 128 bytes or part of PROGRESS; for message mode each
unit as a message; each part of a plane tile counts by the job's source address (log 46). -/
def reeveTerms (s : State) (j : ReeveJob) (progress : Nat) : List Term :=
  let (dk, dest) := jobDest s j
  let e := endpoint s j.core (ctlMep j.ctl)
  let part (i : Nat) : Nat :=
    let (sa, da, _) := copyAt j dest (128 * i)
    let sd := if j.form = .cpyfill then dieOf j.core else byteDie s j (ctlSk j.ctl) (if j.form = .cpypl then j.src else sa)
    let dd := if ctlMsg j.ctl then (epPlace e).die else byteDie s j dk (if j.form = .cpypl then dest else da)
    if sd = dd then 3 else 5
  let n := (progress + 127) / 128
  let units := if ctlMsg j.ctl then progress / 64 else 0
  [((upto n).foldl (fun acc i => acc + part i) 2, 12)]
    ++ (if units = 0 then [] else [(units, 8), (units * hops (placeOf (clusterOf j.core)) (epPlace e), 9)])

/-- The metadata word a filled slot gets (19 R279 R294). -/
def fillMeta (j : ReeveJob) : Word :=
  if j.form = .cpypl then at_ (optScale j.ctl) 8 ||| at_ (flag (optOrient j.ctl)) 6 ||| at_ (optFmt j.ctl) 0 else 0

/-- A filled slot: its metadata, then TAIL (19 R291); the slot is the one the job got. -/
def fillDone (s : State) (j : ReeveJob) : State :=
  if ctlDk j.ctl ≠ 3 then s
  else match findRing s j.core (ctlRh j.ctl) with
  | some r => putRing s j.core (ctlRh j.ctl) { r with tail := r.tail + 1, meta_ := r.meta_.set (j.slot.getD 0) (fillMeta j) }
  | none => s

/-- A job ends (19 R275 R276 R293): charged, its slot filled where it is DONE, its status visible. -/
def reeveFinish (s : State) (g : Nat) (j : ReeveJob) (progress : Nat) (cause : Option Cause) (sat : Bool) : State :=
  let s := charge s j.dom g (reeveTerms s j progress)
  let s := if cause.isNone then fillDone s j else s
  let s := jobLanded (admitBack (s.modCluster g fun x => { x with reeve := x.reeve.filter fun k => decide (k.id ≠ j.id) }) g) j.serial
  let st := statusWord progress ((cause.map Cause.code).getD 0) sat (if cause.isNone then 3 else 4)
  jobEnded s { splice := false, core := j.core, id := j.id, dom := j.dom, status := st, notify := ctlNotify j.ctl,
               ep := ctlNep j.ctl,
               words := if j.form = .cpyrd then [BitVec.ofNat 64 j.id, st, j.src, j.dst] else [BitVec.ofNat 64 j.id, st] }

/-- An absent entry that holds a job (05 R99): host-assisted page-walk mode, an address and a TROOT that a walk starts
from. -/
def walkHolds (s : State) (j : ReeveJob) (c : Cause) (v : Word) : Bool :=
  j.modes.getLsbD 2 && decide (c = .pageAbsent) && decide (bitsOf v 63 57 = 0) && (s.getDom j.dom).troot.getLsbD 0

/-- The designator of a Reeve job (19 R303). -/
def jobDesignator (j : ReeveJob) : Word := at_ 1 63 ||| at_ j.core 16 ||| at_ j.id 0

/-- The payload of a held job's trap message (21 R310) (log 42). -/
def jobTrapWords (s : State) (j : ReeveJob) (v : Word) (second : Bool) : List Word :=
  [at_ j.dom 24 ||| at_ (flag j.kernel) 13 ||| at_ (flag second) 11 ||| at_ 1 10 ||| at_ Cause.pageAbsent.code 0,
   0, v, 0, jobDesignator j, 0, BitVec.ofNat 64 s.time]

/-- A job is held at a translation unit (05 R99, 21 R309): its trap message goes out, by R308's third row whoever
issued it (log 42). -/
def holdJob (s : State) (g : Nat) (j : ReeveJob) (v : Word) : State :=
  let via (i : Nat) : State :=
    let e := endpoint s j.core i
    deviceSend (putReeve s g { j with held := true, trapKernel := if epHere e then 0 else epDom e, trapOut := epHere e }) j.core i j.dom 4091 j.dom g
      (jobTrapWords s j v (decide (i = 254)))
  if (s.getDom j.dom).halted then putReeve s g { j with held := true }
  else if epValid (endpoint s j.core 255) then via 255
  else if epValid (endpoint s j.core 254) then via 254
  else if isTenant j.dom then
    notice (putReeve s g { j with held := true, trapKernel := kernelOf j.dom }) (kernelOf j.dom) 4090
      (8 :: (jobTrapWords s j v false).drop 1)
  else haltDomain (putReeve s g { j with held := true }) j.dom 1 (jobDesignator j)

/-- A job ends FAILED with its first `p` bytes completed (19 R293). -/
def reeveFail (s : State) (g : Nat) (j : ReeveJob) (p : Nat) (c : Cause) : State := reeveFinish (landLate s j p) g j p (some c) false

/-- What stopped a copy at byte `p` (19 R293, 05 R99 R110): a failure, a hold, or a wait for an outside host's line. -/
def copyStopped (s : State) (g : Nat) (j : ReeveJob) (p : Nat) (e : AccErr) : State :=
  match e with
  | .wait pl => putReeve (askBack s pl) g { j with done := p }
  | .fault c v _ => if walkHolds s j c v then holdJob s g { j with done := p } v else reeveFail s g j p c

/-- The units of bytes delivered as messages through MEP of this package (05 R80, 19 R291). -/
def sendUnits (s : State) (j : ReeveJob) : Nat → List Byte → State
  | 0, _ => s
  | n + 1, bs =>
    let (o, s) := makeMsg s j.core (ctlMep j.ctl) j.dom 4091 (wordsOf 7 ((bs.take 64).drop 8))
    sendUnits (route s o) j n (bs.drop 64)

/-- Bodies of consecutive DATA flits for the bytes of job number `n` (29 R388): at most 224 bytes each (log 43). -/
def cutBodies (ing dom ddom n total : Nat) : Nat → Nat → List Byte → List Body
  | 0, _, _ => []
  | m + 1, at0, bs =>
    if bs.isEmpty then []
    else
      let k := min 224 bs.length
      { ing := ing, bytes := bs.take 224, last := decide (at0 + k = total), dom := dom, ddom := ddom, job := some (n, at0 + k) }
        :: cutBodies ing dom ddom n total m (at0 + k) (bs.drop 224)

/-- A message-mode job (19 R291 R293, 30 R396): the units wholly read go out; through a Lanyard port it ends when they are
acknowledged (log 41). -/
def messageJob (s : State) (g : Nat) (j : ReeveJob) : State :=
  let total := bitsOf j.shape 39 0
  let e := endpoint s j.core (ctlMep j.ctl)
  match readLoop j total (total + 1) 0 [] s with
  | (bs, stop, s) =>
    match stop with
    | some (.wait pl) => copyStopped s g j 0 (.wait pl)
    | _ =>
      let units := bs.length / 64
      let held := match stop with
        | some (.fault c v _) => walkHolds s j c v
        | _ => false
      if held then copyStopped s g j 0 (stop.getD (.wait 0))
      else if units ≠ 0 ∧ (!epValid e || portDown s e) then reeveFinish s g j 0 (some .endpoint) false
      else
        let s := if units = 0 then s else injectBefore s j.core (ctlMep j.ctl)
        let s := if units = 0 then s
          else if epPkg e = 0 then sendUnits s j units bs
          else
            let ent := (upto units).foldl (fun w _ => epAdvance w) e
            let bodies := cutBodies (epCore e % 256) j.dom (epDom e) j.serial (64 * units) (units + 1) 0 (bs.take (64 * units))
            (setEndpoint s j.core (ctlMep j.ctl) ent).modPort (epPkg e - 1) fun x => { x with queue := x.queue ++ bodies }
        match stop with
        | some (.fault c _ _) => reeveFinish s g j bs.length (some c) false
        | _ => if units ≠ 0 ∧ epPkg e ≠ 0 then putReeve s g { j with sent := true, port := some (epPkg e - 1) } else reeveFinish s g j total none false

/-- A job's own effect from where it stands (19 R290-R294) (log 12); a fill's destination is tested by steps 1 and 2 of R100
in their order. -/
def reeveRun (s : State) (g : Nat) (j : ReeveJob) : State :=
  let (dk, dest) := jobDest s j
  if j.killed then reeveFail s g j j.done .pageAbsent
  else if ctlMsg j.ctl then messageJob s g j
  else match j.form with
  | .cpypl =>
    match planeCopy s j with
    | (_, _, some e, s) => copyStopped s g j 0 e
    | (n, sat, none, s) => reeveFinish s g j n none sat
  | _ =>
    if j.form = .cpyfill ∧ dest.toNat % optFill j.ctl ≠ 0 then
      reeveFail s g j 0 (if dk = 0 ∧ (engineHigh s dest).isSome then .pageAbsent else .misaligned)
    else
      let total := copySize j.form j.shape j.ctl
      match copyLoop s j dk dest total (total + 1) j.done s with
      | (p, some e, s) => copyStopped s g j p e
      | (p, none, s) => reeveFinish s g j p none false

/-- REEVE_RING_SLOT (19 R291): of the jobs of its core that fill a ring the one accepted first gets the ring's next slot, where
one is free and no landing fills it (log 38); none on a die whose clocks stand still (31 R405). -/
def execReeveRingSlot (eng id : Nat) (s : State) : Host.Outcome State Fault Refusal :=
  .next (match findReeve s eng id with
    | none => s
    | some j =>
      match findRing s j.core (ctlRh j.ctl) with
      | none => s
      | some r =>
        if (s.getDie (dieOf j.core)).stopped || j.running || (s.getCore j.core).evict.isSome || decide (ctlDk j.ctl ≠ 3)
            || !fillTurn s j.core (ctlRh j.ctl) j.serial r then s
        else setStatus (putReeve s eng { j with running := true, slot := some (r.slotOf r.tail) }) j.core false id (statusWord 0 0 false 2))

/-- REEVE_JOB_END (19 R290-R294): a running job runs to its end, or as far as it can; one whose end a port has told while its
die's clocks stood still ends (31 R405). -/
def execReeveJobEnd (eng id : Nat) (s : State) : Host.Outcome State Fault Refusal :=
  .next (match findReeve s eng id with
    | none => s
    | some j =>
      if !j.running || j.held || (s.getDie (dieOf j.core)).stopped then s
      else if j.sent then (j.ending.map fun c => reeveFinish s eng j j.acked c false).getD s
      else reeveRun s eng j)

/-- BARRIER_DEFER_LAND (17 R265): the last Reeve job of a deferred arrival has landed; DEFER is decremented where the block
still passes its check for the arriving domain, one that is 0 staying 0 (log 99), else JOB_ERROR. -/
def execBarrierDeferLand (i : Nat) (s : State) : Host.Outcome State Fault Refusal :=
  .next (match s.defers[i]? with
    | none => s
    | some d =>
      if !d.jobs.isEmpty then s
      else
        let r := { s with defers := s.defers.eraseIdx i }
        let fail (r : State) : State := notice r (kernelOf d.dom) 4090 [6, 3, d.block, BitVec.ofNat 64 d.core, 0, BitVec.ofNat 64 d.dom, 0]
        if (addrFault d.block 64).isSome then fail r
        else match atHome r d.core d.dom (clusterOf d.core) d.kernel .both d.block (fun h =>
            let off := d.block.toNat % 128
            let b := lineNat h.data off 64
            (lineOf off 64 (passRule (blockSet32 b 24 (barDefer b - 1))), fieldMask barCounts off, (fun _ => none), ())) with
        | .ok (_, _, s) => s
        | .error (.wait pl) => askBack s pl
        | .error (.fault _ _ t) => fail (keepTraffic r t))

/-- CONTINUATION_DEFERRED_SEND (17 R254): a continuation held at its home slice is sent once its context holds the core. -/
def execContinuationDeferredSend (i : Nat) (s : State) : Host.Outcome State Fault Refusal :=
  .next (match s.conts[i]? with
    | none => s
    | some m =>
      if (s.getCore m.core).dom = some m.dom then continuationDue { s with conts := s.conts.eraseIdx i } m else s)

end Sys2Proof.Machine
end

