-- ==== Sys2Proof/Machine/System.lean ====
section
/-!
DEFINITION. System registers (11 R180-R183, 13 R224 R225, 27 R366 R367), TRAP, ERET and BKPT (13 R226-R228), and words
that match no encoding (11 R169).
-/
namespace Sys2Proof.Machine

/-- TCORE of HOLDC (27 R366). -/
def holdCore (h : Word) : Nat := bitsOf h 63 52
/-- TDOM of HOLDC (27 R366). -/
def holdDom (h : Word) : Nat := bitsOf h 11 4

/-- The grant that lets the activation act on the debug registers of HOLDC's target (27 R367). -/
def debugGrant (s : State) : Option Grant :=
  match grantOf s (holdDom s.act.regs.holdc) with
  | some g => if g.grantee = s.act.dom then some g else none
  | none => none

/-- The state with the registers of a grant changed. -/
def putGrant (s : State) (d : Nat) (g : Grant) : State := { s with grants := tabPut s.grants d g }

/-- The value of a system register (13 R224) (log 26). -/
def sysRead (s : State) (r : SysReg) : Word :=
  let g := s.act.regs
  let tc := holdCore g.holdc
  match r with
  | .epc => g.epc | .ecause => g.ecause | .eval => g.eval | .ebt => g.ebt | .eds => g.eds
  | .fmode => g.fmode | .fstat => g.fstat
  | .lc0 => g.lc0 | .ls0 => g.ls0 | .le0 => g.le0 | .lc1 => g.lc1 | .ls1 => g.ls1 | .le1 => g.le1
  | .time => BitVec.ofNat 64 s.time
  | .ctxid => BitVec.ofNat 64 (s.act.dom % 256)
  | .troot => (s.getDom s.act.dom).troot
  | .pbudget => (s.getDom s.act.dom).pbudget
  | .bpa i => ((debugGrant s).map fun x => tabGet 0 x.bpa (8 * tc + i.toNat)).getD 0
  | .wpa i => ((debugGrant s).map fun x => tabGet 0 x.wpa (4 * clusterOf tc + i.toNat)).getD 0
  | .wpm i => ((debugGrant s).map fun x => tabGet 0 x.wpm (4 * clusterOf tc + i.toNat)).getD 0
  | .holdc => g.holdc

/-- The bits a system register keeps of a written word (11 R182 R183, 05 R89, 09 R141 R142, 27 R367). -/
def sysMask (r : SysReg) (w : Word) : Word :=
  match r with
  | .epc | .ebt | .ls0 | .le0 | .ls1 | .le1 => pcBits w
  | .ecause => w &&& 0xFF
  | .eds => w &&& 3
  | .fmode => w &&& 3
  | .fstat => w &&& 0x13F
  | .lc0 | .lc1 | .pbudget => w &&& 0xFFFFFFFF
  | .troot => w &&& (at_ (2 ^ 40 - 1) 12 ||| 1)
  | .bpa _ => w &&& (at_ (2 ^ 55 - 1) 2 ||| 1)
  | .wpa _ => memEval w
  | .wpm _ => (w &&& at_ 3 8) ||| BitVec.ofNat 64 (min (bitsOf w 5 0) 57)
  | .holdc => w &&& ~~~(0xF : Word)
  | .eval | .time | .ctxid => w

/-- A write of a system register (13 R225). -/
def sysWrite (s : State) (r : SysReg) (w0 : Word) : State :=
  let w := sysMask r w0
  let tc := holdCore s.act.regs.holdc
  let td := holdDom s.act.regs.holdc
  match r with
  | .epc => s.modRegs fun g => { g with epc := w }
  | .ecause => s.modRegs fun g => { g with ecause := w }
  | .eval => s.modRegs fun g => { g with eval := w }
  | .ebt => s.modRegs fun g => { g with ebt := w }
  | .eds => if w = 3 then s else s.modRegs fun g => { g with eds := w }
  | .fmode => s.modRegs fun g => { g with fmode := w }
  | .fstat => s.modRegs fun g => { g with fstat := w }
  | .lc0 => s.modRegs fun g => { g with lc0 := w }
  | .ls0 => s.modRegs fun g => { g with ls0 := w }
  | .le0 => s.modRegs fun g => { g with le0 := w }
  | .lc1 => s.modRegs fun g => { g with lc1 := w }
  | .ls1 => s.modRegs fun g => { g with ls1 := w }
  | .le1 => s.modRegs fun g => { g with le1 := w }
  | .time | .ctxid => s
  | .troot => s.modDom s.act.dom fun d => { d with troot := w }
  | .pbudget => s.modDom s.act.dom fun d => { d with pbudget := w }
  | .bpa i => match debugGrant s with
    | some g => putGrant s td { g with bpa := tabPut g.bpa (8 * tc + i.toNat) w }
    | none => s
  | .wpa i => match debugGrant s with
    | some g => putGrant s td { g with wpa := tabPut g.wpa (4 * clusterOf tc + i.toNat) w }
    | none => s
  | .wpm i => match debugGrant s with
    | some g => putGrant s td { g with wpm := tabPut g.wpm (4 * clusterOf tc + i.toNat) w }
    | none => s
  | .holdc =>
    let s := s.modRegs fun g => { g with holdc := w }
    if bitsOf w0 3 0 = 0 then s else { s with commands := s.commands ++ [{ dom := s.act.dom, core := s.core, word := w0 }] }

/-- SYSR (13 R224). -/
def execSysr (d : SReg) (r : SysReg) (s : State) : Host.Outcome State Fault Refusal :=
  issue (.sysr d r) s fun s => plain (s.setS d (sysRead s r))

/-- SYSW (13 R225). -/
def execSysw (r : SysReg) (a : SReg) (s : State) : Host.Outcome State Fault Refusal :=
  issue (.sysw r a) s fun s => plain (sysWrite s r (s.getS a))

/-- TRAP (13 R226). -/
def execTrap (n : BitVec 13) (s : State) : Host.Outcome State Fault Refusal :=
  issue (.trap n) s fun _ => .trap .trap (n.setWidth 64)

/-- ERET (13 R227): EDS becomes 0, and execution goes where R187 says. -/
def execEret (s : State) : Host.Outcome State Fault Refusal :=
  issue .eret s fun s => .done (s.modRegs fun g => { g with eds := 0 }) (returnFlow s.act.regs) []

/-- BKPT (13 R228). -/
def execBkpt (n : BitVec 13) (s : State) : Host.Outcome State Fault Refusal :=
  issue (.bkpt n) s fun _ => .trap .breakpoint (0x100 + n.setWidth 64)

/-- Why a word that decodes to no instruction traps (11 R169 R170). -/
def rejectCause (c : Nat) (w : IWord) : Cause :=
  if splicelessWord c w then .illegal
  else if fOp w = 0x7C ∨ fOp w = 0x7D then .illegal
  else match decodeMain w with
    | .error .reservedField => .reservedField
    | _ => .illegal

/-- A word that matches no encoding, or sets a reserved field (11 R169). -/
def execIllegal (w : IWord) (s : State) : Host.Outcome State Fault Refusal :=
  .next (takeTrap s (rejectCause s.core w) (w.setWidth 64))

end Sys2Proof.Machine
end

