-- ==== Sys2Proof/Machine/Context.lean ====
section
/-!
DEFINITION. Parked activations answered (19 R302 R303, 21 R311 R312) and context switch (21 R320-R326): images, seals,
eviction, restore, fresh cores.
-/
namespace Sys2Proof.Machine

/-- The control registers of an image as SYSW would keep them (11 R182, 21 R312): no reserved bit, and no EDS of 3. -/
def maskRegs (r : Regs) : Regs :=
  { r with lc0 := sysMask .lc0 r.lc0, ls0 := sysMask .ls0 r.ls0, le0 := sysMask .le0 r.le0, lc1 := sysMask .lc1 r.lc1,
           ls1 := sysMask .ls1 r.ls1, le1 := sysMask .le1 r.le1, fmode := sysMask .fmode r.fmode, fstat := sysMask .fstat r.fstat,
           epc := sysMask .epc r.epc, ecause := sysMask .ecause r.ecause, ebt := sysMask .ebt r.ebt,
           eds := if sysMask .eds r.eds = 3 then 0 else sysMask .eds r.eds }

/-- A register image replaces a parked activation's state (21 R312). -/
def applyImage (a : Act) (bs : List Byte) : Act :=
  { a with regs := { maskRegs (recordRegs a.regs bs) with ecause := a.regs.ecause } }

/-- EDS of a register image is one that no trap records (21 R312) (log 51) (log 56). -/
def imageBad (bs : List Byte) : Bool := decide (bitsOf (recordWord bs 0x490) 1 0 = 3)

/-- Bytes of a domain read by the device from any address, 64 at a time (log 23). -/
def devReadParts (s : State) (d meter core : Nat) (va : Word) : Nat → Acc (List Byte × State)
  | 0 => .ok ([], s)
  | n + 1 =>
    match devReadSpan s d meter core va 64 with
    | .error e => .error e
    | .ok (bs, s) => match devReadParts s d meter core (va + 64) n with
      | .error e => .error e
      | .ok (r, s) => .ok (bs ++ r, s)

/-- A parked activation becomes ready again (21 R311): after the word at EPC or at it. A debug hold of its group halts
it (27 R370); where its domain is held, a quota request reaches it (log 59). -/
def wake (s : State) (c k : Nat) (a : Act) (cont : Bool) : State :=
  let a := if cont then continueAfter a else reExecute a
  let s := { s with issues := s.issues + 1 }.putAct c k
    { a.readied s with status := .running, wait := none, trapKernel := 0, trapOut := false, decided := false }
  let s := acquire s c a.dom .system
  if groupHeld s a.dom (clusterOf c) then s.modAct c k fun a => { a with halt := .group }
  else if (s.getDom a.dom).held then requestAct s c k .quota else s

/-- A decision written into a save record (21 R311 R319): DECISION, REGS, REGADDR (log 58). -/
def markDecision (s : State) (d c : Nat) (rec_ : Word) (code : Nat) (regs : Option Word) : Acc State :=
  match markRecord s d c rec_ 0 (at_ 7 6) (at_ code 6 ||| at_ (flag regs.isSome) 8) with
  | .error e => .error e
  | .ok s => match regs with
    | none => .ok s
    | some w => markRecord s d c rec_ 0x4B0 (BitVec.allOnes 64) (memEval w)

/-- Lines of 64 bytes of a context image (21 R321). -/
def imageLines : Nat := 0xB0000 / 64

/-- The 576 bytes of an actor record as loaded (03 R34), its bindings and EN those in force (log 35) (log 101). -/
def actorBytes (i : Nat) (a : Actor) : List Byte :=
  let present := (upto 16).foldl (fun acc t => acc ||| at_ (flag (match a.tagEnt t with | some e => e.present | none => false)) (16 + t)) 0
  wordBytes ([at_ i 0 ||| at_ (flag a.kernel) 4 ||| at_ (flag a.conc) 5 ||| present, at_ a.spoff 0 ||| at_ a.spsize 32, a.mbase,
      BitVec.ofNat 64 a.msize, a.dqbase, at_ a.dqlog 0 ||| at_ a.steal 8, a.savebase, 0]
    ++ a.tags.foldr (fun e acc =>
      [e.entry, at_ e.prio 0 ||| at_ (e.fire - 1) 2 ||| at_ e.len 5 ||| at_ (flag e.en) 8 ||| at_ e.slog 9, e.sbase, 0] ++ acc) [])

/-- SAVEBASE of a core's runtime actor, 0 where none is loaded. -/
def saveBase (x : Core) : Word := ((tabFind x.actors 15).map fun a => a.savebase).getD 0

/-- The context image of a core (21 R321) with its seal zero; `n` numbers the image (log 35). -/
def imageBytes (s : State) (c d records n : Nat) : List Byte :=
  let x := s.getCore c
  let open_ (part size : Nat) : List Byte := (upto size).map fun i => Config.imageByte part n i
  padTo 0 0x1000 (wordBytes [1 ||| at_ d 8 ||| at_ c 16, BitVec.ofNat 64 s.time, BitVec.ofNat 64 records, saveBase x])
    ++ wordBytes ((upto 256).map fun i => endpoint s c i)
    ++ padTo 0 0x800 (wordBytes ((upto 64).map (fun i => BitVec.ofNat 64 (tabGet 0 x.da i)) ++ [BitVec.ofNat 64 x.wt, at_ (flag x.open_) 0]))
    ++ ((upto 16).foldr (fun i acc => (match tabFind x.actors i with
        | some a => actorBytes i a ++ (upto 256).map (fun j => Config.imageByte 2 n (256 * i + j)) ++ List.replicate 192 0
        | none => List.replicate 1024 0) ++ acc) [])
    ++ padTo 0 0x4000 ((x.store.filter fun m => decide (m.slot = none)).foldr (fun m acc => msgBytes m.msg.hdr m.msg.words ++ acc) [])
    ++ padTo 0 0x1000 (x.ovf.foldr (fun m acc => msgBytes m.msg.hdr m.msg.words ++ acc) [])
    ++ padTo 0 0x1000 (x.deque.foldr (fun r acc => wordBytes (padTo 0 8 r) ++ acc) [])
    ++ ((upto 16).foldr (fun h acc => padTo 0 256 (match tabFind x.rings h with
        | some r => wordBytes ([r.desc, ringInfo s c h] ++ padTo 0 16 r.meta_)
        | none => []) ++ acc) [])
    ++ ((upto 4).foldr (fun k acc => padTo 0 2048 (match tabFind x.code k with
        | some t => imageOfSlot t
        | none => []) ++ acc) [])
    ++ open_ 0 0x2000 ++ open_ 1 0x2000 ++ List.replicate 0xD000 0
    ++ ((upto 16384).foldr (fun i acc => leBytes 4 (tabGet 0 x.bank i).toNat ++ acc) [])
    ++ memBytes x.spad 0 0x80000

/-- An image with its seal zero. -/
def unsealed (bs : List Byte) : List Byte := bs.take 0xFE0 ++ List.replicate 32 0 ++ bs.drop 0x1000

/-- The activation save area of a core whose runtime actor is loaded (21 R318), read for a seal (25 R351); with none loaded there
is no such area, and the seal covers the image alone (log 121). -/
def saveArea (s : State) (d c : Nat) (x : Core) : Acc (List Byte × State) :=
  match tabFind x.actors 15 with
  | some a => devReadAll s d (clusterOf c) c a.savebase 2048
  | none => .ok ([], s)

/-- A seal written at its place in an image (25 R351). -/
def writeSeal (s : State) (d c : Nat) (image : Word) (mac : BitVec 256) : Acc State :=
  devWrite s d (clusterOf c) c (image + 0xFE0) (leBytes 32 mac.toNat)

/-- The image of an evicted context is sealed again after a decision was recorded in a save record (21 R311) (log 56). -/
def reseal (s : State) (old : Nat) (x : ContextSave) : Acc State :=
  match devReadAll s x.dom (clusterOf x.core) x.core x.image imageLines with
  | .error e => .error e
  | .ok (bs, s) => match saveArea s x.dom x.core x.saved with
    | .error e => .error e
    | .ok (area, s) =>
      let mac := Config.seal x.dom (s.getDom x.dom).gen (unsealed bs ++ area)
      match writeSeal s x.dom x.core x.image mac with
      | .error e => .error e
      | .ok s => .ok { s with images := tabPut (tabErase s.images old) mac.toNat x }

/-- A parked activation that a designator names (19 R303, 21 R311): in its slot, or in the image of an evicted context with
the image's number; one whose decision is recorded is parked until its record is restored; of two images
that hold one, that sealed first (log 53). -/
def parkedAt (s : State) (c k : Nat) : Option (Act × Option (Nat × ContextSave)) :=
  let open_ (a : Act) : Bool := match a.status with
    | .parked | .saved _ true => true
    | _ => false
  match (s.findAct c k).filter open_ with
  | some a => some (a, none)
  | none => s.images.findSome? fun x =>
    if x.2.core = c ∧ x.2.live then ((tabFind x.2.acts k).filter open_).map fun a => (a, some x) else none

/-- A decision on a parked activation held in a save record (21 R311), the issuer's stores released first (07 R118). -/
def decide_ (s : State) (c k : Nat) (a : Act) (img : Option (Nat × ContextSave)) (code : Nat) (regs : Option Word) : KAns :=
  let s := release s s.core s.act.dom .system
  match img with
  | none => match recordAddr s c k with
    | none => .fail .memory
    | some rec_ => kernelAcc (markDecision s a.dom c rec_ code regs) fun s => .done 0 (s.modAct c k fun a => { a with decided := true })
  | some (n, x) =>
    let rec_ := saveBase x.saved + BitVec.ofNat 64 (2048 * k)
    kernelAcc (markDecision s a.dom c rec_ code regs) fun s =>
      kernelAcc (reseal s n { x with acts := tabPut x.acts k { a with decided := true } }) fun s => .done 0 s

/-- Bits of a designator that must be zero (19 R303) (log 53). -/
def designatorOk (w : Word) : Bool :=
  if w.getLsbD 63 then decide (bitsOf w 62 29 = 0) else decide (bitsOf w 62 18 = 0)

/-- The held Reeve job a designator names (05 R99, 19 R303). -/
def heldJob (s : State) (w : Word) : Option (Nat × ReeveJob) :=
  let g := clusterOf (bitsOf w 27 16)
  if w.getLsbD 28 then none
  else match findReeve s g (bitsOf w 15 0) with
    | some j => if j.held && decide (j.core = bitsOf w 27 16) then some (g, j) else none
    | none => none

/-- ARESUME and AKILL of a held job (05 R99, 19 R302 R303) (log 59); on a die whose clocks are stopped jobs keep their state
(31 R405), and the word waits (log 115). -/
def answerJob (s : State) (w : Word) (kill : Bool) : KAns :=
  match heldJob s w with
  | none => .fail .absent
  | some (g, j) =>
    if j.trapKernel ≠ s.act.dom then .fail .authority
    else if (s.getDom j.dom).halted then .fail .state
    else if (s.getDie (dieOf j.core)).stopped then .clock j.core
    else .done 0 (putReeve s g { j with held := false, killed := kill, trapKernel := 0 })

/-- ARESUME of an activation (19 R302, 21 R311 R312) (log 59). One in a slot of a die whose clocks are stopped keeps its state
(31 R405), and the word waits (log 115). The device reads the register image at its home slices before the issuer's release,
so that it does not see dirty bytes of the issuer's own L1 (log 116). -/
def resumeParked (s : State) (w : Word) (cont : Bool) (regs : Option Word) : KAns :=
  let c := bitsOf w 17 6
  let k := bitsOf w 5 0
  match parkedAt s c k with
  | none => .fail .absent
  | some (a, img) =>
    if a.trapKernel ≠ s.act.dom then .fail .authority
    else if (s.getDom a.dom).halted then .fail .state
    else if a.status = .parked ∧ (s.getDie (dieOf c)).stopped then .clock c
    else
      let image : Acc (Option (List Byte) × State) := match regs with
        | none => .ok (none, s)
        | some va => (devReadParts s s.act.dom (clusterOf s.core) s.core va 32).map fun r => (some r.1, r.2)
      kernelAcc image fun (bs, s) =>
        if (bs.map imageBad).getD false then .failAfter .format s
        else if a.status ≠ .parked then decide_ s c k a img (if cont then 2 else 1) regs
        else .done 0 (wake (release s s.core s.act.dom .system) c k (match bs with | some b => applyImage a b | none => a) cont)

/-- ARESUME (19 R302) (log 53). -/
def aResume (s : State) (d a b : SReg) : KAns :=
  let w := s.getS a
  let o := s.getS b
  if bitsOf o 63 2 ≠ 0 ∨ !designatorOk w then .fail .format
  else if w.getLsbD 63 then (if o ≠ 0 then .fail .format else answerJob s w false)
  else resumeParked s w (o.getLsbD 0) (if o.getLsbD 1 then some (s.getS d) else none)

/-- ARESUME (19 R302). -/
def execAresume (d a b : SReg) (s : State) : Host.Outcome State Fault Refusal :=
  kernelOp (kernelCode 5 d a b) s d fun s => aResume s d a b

/-- AKILL (19 R302 R303) (log 53); on a die whose clocks are stopped as ARESUME does (log 115). -/
def aKill (s : State) (a b : SReg) : KAns :=
  let w := s.getS a
  if s.getS b ≠ 0 ∨ !designatorOk w then .fail .format
  else if w.getLsbD 63 then answerJob s w true
  else
    let c := bitsOf w 17 6
    let k := bitsOf w 5 0
    match parkedAt s c k with
    | none => .fail .absent
    | some (x, img) =>
      if x.trapKernel ≠ s.act.dom then .fail .authority
      else if (s.getDom x.dom).halted then .fail .state
      else if x.status ≠ .parked then decide_ s c k x img 3 none
      else if (s.getDie (dieOf c)).stopped then .clock c
      else .done 0 (endAct (release s s.core s.act.dom .system) c k x x.regs.epc)

/-- AKILL (19 R302). -/
def execAkill (d a b : SReg) (s : State) : Host.Outcome State Fault Refusal :=
  kernelOp (kernelCode 6 d a b) s d fun s => aKill s a b

/-- The SECURE entry while a kernel's context holds a core (25 R352). -/
def secureEntry (d : Nat) : Word := if d = 1 ∨ d = 2 then at_ 1 63 ||| at_ 4090 32 ||| at_ 7 21 else 0

/-- A core held by a context, its in-core state empty or at reset (21 R324). -/
def freshCore (s : State) (c d : Nat) : State :=
  let x := s.getCore c
  s.setCore c { Core.blank with
    dom := some d, l1 := x.l1, l1i := x.l1i, resident := x.resident, holding := x.holding, heldSeen := (s.getDom d).held,
    endpoints := if secureEntry d = 0 then [] else [(253, secureEntry d)] }

/-- A core that no context may be given (21 R322 R324, 31 R401). -/
def coreTaken (s : State) (c : Nat) : Bool := (s.getCore c).dom.isSome || !dieInService s (dieOf c)

/-- The tests of CTXSW's target that every form makes (19 R300 R302) (log 56). -/
def switchTest (s : State) (w : Word) : Option Result :=
  if !onlyFields w [(19, 0), (29, 28)] || decide (1312 ≤ targetCore w) || (w.getLsbD 29 && !w.getLsbD 28) then some .format
  else (domainTest s s.act.dom (targetDom w)).orElse fun _ =>
    if s.act.dom = 2 ∧ targetCore w < 1280 then none else some .authority

/-- Context eviction begins (21 R320 steps 1 and 2); BUSY where one of the core is under way (log 112). -/
def evictBegin (s : State) (d a b : SReg) : KAns :=
  let w := s.getS b
  let c := targetCore w
  let t := targetDom w
  let image := s.getS a
  if (s.getCore c).dom ≠ some t then .fail .authority
  else if (s.getCore c).evict.isSome then .fail .busy
  else if bitsOf image 11 0 ≠ 0 then .fail .memory
  else kernelAcc (areaOk s t (clusterOf s.core) image 0xB0000) fun s =>
    let saved (a : Act) : Bool := match a.status with
      | .saved _ _ => true
      | _ => false
    let mine := (s.coreActs c).filter fun x => decide (x.2.dom = t)
    let s := s.modCore c fun x => { x with evict := some {
      byCore := s.core, bySlot := s.slot, d := d, a := a, b := b, image := image,
      before := (mine.filter fun x => saved x.2).length } }
    .later (mine.foldl (fun s x => requestAct s c x.1 .evict) s)

/-- The reserved messages that a save record's message area holds (21 R319) re-enter the store, reserved to their slot
`kept`, the device's own record of them: the tag it came to, which a homeless one's header does not name (R327), when each arrived and
by which entry (03 R55 R61), the scope of its claim. -/
def recordMessages (s : State) (d c k : Nat) (a : Act) (kept : List Stored) (bs : List Byte) : List Stored :=
  (upto (bitsOf (recordWord bs 0) 22 20)).map fun j =>
    let ws := wordsOf 8 ((bs.drop (0x500 + 64 * j)).take 64)
    let old := kept[j]?
    { msg := { dom := d, core := c, actor := a.actor.getD 0, tag := (old.map fun m => m.msg.tag).getD (bitsOf (ws.headD 0) 15 12),
               hdr := ws.headD 0,
               words := ws.drop 1, via := (old.map fun m => m.msg.via).getD 0, src := (old.map fun m => m.msg.src).getD 0,
               reached := true, acq := old.bind fun m => m.msg.acq },
      arrived := (old.map fun m => m.arrived).getD s.serial, slot := some k }

/-- An activation as its hardware dump holds it (03 R72, 21 R319). -/
def dumpedAct (a : Act) (bs : List Byte) : Act :=
  { a with regs := maskRegs (recordRegs a.regs bs), pc := pcBits (recordWord bs 0x498), owed := bitsOf (recordWord bs 0x4A0) 1 0,
           btarget := pcBits (recordWord bs 0x4A8) }

/-- A dumped activation whose BKPT a debug release passed over while it was saved continues after it (27 R372). -/
def passSkipped (a : Act) : Act := if a.skip then { continueAfter a with skip := false } else a

/-- The register images that the decisions recorded for parked activations name (21 R311 R323), by slot; one that cannot be
read is left out. -/
def regImages (s : State) (c : Nat) (area : List Byte) : Tab Act → Acc (Tab (List Byte) × State)
  | [] => .ok ([], s)
  | (k, a) :: r =>
    let bs := (area.drop (2048 * k)).take 2048
    let desc := recordWord bs 0
    let parked := match a.status with
      | .saved _ true => true
      | _ => false
    if parked && desc.getLsbD 8 && (decide (bitsOf desc 7 6 = 1) || decide (bitsOf desc 7 6 = 2)) then
      match devReadParts s a.trapKernel (clusterOf c) c (recordWord bs 0x4B0) 32 with
      | .error (.wait pl) => .error (.wait pl)
      | .error (.fault _ _ t) => regImages (keepTraffic s t) c area r
      | .ok (img, s) => match regImages s c area r with
        | .error e => .error e
        | .ok (t, s) => .ok ((k, img) :: t, s)
    else regImages s c area r

/-- A parked activation placed again in its slot (21 R323 steps 4 and 5), a recorded decision applied; `img`, the register
image that it names. -/
def placeParked (s : State) (c k : Nat) (a : Act) (img : Option (List Byte)) (bs : List Byte) : State :=
  let a := { dumpedAct a bs with status := .parked, decided := false, due := none }
  let s := s.putAct c k a
  let desc := recordWord bs 0
  match bitsOf desc 7 6 with
  | 0 => s
  | 3 => endAct s c k a a.regs.epc
  | n =>
    if desc.getLsbD 8 then
      match img with
      | some img => if imageBad img then s else wake s c k (applyImage a img) (decide (n = 2))
      | none => s
    else wake s c k a (decide (n = 2))

/-- An activation that a debug hold had halted is back in its slot, halted, while its group is held (27 R378), unless its
domain is held for its quota (23 R343). -/
def placeHalted (s : State) (c k : Nat) (a : Act) (bs : List Byte) : State :=
  (restart s c k (dumpedAct a bs) a.entry).modAct c k fun b => { b with halt := a.halt }

/-- The saved activations of an image return to their slots (21 R323 steps 4 to 6): `kept` the store as it was saved, `imgs`
the register images of `regImages`. -/
def placeActs (s : State) (d c : Nat) (kept : List Stored) (imgs : Tab (List Byte)) (area : List Byte) : Tab Act → State
  | [] => s
  | (k, a) :: r =>
    let bs := (area.drop (2048 * k)).take 2048
    let msgs := recordMessages s d c k a (kept.filter fun m => decide (m.slot = some k)) bs
    let s := s.modCore c fun x => { x with store := x.store ++ msgs }
    let s := match a.status with
      | .saved _ true => placeParked s c k a (tabFind imgs k) bs
      | .saved true false =>
        if a.halt ≠ .none ∧ groupHeld s d (clusterOf c) ∧ !(s.getDom d).held then placeHalted s c k a bs
        else setDue (s.putAct c k a) c k
      | _ => setDue (s.putAct c k a) c k
    placeActs s d c kept imgs area r

/-- What a restore reads from the image itself (21 R321). -/
def coreOfImage (x : Core) (bs : List Byte) : Core :=
  let w (off : Nat) : Word := recordWord bs off
  let ring (h : Nat) : Option (Nat × Ring) := (tabFind x.rings h).map fun r =>
    (h, { r with desc := w (0xC000 + 256 * h), meta_ := (upto 16).map fun i => w (0xC010 + 256 * h + 8 * i) })
  let code (k : Nat) : Option (Nat × CodeSlot) := if (tabFind x.code k).isNone then none else
    some (k, { hdr := BitVec.ofNat 32 (leNat ((bs.drop (0xD000 + 2048 * k)).take 4)),
               ents := (upto 256).map fun i => BitVec.ofNat 32 (leNat ((bs.drop (0xD010 + 2048 * k + 4 * i)).take 4)) })
  { x with
    endpoints := ((upto 256).map fun i => (i, w (0x1000 + 8 * i))).filter fun e => decide (e.2 ≠ 0)
    da := ((upto 64).map fun i => (i, (w (0x1800 + 8 * i)).toNat)).filter fun e => decide (e.2 ≠ 0)
    wt := (w 0x1A00).toNat
    open_ := (w 0x1A08).getLsbD 0
    deque := (upto x.deque.length).map fun i => wordsOf 8 ((bs.drop (0xB000 + 64 * i)).take 64)
    rings := (upto 16).filterMap ring
    code := (upto 4).filterMap code
    bank := ((upto 16384).map fun i => (i, BitVec.ofNat 32 (leNat ((bs.drop (0x20000 + 4 * i)).take 4)))).filter fun e => decide (e.2 ≠ 0)
    spad := memPutBytes [] 0 ((bs.drop 0x30000).take 0x80000) }

/-- The completions of a context's jobs on a cluster that a hold kept unseen are delivered in order of job end (27 R372),
those of cores its context holds. -/
def deliverUnseen (s : State) (g d : Nat) : State :=
  let ready (x : Unseen × Word) : Bool := decide (x.1.dom = d) && decide ((s.getCore x.1.core).dom = some d)
  let l := (s.getCluster g).unseen
  (l.filter ready).foldl (fun s x => jobVisible s x.1 x.2) (s.modCluster g fun x => { x with unseen := l.filter fun u => !ready u })

/-- The address of an actor's block in a context image (21 R321 R325). -/
def actorBlock (image : Word) (i : Nat) : Word := image + BitVec.ofNat 64 (0x2000 + 1024 * i)

/-- The images of a context on a core, no longer the latest word on it. -/
def staleImages (t : Tab ContextSave) (c d : Nat) : Tab ContextSave :=
  t.map fun x => (x.1, if x.2.core = c ∧ x.2.dom = d then { x.2 with live := false } else x.2)

/-- A restore that passed its tests (21 R323): the tag state of each actor is that of the residency entry for its block of this
image (R325), else the image's; the image stays, and may be restored again (R322); its withdrawn jobs take the
places that their engines have (01 R18) (log 56). -/
def restoreCore (s : State) (c d : Nat) (x : ContextSave) (bs area : List Byte) (imgs : Tab (List Byte)) : State :=
  let now := s.getCore c
  let actors := x.saved.actors.map fun a => (a.1,
    ((now.resident.find? fun r => decide (r.dom = d) && decide (r.index = a.1) && decide (r.block = actorBlock x.image a.1)).map
      fun r => r.actor).getD a.2)
  let back : Core := coreOfImage x.saved bs
  let s := s.setCore c { back with
    dom := some d, l1 := now.l1, l1i := now.l1i, resident := now.resident.filter (fun r => decide (r.dom ≠ d)), actors := actors,
    pending := [], evict := none, holding := now.holding, heldSeen := (s.getDom d).held, inj := [],
    store := back.store.filter fun m => decide (m.slot = none) }
  let s := { s with images := staleImages s.images c d }
  let s := admitBack (s.modCluster (clusterOf c) fun g =>
    { g with spliceBack := g.spliceBack ++ x.spliceJobs, reeveBack := g.reeveBack ++ x.reeveJobs }) (clusterOf c)
  let s := placeActs s d c x.saved.store imgs area x.acts
  if groupHeld s d (clusterOf c) then
    x.acts.foldl (fun s y => s.modAct c y.1 fun a => if a.status = .running ∧ a.halt = .none then { a with halt := .group } else a) s
  else deliverUnseen s (clusterOf c) d

/-- CTXSW with RESTORE (21 R322 R323). -/
def contextRestore (s : State) (a b : SReg) : KAns :=
  let w := s.getS b
  let c := targetCore w
  let d := targetDom w
  let image := s.getS a
  if coreTaken s c then .fail .state
  else if bitsOf image 11 0 ≠ 0 then .fail .memory
  else kernelAcc (devReadAll s d (clusterOf c) c image imageLines) fun (bs, s) =>
    let h := recordWord bs 0
    if bitsOf h 27 16 ≠ c then .failAfter .state s
    else if bitsOf h 15 8 ≠ d then .failAfter .policy s
    else
      let n := leNat ((bs.drop 0xFE0).take 32)
      match tabFind s.images n with
      | none => .failAfter .policy s
      | some x => kernelAcc (saveArea s d c x.saved) fun (area, s) =>
        if (Config.seal d (s.getDom d).gen (unsealed bs ++ area)).toNat ≠ n ∨ x.core ≠ c ∨ x.dom ≠ d then .failAfter .policy s
        else kernelAcc (regImages s c area x.acts) fun (imgs, s) =>
          .done x.acts.length (restoreCore s c d x bs area imgs)

/-- CTXSW with RESTORE and FRESH (21 R324). -/
def contextFresh (s : State) (b : SReg) : KAns :=
  let w := s.getS b
  if coreTaken s (targetCore w) then .fail .state else .done 0 (freshCore s (targetCore w) (targetDom w))

/-- CTXSW (19 R302): s[B] selects the form. -/
def contextSwitch (s : State) (d a b : SReg) : KAns :=
  let w := s.getS b
  match switchTest s w with
  | some r => .fail r
  | none =>
    if !w.getLsbD 28 then evictBegin s d a b
    else if w.getLsbD 29 then contextFresh s b
    else contextRestore s a b

/-- CTXSW (19 R302). -/
def execCtxsw (d a b : SReg) (s : State) : Host.Outcome State Fault Refusal :=
  kernelOp (kernelCode 4 d a b) s d fun s => contextSwitch s d a b
/-- The row of CTXSW with RESTORE: the same word, the same selection by s[B] (19 R302). -/
def execCtxswRestore (d a b : SReg) (s : State) : Host.Outcome State Fault Refusal :=
  kernelOp (kernelCode 4 d a b) s d fun s => contextSwitch s d a b
/-- The row of CTXSW with RESTORE and FRESH: the same word, the same selection by s[B] (19 R302). -/
def execCtxswFresh (d a b : SReg) (s : State) : Host.Outcome State Fault Refusal :=
  kernelOp (kernelCode 4 d a b) s d fun s => contextSwitch s d a b

/-- Whether an eviction has come to step 5 (21 R320): every activation of the context saved, the injection queue empty, no
running job, no steal request outstanding (03 R62) (log 56). A dump that cannot be written leaves it waiting (log 17). -/
def evictReady (s : State) (c d : Nat) : Bool :=
  let x := s.getCore c
  let g := s.getCluster (clusterOf c)
  ((s.coreActs c).all fun y => decide (y.2.dom ≠ d) || match y.2.status with
    | .saved _ _ => true
    | _ => false)
    && x.inj.isEmpty && x.steal.slot.isNone
    && !(g.splice.any fun j => decide (j.core = c) && j.running) && !(g.reeve.any fun j => decide (j.core = c) && j.running)

/-- The evicted actors enter the residency table, the least recently entered leaving where it is full (21 R325); an entry for
the same block of the same actor is the same entry (log 105). -/
def enterResidents (x : Core) (d : Nat) (image : Word) : List Resident :=
  let new := x.actors.map fun a => { dom := d, index := a.1, block := actorBlock image a.1, actor := a.2, gone := [] : Resident }
  let l := (x.resident.filter fun r => !(new.any fun n => r.same n)) ++ new
  l.drop (l.length - 256)

/-- Steps 5 to 7 of R320 once the image and the seal are written. -/
def evictDone (s : State) (c d : Nat) (image : Word) (mac : BitVec 256) : State :=
  let x := s.getCore c
  let g := s.getCluster (clusterOf c)
  let acts := (s.coreActs c).filter fun y => decide (y.2.dom = d)
  let save : ContextSave := {
    core := c, dom := d, image := image, saved := { x with evict := none },
    spliceJobs := (g.splice ++ g.spliceBack).filter fun j => decide (j.core = c),
    reeveJobs := (g.reeve ++ g.reeveBack).filter fun j => decide (j.core = c), live := true,
    acts := acts.foldl (fun t y => tabPut t y.1 { y.2 with due := none }) [] }
  let s := acts.foldl (fun s y => s.dropAct c y.1) s
  let s := admitBack (s.modCluster (clusterOf c) fun g => { g with
    splice := g.splice.filter fun j => decide (j.core ≠ c), reeve := g.reeve.filter fun j => decide (j.core ≠ c),
    spliceBack := g.spliceBack.filter fun j => decide (j.core ≠ c), reeveBack := g.reeveBack.filter fun j => decide (j.core ≠ c) })
      (clusterOf c)
  let s := { s with images := tabPut (staleImages s.images c d) mac.toNat save }
  s.setCore c { Core.blank with l1 := x.l1, l1i := x.l1i, holding := x.holding, resident := enterResidents x d image }

/-- The waiting CTXSW gets its status (19 R300). -/
def evictStatus (s : State) (e : Evict) (r : Result) (v : Word) : State :=
  let s := s.select e.byCore e.bySlot
  completeLate (kernelCode 4 e.d e.a e.b) (s.setS e.d (kernelStatus r v))

/-- An eviction's image written and sealed (21 R320 step 5, 25 R351), and the eviction ended. An image that can no longer be
written ends it with MEMORY, the context still on its core (log 17). -/
def evictEnd (s : State) (c d : Nat) (e : Evict) : State :=
  let n := s.serial
  let s := { s with serial := s.serial + 1 }
  let x := s.getCore c
  let records := ((s.coreActs c).filter fun y => decide (y.2.dom = d)).length - e.before
  let bs := imageBytes s c d records n
  let answer : Acc (BitVec 256 × State) := match devWriteAll s d (clusterOf c) c e.image imageLines bs with
    | .error z => .error z
    | .ok s => match saveArea s d c x with
      | .error z => .error z
      | .ok (area, s) =>
        let mac := Config.seal d (s.getDom d).gen (bs ++ area)
        match writeSeal s d c e.image mac with
        | .error z => .error z
        | .ok s => .ok (mac, s)
  match answer with
  | .ok (mac, s) => evictStatus (evictDone s c d e.image mac) e .ok (BitVec.ofNat 64 records)
  | .error (.wait pl) => askBack s pl
  | .error (.fault _ _ t) =>
    let (m, s) := (keepTraffic s t).draw
    let s := s.modCore c fun x => { x with evict := none }
    evictStatus (quotaDue s d) e .memory (Config.openValue m)

/-- KERNEL_OPERATION_STATUS (19 R300, 21 R320): the eviction that an activation waits for; a die whose clock is stopped keeps
its activations as they are (31 R405), the waiting one's as the evicted core's. -/
def execKernelOperationStatus (core slot : Nat) (s : State) : Host.Outcome State Fault Refusal :=
  .next (match (s.cores.findSome? fun x => match x.2.evict, x.2.dom with
      | some e, some d => if e.byCore = core ∧ e.bySlot = slot then some (x.1, d, e) else none
      | _, _ => none) with
    | none => s
    | some (c, d, e) => if evictReady s c d ∧ !(s.getDie (dieOf c)).stopped ∧ !(s.getDie (dieOf core)).stopped then evictEnd s c d e else s)

end Sys2Proof.Machine
end

