-- ==== Sys2Proof/Machine/Control.lean ====
section
/-!
DEFINITION. Control transfer: branches, jumps, hardware loops (11 R185-R190, 13 R218-R223).
-/
namespace Sys2Proof.Machine

/-- A branch that has decided its outcome (13 R218 R219): a taken one to an address with high bits traps at itself. -/
def branchTo (s : State) (taken : Bool) (target : Word) : Eff :=
  if taken && decide (bitsOf target 63 57 ≠ 0) then .trap .pageAbsent target
  else .done s (.branch (if taken then target else s.act.pc + 12)) []

/-- A compare branch (13 R219). -/
def compareBranch (i : Instr) (s : State) (a b : SReg) (off : BitVec 13) (cond : Word → Word → Bool) :
    Host.Outcome State Fault Refusal :=
  issue i s fun s => branchTo s (cond (s.getS a) (s.getS b)) (s.act.pc + 4 * sext13 off)

/-- BEQ (13 R219). -/
def execBeq (a b : SReg) (off : BitVec 13) (s : State) : Host.Outcome State Fault Refusal :=
  compareBranch (.beq a b off) s a b off fun x y => decide (x = y)
/-- BNE (13 R219). -/
def execBne (a b : SReg) (off : BitVec 13) (s : State) : Host.Outcome State Fault Refusal :=
  compareBranch (.bne a b off) s a b off fun x y => decide (x ≠ y)
/-- BLT (13 R219). -/
def execBlt (a b : SReg) (off : BitVec 13) (s : State) : Host.Outcome State Fault Refusal :=
  compareBranch (.blt a b off) s a b off fun x y => x.slt y
/-- BGE (13 R219). -/
def execBge (a b : SReg) (off : BitVec 13) (s : State) : Host.Outcome State Fault Refusal :=
  compareBranch (.bge a b off) s a b off fun x y => !x.slt y
/-- BLTN (13 R219). -/
def execBltn (a b : SReg) (off : BitVec 13) (s : State) : Host.Outcome State Fault Refusal :=
  compareBranch (.bltn a b off) s a b off fun x y => x.ult y
/-- BGEN (13 R219). -/
def execBgen (a b : SReg) (off : BitVec 13) (s : State) : Host.Outcome State Fault Refusal :=
  compareBranch (.bgen a b off) s a b off fun x y => !x.ult y

/-- BP with a condition on the predicate (13 R220). -/
def predBranch (i : Instr) (s : State) (p : PNum) (off : BitVec 13) (cond : BitVec 32 → Bool) :
    Host.Outcome State Fault Refusal :=
  issue i s fun s => branchTo s (cond (s.getP p)) (s.act.pc + 4 * sext13 off)

/-- BP.ANY (13 R220). -/
def execBpAny (p : PNum) (off : BitVec 13) (s : State) : Host.Outcome State Fault Refusal :=
  predBranch (.bpAny p off) s p off fun x => decide (x ≠ 0)
/-- BP.ALL (13 R220). -/
def execBpAll (p : PNum) (off : BitVec 13) (s : State) : Host.Outcome State Fault Refusal :=
  predBranch (.bpAll p off) s p off fun x => decide (x = BitVec.allOnes 32)
/-- BP.NONE (13 R220). -/
def execBpNone (p : PNum) (off : BitVec 13) (s : State) : Host.Outcome State Fault Refusal :=
  predBranch (.bpNone p off) s p off fun x => decide (x = 0)

/-- J (13 R221). -/
def execJ (d : SReg) (off : BitVec 19) (s : State) : Host.Outcome State Fault Refusal :=
  issue (.j d off) s fun s => branchTo (s.setS d (s.act.pc + 12)) true (s.act.pc + 4 * sext19 off)

/-- JR (13 R222). -/
def execJr (d a : SReg) (imm : BitVec 13) (s : State) : Host.Outcome State Fault Refusal :=
  issue (.jr d a imm) s fun s =>
    let t := s.getS a + 4 * sext13 imm
    if bitsOf t 63 57 ≠ 0 then .trap .pageAbsent t
    else if bitsOf t 1 0 ≠ 0 then .trap .misaligned t
    else .done (s.setS d (s.act.pc + 12)) (.branch t) []

/-- LOOP and LOOPI with their count (11 R188). The tests are of the exact addresses; LS and LE keep their 57 bits (00 R8, 11
R182). -/
def armLoop (s : State) (lvl : Bool) (n : Word) (len : BitVec 13) : Eff :=
  let r := s.act.regs
  let start := s.act.pc + 4
  let last := s.act.pc + 4 * len.setWidth 64
  if r.lc0 ≠ 0 ∨ (lvl ∧ r.lc1 ≠ 0) ∨ (!lvl ∧ r.lc1 ≠ 0 ∧ (start.ult r.ls1 ∨ r.le1.ult last)) then
    .trap .loopNest (boolWord' lvl)
  else if n = 0 then .done s (.goto (last + 4)) []
  else if lvl then .done (s.modRegs fun r => { r with lc1 := n, ls1 := pcBits start, le1 := pcBits last }) (.goto start) []
  else .done (s.modRegs fun r => { r with lc0 := n, ls0 := pcBits start, le0 := pcBits last }) (.goto start) []
where
  /-- The level as EVAL holds it (13 R223). -/
  boolWord' (b : Bool) : Word := if b then 1 else 0

/-- LOOP (11 R188, 13 R223). -/
def execLoop (lvl : Bool) (a : SReg) (len : BitVec 13) (s : State) : Host.Outcome State Fault Refusal :=
  issue (.loop lvl a len) s fun s => armLoop s lvl ((s.getS a).setWidth 32 |>.setWidth 64) len

/-- LOOPI (11 R188, 13 R223). -/
def execLoopi (lvl : Bool) (count : BitVec 11) (len : BitVec 13) (s : State) : Host.Outcome State Fault Refusal :=
  issue (.loopi lvl count len) s fun s => armLoop s lvl (count.setWidth 64) len

end Sys2Proof.Machine
end

