-- ==== Sys2Proof/Machine/Starts.lean ====
section
/-!
DEFINITION. What starts on a core and when (03 R49-R73, 21 R316): firings, pops, steals, resumptions, ageing, the end of a
budget, the limit of a save routine, the arrival of messages.
-/
namespace Sys2Proof.Machine

/-- MESSAGE_ARRIVAL (03 R43-R45). -/
def execMessageArrival (i : Nat) (s : State) : Host.Outcome State Fault Refusal := .next (arrive s i)

/-- MESSAGE_MOVE_BACK (03 R46). -/
def execMessageMoveBack (core : Nat) (s : State) : Host.Outcome State Fault Refusal := .next (moveBack s core)

/-- A core sees HELD of a domain: once it has been told, and in any case 2 µs after the crossing (23 R343). -/
def seesHeld (s : State) (c d : Nat) : Bool :=
  (s.getCore c).heldSeen || ((s.getDom d).held && decide ((s.getDom d).heldAt + 2000 ≤ s.time))

/-- Activations of the context that holds a core may start on it: no eviction (21 R320), no debug hold (27 R370), HELD not
seen (23 R343), the domain not halted (21 R313), the die's arithmetic clock running (31 R405). -/
def startsAllowed (s : State) (c : Nat) : Bool :=
  let x := s.getCore c
  match x.dom with
  | none => false
  | some d => x.evict.isNone && !groupHeld s d (clusterOf c) && !seesHeld s c d && !(s.getDom d).halted
      && !(s.getDie (dieOf c)).stopped

/-- A tag fires (03 R49), a free slot apart. -/
def firable (s : State) (c i t : Nat) : Bool :=
  let x := s.getCore c
  let d := x.dom.getD 0
  match findActor s c i, findTag s c i t with
  | some a, some e => decide (e.entry ≠ 0) && e.en && decide (e.fire ≤ (queueOf x d i t).length)
      && (a.conc || !actorBusy s c d i)
  | _, _ => false

/-- A firable tag: its actor, its number, its class, and when its first claimable message arrived. -/
structure Firing where
  actor : Nat
  tag : Nat
  prio : Nat
  arrived : Nat
  deriving DecidableEq, Repr

/-- The firable tags of a core. -/
def firings (s : State) (c : Nat) : List Firing :=
  let x := s.getCore c
  (upto 256).filterMap fun n =>
    let i := n / 16
    let t := n % 16
    match findTag s c i t, queueOf x (x.dom.getD 0) i t with
    | some e, m :: _ => if firable s c i t then some { actor := i, tag := t, prio := e.prio, arrived := m.arrived } else none
    | _, _ => none

/-- The registers of a restore routine's start (03 R71); s2, which R71 does not name, is 0 (log 108). -/
def restoreRegs (rec_ safept : Word) (bs : List Byte) : Regs :=
  Regs.start.withS [(1, safept + 4), (3, recordWord bs 0x18), (4, recordWord bs 0x20), (5, at_ 2 16),
    (6, recordWord bs 0x30), (7, rec_)]

/-- What the device reads of a safe-point record (03 R71): its first 64 bytes, and the SAFEPT's address. -/
def resumeParts (s : State) (d core : Nat) (va : Word) : Acc (List Byte × Word × State) :=
  match recordRead s d (clusterOf core) core va 64 with
  | .error e => .error e
  | .ok (bs, s) => match recordRead s d (clusterOf core) core (va + 0x498) 8 with
    | .error e => .error e
    | .ok (w, s) => .ok (bs, pcBits (recordWord w 0), s)

/-- What the device reads to resume a saved activation (03 R71 R72, 21 R319), as the activation that it makes of it: exactly as
dumped, or in its restore routine; with the entry it starts at. -/
def resumed (s : State) (c k : Nat) (a : Act) : Acc (Option (Act × Word) × State) :=
  match recordAddr s c k, a.status with
  | some va, .saved true _ =>
    match recordReadAll s a.dom (clusterOf c) c va 32 with
    | .error e => .error e
    | .ok (bs, s) => .ok (some (passSkipped (dumpedAct a bs), a.entry), s)
  | some va, .saved false _ =>
    match resumeParts s a.dom c va with
    | .error e => .error e
    | .ok (bs, pc, s) =>
      .ok (some ({ a with regs := restoreRegs va pc bs, pc := a.restore, owed := 0, btarget := 0, restored := true }, a.restore), s)
  | _, _ => .ok (none, s)

/-- The saved activations of a core that are due for resumption, in the order of 21 R316: lowest class, then earliest due, then
lowest slot. -/
def dueActs (s : State) (c : Nat) : List (Nat × Act) :=
  let due := (s.coreActs c).filterMap fun x => x.2.due.map fun t => (x, t)
  (sortBy (fun x => x.1.2.prio) (sortBy (fun x => x.2) (sortBy (fun x => x.1.1) due))).map fun x => x.1

/-- The device can resume an activation now: its record is there, and can be read. -/
def canResume (s : State) (c : Nat) (x : Nat × Act) : Bool :=
  match resumed s c x.1 x.2 with
  | .ok (some _, _) => true
  | _ => false

/-- The saved activation of a core that resumes next (21 R316); one whose record cannot be read now is passed over
(log 20). -/
def nextDue (s : State) (c : Nat) : Option Nat := ((dueActs s c).find? (canResume s c)).map fun x => x.1

/-- What a core starts next (03 R61). -/
inductive Choice where
  | fire (f : Firing)
  | resume (slot : Nat)
  | pop
  | none
  deriving DecidableEq, Repr

/-- Records in a core's deque and, while its runtime actor is loaded, in its ring (03 R57). -/
def taskCount (s : State) (c : Nat) : Nat :=
  let x := s.getCore c
  x.deque.length + if (findActor s c 15).isSome then ringCount x else 0

/-- Items 1 to 4 of R61. -/
def chooseStart (s : State) (c : Nat) : Choice :=
  if !startsAllowed s c then .none
  else
    let slot := !(freeSlots s c).isEmpty
    let fs := if slot then firings s c else []
    match fs.find? fun f => decide (f.tag = 15) with
    | some f => .fire f
    | none => match nextDue s c with
      | some k => .resume k
      | none => match minBy (fun f => f.prio) (sortBy (fun f => f.arrived) fs) with
        | some f => .fire f
        | none => if slot && decide (taskCount s c ≠ 0) then .pop else .none

/-- The first `n` messages of a tag are claimed (03 R50 R52): the first leaves the store, the others are reserved to a slot. -/
def claim (s : State) (c k d i t n : Nat) : State :=
  let mine := Stored.waits d i t
  s.modCore c fun x => { x with store := mapFirst mine (fun m => { m with slot := some k }) (n - 1) (dropNth mine 0 x.store) }

/-- The start of a firing (03 R50 R51): its claim is an acquire (07 R118) (log 14). -/
def fire (s : State) (c k : Nat) (f : Firing) : State :=
  let d := (s.getCore c).dom.getD 0
  match findActor s c f.actor, findTag s c f.actor f.tag with
  | some x, some e =>
    let ms := (queueOf (s.getCore c) d f.actor f.tag).take e.fire
    let s := claim s c k d f.actor f.tag e.fire
    let s := ms.foldl (fun s m => acquire s c d (claimScope c m.msg)) s
    match ms with
    | [] => s
    | m :: _ =>
      let pend := min 255 (pendingOf s c f.actor f.tag)
      let s5 := at_ e.fire 12 ||| at_ pend 4 ||| at_ f.tag 0
      let words := (upto 7).map fun i => (8 + i, m.msg.words.getD i 0)
      let regs := Regs.start.withS ([(2, stackTop c k), (3, BitVec.ofNat 64 x.spoff), (4, m.msg.hdr), (5, s5),
        (6, identity c k), (7, m.msg.via)] ++ words)
      startAct s c k { Act.blank with
        regs := regs, pc := e.entry, dom := d, kernel := x.kernel, prio := e.prio, actor := some f.actor, tag := f.tag,
        s5 := s5, entry := e.entry, route := m.msg.hdr }
  | _, _ => s

/-- TAG_FIRE (03 R49-R55): the tag that R61 chooses fires into a free slot. -/
def execTagFire (core slot : Nat) (s : State) : Host.Outcome State Fault Refusal :=
  .next (match chooseStart s core with
    | .fire f => if (freeSlots s core).contains slot then fire s core slot f else s
    | _ => s)

/-- Up to 32 of the newest records of a core's ring move back to its empty deque (03 R57). -/
def refill (s : State) (c d : Nat) : Nat → List (List Word) → Acc State
  | 0, got => .ok (s.modCore c fun x => { x with deque := got })
  | n + 1, got =>
    let x := s.getCore c
    if ringCount x = 0 then .ok (s.modCore c fun x => { x with deque := got })
    else match devRead s d (clusterOf c) c (ringSlotAddr s c (x.ringTail - 1)) 64 with
      | .error e => .error e
      | .ok (bs, s) => refill (s.modCore c fun x => { x with ringTail := x.ringTail - 1 }) c d n (wordsOf 8 bs :: got)

/-- The start of a task record (03 R57 R58): `from_` the forking core, whose runtime actor's STEAL gives the acquire
(07 R118). -/
def startTask (s : State) (c k from_ : Nat) (r : List Word) : State :=
  let d := (s.getCore c).dom.getD 0
  let w (i : Nat) : Word := r.getD i 0
  let entry := pcBits (w 0)
  let join := memEval (w 1)
  let scope := match findActor s from_ 15 with
    | none => Scope.core
    | some a => match a.steal with
      | 0 => .core | 1 => .cluster | 2 => .die | _ => .package
  let s := acquire s c d scope
  let s5 := at_ 1 16
  let regs := Regs.start.withS ([(2, stackTop c k), (5, s5), (6, identity c k), (14, join)]
    ++ (upto 6).map fun i => (8 + i, w (2 + i)))
  startAct s c k { Act.blank with
    regs := regs, pc := entry, dom := d, kernel := (w 0).getLsbD 59 && !isTenant d, prio := bitsOf (w 0) 58 57, s5 := s5,
    entry := entry, route := join }

/-- The newest record of a core starts in a slot (03 R57 R58). A ring that cannot be read now starts nothing (log 20). -/
def popTask (s : State) (core slot : Nat) : State :=
  let d := (s.getCore core).dom.getD 0
  let r : Acc State := if (s.getCore core).deque.isEmpty then refill s core d 32 [] else .ok s
  match r with
  | .error (.wait pl) => askBack s pl
  | .error (.fault _ _ t) => keepTraffic s t
  | .ok s =>
    match (s.getCore core).deque.getLast? with
    | none => s
    | some t => startTask (s.modCore core fun x => { x with deque := x.deque.dropLast }) core slot core t

/-- DEQUE_POP (03 R57 R58): the newest record of the core starts, where R61 comes to it. -/
def execDequePop (core slot : Nat) (s : State) : Host.Outcome State Fault Refusal :=
  .next (match chooseStart s core with
    | .pop => if (freeSlots s core).contains slot then popTask s core slot else s
    | _ => s)

/-- STEAL of a core's runtime actor, 0 where none is loaded (03 R62). -/
def stealOf (s : State) (c : Nat) : Nat := ((findActor s c 15).map fun a => a.steal).getD 0

/-- A core lies in the steal domain of another (03 R62, 01 R25): system cores steal from their own group only. -/
def stealReach (scope from_ to_ : Nat) : Bool :=
  if scope = 0 then false
  else if isSystem from_ || isSystem to_ then decide (clusterOf from_ = clusterOf to_)
  else if scope = 1 then decide (clusterOf from_ = clusterOf to_)
  else if scope = 2 then decide (dieOf from_ = dieOf to_)
  else true

/-- The victims of a pass in their order (03 R62): ascending, starting after the last one visited. -/
def victims (s : State) (c : Nat) : List Nat :=
  let d := (s.getCore c).dom
  let all := (upto 1312).filter fun v => decide (v ≠ c) && decide ((s.getCore v).dom = d) && stealReach (stealOf s c) c v
  let last := (s.getCore c).steal.last
  all.filter (fun v => decide (last < v)) ++ all.filter fun v => decide (v ≤ last)

/-- A core may make a steal request (03 R62); the condition on QBAL is that the core does not see HELD (23 R343). -/
def stealAllowed (s : State) (c : Nat) : Bool :=
  startsAllowed s c && decide (chooseStart s c = .none) && decide (stealOf s c ≠ 0) && decide (16 ≤ (freeSlots s c).length)

/-- The energy of a steal request or reply (23 R336): the device's, on the bight network, which joins compute cores; none
within a group of system cores (01 R25). -/
def chargeBight (s : State) (c : Nat) : State := if isSystem c then s else chargeOpen s

/-- The next request of a pass (03 R62): to the first victim left, or the pass ends with nothing and the next is 256 cycles
away, 78 ns at the nominal clock (log 21). -/
def nextVictim (s : State) (c k : Nat) (left : List Nat) : State :=
  match left with
  | [] => s.modCore c fun x => { x with steal := { x.steal with slot := none, left := [], active := false, retry := s.time + 78 } }
  | v :: r =>
    let s := s.modCore c fun x => { x with steal := { slot := some k, last := v, left := r, active := true, retry := 0 } }
    { chargeBight s c with steals := s.steals ++ [{ thief := c, victim := v, answer := none }] }

/-- A pass begins, if a steal is allowed and none is under way. -/
def beginPass (s : State) (core slot : Nat) : State :=
  if stealAllowed s core && !(s.getCore core).steal.active && (freeSlots s core).contains slot then
    nextVictim s core slot (victims s core)
  else s

/-- STEAL_PASS (03 R62): a pass that no earlier one delays. -/
def execStealPass (core slot : Nat) (s : State) : Host.Outcome State Fault Refusal :=
  .next (if (s.getCore core).steal.retry = 0 ∨ (s.getCore core).steal.retry ≤ s.time then beginPass s core slot else s)

/-- STEAL_RETRY (03 R62): the pass after one that obtained nothing, 256 cycles later. -/
def execStealRetry (core slot : Nat) (s : State) : Host.Outcome State Fault Refusal :=
  .next (if (s.getCore core).steal.retry ≠ 0 ∧ (s.getCore core).steal.retry ≤ s.time then beginPass s core slot else s)

/-- The oldest record of a victim's deque, none where it is empty (03 R62). -/
def giveDeque (s : State) (v : Nat) : List Word × State :=
  match (s.getCore v).deque with
  | [] => ([], s)
  | r :: rest => (r, s.modCore v fun x => { x with deque := rest })

/-- The oldest record of a victim's ring or deque, with the state without it (03 R62); where the ring's cannot be read, the
deque's (log 20). -/
def giveOldest (s : State) (v : Nat) : Acc (List Word × State) :=
  let x := s.getCore v
  if (findActor s v 15).isSome && decide (ringCount x ≠ 0) then
    match devRead s (x.dom.getD 0) (clusterOf v) v (ringSlotAddr s v x.ringHead) 64 with
    | .error (.wait pl) => .error (.wait pl)
    | .error (.fault _ _ t) => .ok (giveDeque (keepTraffic s t) v)
    | .ok (bs, s) => .ok (wordsOf 8 bs, s.modCore v fun x => { x with ringHead := x.ringHead + 1 })
  else .ok (giveDeque s v)

/-- A victim answers a thief (03 R62, 21 R320, 27 R370). -/
def answersSteal (s : State) (thief v : Nat) : Bool :=
  let d := (s.getCore v).dom
  d.isSome && decide (d = (s.getCore thief).dom) && (s.getCore v).evict.isNone && !groupHeld s (d.getD 0) (clusterOf v)
    && stealReach (stealOf s v) v thief

/-- A steal request that has no answer yet gets it from its victim (03 R62), but for one that waits: for the clocks of the
victim's die (31 R405), or for a line of its ring that an outside host holds. -/
def answerSteal (s : State) (i : Nat) (m : StealMsg) : State :=
  let reply (s : State) (r : List Word) : State := { chargeBight s m.victim with steals := s.steals.set i { m with answer := some r } }
  if m.answer.isSome || (s.getDie (dieOf m.victim)).stopped then s
  else if !answersSteal s m.thief m.victim then reply s []
  else match giveOldest s m.victim with
    | .ok (r, s) => reply s r
    | .error (.wait pl) => askBack s pl
    | .error (.fault _ _ t) => reply (keepTraffic s t) []

/-- STEAL_REQUEST (03 R62): request `i` of those on the bight network reaches its victim, which gives its oldest record or
answers empty; a die whose clock is stopped keeps its deques and rings as they are (31 R405). -/
def execStealRequest (i : Nat) (s : State) : Host.Outcome State Fault Refusal :=
  .next (match s.steals[i]? with
    | none => s
    | some m => answerSteal s i m)

/-- A stolen record pushed at the top of its thief's deque, as its oldest record (03 R62): a full deque keeps its 64 records
(01 R21), and the record goes to the ring, whose records are older than the deque's (R57); `s` is the state in which the
reply waits, where neither has room now (log 89). -/
def pushTop (s free : State) (c : Nat) (r : List Word) : State :=
  let x := free.getCore c
  if x.deque.length < 64 then free.modCore c fun x => { x with deque := r :: x.deque }
  else if ringCap free c ≤ ringCount x then s
  else match devWrite free (x.dom.getD 0) (clusterOf c) c (ringSlotAddr free c x.ringTail) (wordBytes (padTo 0 8 r)) with
    | .ok t => t.modCore c fun x => { x with ringTail := x.ringTail + 1 }
    | .error (.wait pl) => askBack s pl
    | .error (.fault _ _ t) => keepTraffic s t

/-- The answer `r` of steal `i` reaches its thief, which holds slot `k` for it (03 R62): a record starts there, or is pushed at
the top of the thief's deque where the thief has become unable to start it; an empty answer goes on with the pass. The spec does
not say whether a later request of a pass tests the stealing conditions again: only whether the core may start activations is
tested (log 89). -/
def takeSteal (s : State) (i k : Nat) (m : StealMsg) (r : List Word) : State :=
  let took := { s with steals := s.steals.eraseIdx i }
  let left := (s.getCore m.thief).steal.left
  let free := took.modCore m.thief fun x => { x with steal := { x.steal with slot := none, left := [], active := false, retry := 0 } }
  if (s.getDie (dieOf m.thief)).stopped then s
  else if r.isEmpty then (if startsAllowed s m.thief then nextVictim took m.thief k left else free)
  else if startsAllowed s m.thief then startTask free m.thief k m.victim r
  else pushTop s free m.thief r

/-- STEAL_REPLY (03 R62): the answer of steal `i` of those on the bight network. -/
def execStealReply (i : Nat) (s : State) : Host.Outcome State Fault Refusal :=
  .next (match s.steals[i]? with
    | none => s
    | some m =>
      match m.answer, (s.getCore m.thief).steal.slot with
      | some r, some k => takeSteal s i k m r
      | _, _ => s)

/-- The lines that keep the records of due activations from being read are asked back from their hosts (05 R110). -/
def askDue (s : State) (c : Nat) : State :=
  (dueActs s c).foldl (fun s x => match resumed s c x.1 x.2 with
    | .error (.wait pl) => askBack s pl
    | _ => s) s

/-- A saved activation resumes in its slot (03 R71 R72). -/
def resumeSaved (s : State) (c k : Nat) : State :=
  match s.findAct c k with
  | none => s
  | some a => match resumed s c k a with
    | .ok (some (b, entry), t) => restart t c k b entry
    | _ => s

/-- ACTIVATION_RESUME (03 R71 R72, 21 R316): the activation that R61 chooses returns to its slot, exactly as dumped, or by
its restore routine. A record that cannot be read now resumes nothing (log 20) (log 60). -/
def execActivationResume (core : Nat) (s : State) : Host.Outcome State Fault Refusal :=
  let s := askDue s core
  .next (match chooseStart s core with
    | .resume k => resumeSaved s core k
    | _ => s)

/-- PRIORITY_AGEING (03 R64): the class of an activation that has been ready for 4,096 cycles without issuing is reduced; a
die whose clock is stopped keeps its activations as they are (31 R405) (log 11). -/
def execPriorityAgeing (core slot : Nat) (s : State) : Host.Outcome State Fault Refusal :=
  .next (s.modAct core slot fun a =>
    if a.status = .running ∧ a.wait = none ∧ a.halt = .none ∧ !(s.getDie (dieOf core)).stopped then { a with aged := agedClass s a }
    else a)

/-- PBUDGET_EXPIRY (03 R73, 21 R313-R315): the budget of a pending request has ended; the activation is dumped at its
boundary, or as it stands, but not inside a save routine (03 R70), nor while its die's clock is stopped (31 R405); a step
that had not issued is reported (27 R373) (log 68). -/
def execPbudgetExpiry (core slot : Nat) (s : State) : Host.Outcome State Fault Refusal :=
  .next (match s.findAct core slot with
    | none => s
    | some a => if budgetOver s core a s.time then dumpAct s core slot a else s)

/-- SAVE_ROUTINE_LIMIT (03 R70, 21 R317): a save routine has retired 4,096 instructions without PSAVED; not while its die's
clock is stopped (31 R405). -/
def execSaveRoutineLimit (core slot : Nat) (s : State) : Host.Outcome State Fault Refusal :=
  .next (match s.findAct core slot with
    | none => s
    | some a => match a.saving with
      | none => s
      | some run => if a.status = .running ∧ 4096 ≤ run.retired ∧ !(s.getDie (dieOf core)).stopped then saveEnd (s.select core slot) run else s)

end Sys2Proof.Machine
end

