-- ==== Sys2Proof/Machine/Power.lean ====
section
/-!
DEFINITION. The quota store and the meters (23 R337-R343), droop, thermal and power limits, reset and bring-up (31 R399-R407,
25 R349 R358-R362).
-/
namespace Sys2Proof.Machine

/-- CHARGE_APPLY (23 R341): charge `i` of those on their way, behind none of its own meter. -/
def execChargeApply (i : Nat) (s : State) : Host.Outcome State Fault Refusal :=
  .next (match s.charges[i]? with
    | none => s
    | some q =>
      if (s.charges.take i).any fun p => decide (p.meter = q.meter) then s
      else applyCharge { s with charges := s.charges.eraseIdx i } q)

/-- HELD_SEEN (23 R343, 21 R315): a core sees HELD of the domain whose context holds it, and its running activations are
requested. -/
def execHeldSeen (core : Nat) (s : State) : Host.Outcome State Fault Refusal :=
  .next (match (s.getCore core).dom with
    | none => s
    | some d =>
      let h := (s.getDom d).held
      let s := s.modCore core fun x => { x with heldSeen := h }
      if h then requestQuota s d (some core) else s)

/-- CSCALE after a tick (23 R337): `sum` is S × 256 (log 61). -/
def calibrate (c sum supply : Nat) : Nat :=
  if sum = 0 then c
  else
    let target := (2 * c * supply * 256 + sum) / (2 * sum)
    max 128 (min 511 (min (c + 8) (max (c - 8) target)))

/-- Frames of a range of frames that a domain owns in the states R339 counts. -/
def ownedFrames (s : State) (lo hi d : Nat) : Nat :=
  (s.frames.filter fun x => decide (lo ≤ x.1) && decide (x.1 < hi) && decide (x.2.owner = d) && match x.2.state with
    | .owned | .offered | .lent | .recalling | .scrubbing => true
    | _ => false).length

/-- Ones in a way mask. -/
def popcount24 (m : BitVec 24) : Nat := (upto 24).foldl (fun n i => n + flag (m.getLsbD i)) 0

/-- Whether a cluster's meter charges a cost (23 R339): the meter of the die, the slice's or the core's cluster, and for the
second tier that of group 0; no meter charges the idle links, which any meter's tick may bring (log 62). -/
def chargedBy (meter : Nat) : SharedCost → Bool
  | .dieDram die _ => decide (meter < 160) && decide (meter / 16 = die)
  | .secondTier _ => decide (meter = 160)
  | .slice die n _ => decide (meter < 160) && decide (meter = 16 * die + n)
  | .idleCore c _ => decide (clusterOf c = meter)
  | .idleLinks _ => true

/-- A measured cost's energy, the counted domains with their weights, and W (23 R339): for a core with no slot occupied, how long each
context has held it since the last tick of its meter, of 1 ms. -/
def costShares (s : State) : SharedCost → Nat × List (Nat × Nat) × Nat
  | .dieDram die e =>
    let lo := die * 0x800000
    (e, if dieInService s die then (upto 195).map fun d => (d, ownedFrames s lo (lo + 0x800000) d) else [], 0x800000)
  | .secondTier e => (e, (upto 195).map fun d => (d, ownedFrames s 0x10000000 0x20000000 d), 0x10000000)
  | .slice die n e =>
    let ws := (upto 195).filterMap fun d =>
      if occupancy s (16 * die + n) d = 0 then none else some (d, popcount24 (wayMask s (16 * die + n) d))
    (e, ws, max 24 (ws.foldl (fun n x => n + x.2) 0))
  | .idleCore c e =>
    let ws := (s.getCore c).holding
    (e, ws, max 1000000 (ws.foldl (fun n x => n + x.2) 0))
  | .idleLinks e => (e, [], 1)

/-- A share charged by a meter to a domain; one of a domain in host-assisted meter mode goes to the device account
(23 R338 R339). The class of such a charge is open (log 22) (log 62). -/
def chargeShare (s : State) (meter d eu : Nat) : State :=
  if eu = 0 then s
  else if (s.getDom d).modes.getLsbD 5 || !inDomains d then { s with device := min (s.device + eu) (2 ^ 64 - 1) }
  else
    let (n, s) := s.draw
    { s with charges := s.charges ++ [{ dom := d, meter := meter, eu := eu, cls := (Config.openValue n).toNat, at_ := s.time }] }

/-- A cost divided among the domains counted, the remainder to the device account (23 R339) (log 62). -/
def divideCost (s : State) (meter : Nat) (c : SharedCost) : State :=
  let (e, ws, w) := costShares s c
  let shares := ws.map fun x => (x.1, e * x.2 / w)
  let total := shares.foldl (fun n x => n + x.2) 0
  let s := shares.foldl (fun s x => chargeShare s meter x.1 x.2) s
  { s with device := min (s.device + (e - total)) (2 ^ 64 - 1) }

/-- METER_TICK (23 R337 R339): the supply energy of the tick recalibrates CSCALE; the shared costs this meter charges are
divided; the holding times of its cores begin again. -/
def execMeterTick (meter supply : Nat) (costs : List SharedCost) (s : State) : Host.Outcome State Fault Refusal :=
  let s := s.modCluster meter fun m => { m with cscale := calibrate m.cscale m.sum supply, sum := 0 }
  let s := (costs.filter (chargedBy meter)).foldl (fun s c => divideCost s meter c) s
  .next ((clusterCores meter).foldl (fun s c => s.modCore c fun x => { x with holding := [] }) s)

/-- DROOP_TRIP (31 R404): the cluster's clock is halved, the die's count advances, saturating. -/
def execDroopTrip (cluster : Nat) (s : State) : Host.Outcome State Fault Refusal :=
  .next ((s.modCluster cluster fun m => { m with droop := true }).modDie (cluster / 16) fun d =>
    { d with droop := min (d.droop + 1) (2 ^ 32 - 1) })

/-- DROOP_END (31 R404): 64 cycles without a new trip. -/
def execDroopEnd (cluster : Nat) (s : State) : Host.Outcome State Fault Refusal :=
  .next (s.modCluster cluster fun m => { m with droop := false })

/-- A die's step after 100 µs (31 R405). -/
def stepAfter (d : DieRegs) (power plimit : Nat) : Nat :=
  if d.tthr < d.temp ∨ plimit < power then max 4 (d.step - 1)
  else if d.temp + 5 < d.tthr ∧ power < plimit then min 8 (d.step + 1)
  else d.step

/-- THROTTLE_TICK (31 R405 R406): the hottest sensors and the package's average power are registered, then each die's step
moves. -/
def execThrottleTick (temps : List Nat) (power : Nat) (s : State) : Host.Outcome State Fault Refusal :=
  let s := { s with pwr := min power 65535 }
  .next ((upto 10).foldl (fun s n => s.modDie n fun d =>
    let d := { d with temp := min 255 (temps.getD n d.temp) }
    { d with step := stepAfter d power s.plimit }) s)

/-- THERMAL_STOP (31 R405): at 115 °C. -/
def execThermalStop (die : Nat) (s : State) : Host.Outcome State Fault Refusal :=
  .next (if 115 ≤ (s.getDie die).temp ∧ !(s.getDie die).stopped then
      s.modDie die fun d => { d with stopped := true, stopAt := s.time }
    else s)

/-- The activations of a die, which have aged by nothing while its clocks were stopped for `n` ns (31 R405, 03 R64). -/
def pauseAges (s : State) (die n : Nat) : State :=
  s.allActs.foldl (fun s x =>
    if dieOf x.1 = die then s.putAct x.1 x.2.1 { x.2.2 with ready := min s.time (x.2.2.ready + n) } else s) s

/-- The clocks of a die run again (31 R405): what had to wait for them follows, dumps (03 R73) and the messages for stalled
MPOPs (17 R248). -/
def clocksRun (s : State) (die : Nat) : State :=
  let s := dueBudgets ((pauseAges s die (s.time - (s.getDie die).stopAt)).modDie die fun d => { d with stopped := false }) s.time
  s.cores.foldl (fun s x => if dieOf x.1 = die then serveMpops s x.1 else s) s

/-- THERMAL_RESUME (31 R405): once every sensor reads below 105 °C. -/
def execThermalResume (die : Nat) (s : State) : Host.Outcome State Fault Refusal :=
  let d := s.getDie die
  .next (if d.temp < 105 ∧ d.stopped then clocksRun s die else s)

/-- RAIL_FAULT (31 R399): the package is held in reset. Memory keeps its ciphertext, of which no key is left (25 R349);
the model's own counters go on, so that no free value is drawn twice (log 76). -/
def execRailFault (s : State) : Host.Outcome State Fault Refusal :=
  .next { State.reset with
    mem := s.mem, doms := s.doms.map fun (x : Nat × Dom) => (x.1, { Dom.blank with gen := x.2.gen + 1 }),
    serial := s.serial, free := s.free, agenda := s.agenda }

/-- PACKAGE_RESET (31 R400 R403): reset ends, and bring-up begins at stage 1; TIME starts at 0 (log 76). -/
def execPackageReset (s : State) : Host.Outcome State Fault Refusal :=
  .next (if s.inReset then { s with inReset := false, stage := 1, time := 0 } else s)

/-- A log entry's 64 bytes (25 R359). -/
def LogEnt.bytes (e : LogEnt) : List Byte :=
  wordBytes [BitVec.ofNat 64 e.index, at_ e.type 16 ||| at_ e.dom 8 ||| at_ e.slot 0, BitVec.ofNat 64 e.time, 0]
    ++ leBytes 32 e.digest.toNat

/-- An entry appended to the event log (25 R359): the last 2^20 are retained, every one counts in LOGH. SLOT of a TYPE that has
no selector, and DOMAIN of a firmware stage, are 0 (log 120). -/
def logEvent (s : State) (type dom slot : Nat) (digest : BitVec 256) : State :=
  let e : LogEnt := { index := s.logCount, type := type, dom := dom, slot := slot, time := s.time, digest := digest }
  let l := s.log ++ [e]
  { s with log := l.drop (l.length - 2 ^ 20), logCount := s.logCount + 1,
           logh := sha3 (leBytes 32 s.logh.toNat ++ e.bytes) }

/-- A measurement slot after an extend (25 R358). -/
def extended (x e : BitVec 256) : BitVec 256 := sha3 (leBytes 32 x.toNat ++ leBytes 32 e.toNat)

/-- Package slot `i` extended by a digest. -/
def extendMs (s : State) (i : Nat) (e : BitVec 256) : State :=
  { s with ms := s.ms.setIfInBounds i (extended (s.ms.toArray.getD i 0) e) }

/-- Firmware stages measured so far (25 R362). -/
def measuredStages (s : State) : Nat := (s.log.filter fun x => decide (x.type = 1)).length

/-- Why a firmware image is refused (25 R362, 31 R406): the ERR of its signature, of its key's digest, of its security
version; 0 for an image that passes. -/
def imageError (f : Firmware) : Nat :=
  if !Config.verifies f.image f.key then 1
  else if sha3 f.key ≠ Config.fusedKey then 2
  else if f.version < Config.fusedVersion then 3
  else 0

/-- A firmware stage measured (25 R362): stage i extends MS i by its image's digest and is logged. -/
def measureStage (s : State) (f : Firmware) : State :=
  let i := measuredStages s
  let e := sha3 f.image
  logEvent (extendMs s i e) 1 0 i e

/-- A bring-up stage's images verified and measured in order, up to the first that fails, whose cause ERR holds (25 R362,
31 R400). -/
def runImages (s : State) : List Firmware → State
  | [] => s
  | f :: fs =>
    if imageError f ≠ 0 then { s with err := imageError f }
    else runImages (measureStage s f) fs

/-- A domain created (25 R349 R354 R356): its keys drawn, its masks as R356, its registers and balance at reset. -/
def createDomain (s : State) (d : Nat) : State :=
  let peer : BitVec 256 := if d = 1 ∨ d = 2 then 6 else 0
  let own : BitVec 256 := peer ||| (1 <<< d) ||| (1 <<< kernelOf d)
  let s := { s with clusters := s.clusters.map fun (x : Nat × Cluster) => (x.1, { x.2 with residue := tabErase x.2.residue d }) }
  s.modDom d fun x => { Dom.blank with exists_ := true, gen := x.gen + 1, accept := own, send := own }

/-- The cost table shipped (23 R331). -/
def shippedCosts : List Nat := [3, 10, 5, 2, 80, 250, 1000, 40, 30, 12, 200, 60, 20, 30, 4000, 2200]

/-- Domains 1 and 2 created, their cores held by their contexts (31 R400 stage 5, 21 R324). -/
def holdKernels (s : State) (die : Nat) : State :=
  let s := createDomain (createDomain s 1) 2
  freshCore ((upto 32).foldl (fun s n => freshCore s (1280 + n) 1) s) (128 * die) 2

/-- A frame of a kernel's loaded image (31 R400): OWNED by the kernel's domain, its lines as the loading leaves them, sealed
under the domain's key (log 91). -/
def loadFrame (s : State) (d : Nat) (image : List Byte) (f : Nat) : State :=
  if !isDram (4096 * f) || decide ((getFrame s f).state ≠ .free) then s
  else (upto 32).foldl (fun s i => writeSealed s d (32 * f + i) (Config.kernelLine d image (32 * f + i)))
    (setFrame s f { getFrame s f with state := .owned, keyid := d, owner := d, peer := d })

/-- A kernel's image loaded (31 R400): its frames, and TROOT of its domain (log 91). -/
def loadKernel (s : State) (d : Nat) (image : List Byte) : State :=
  ((Config.kernelFrames d image).foldl (fun s f => loadFrame s d image f) s).modDom d fun x =>
    { x with troot := Config.kernelRoot d image &&& (at_ (2 ^ 40 - 1) 12 ||| 1) }

/-- A kernel starts on the core it is loaded on (31 R400 R407): a kernel-mode activation in its start state at its image's
entry, in slot 0, charged as an activation start (log 91). -/
def startKernel (s : State) (c d : Nat) : State :=
  startAct s c 0 { Act.blank with
    regs := Regs.start.withS [(2, stackTop c 0), (6, identity c 0)],
    pc := Config.kernelEntry d, entry := Config.kernelEntry d, dom := d, kernel := true }

/-- Bring-up's end (31 R400 stages 5 and 6): the kernels' domains and cores, their images loaded, the host kernel's first,
then STAGE 6, in which the kernels start. -/
def startKernels (s : State) (die : Nat) (images : List Firmware) : State :=
  let image (i : Nat) : List Byte := ((images[i]?).map fun f => f.image).getD []
  let s := { loadKernel (loadKernel (holdKernels s die) 1 (image 0)) 2 (image 1) with stage := 6 }
  startKernel (startKernel s 1280 1) (128 * die) 2

/-- What the end of a bring-up stage leaves (31 R400 R401); stage 2 trains the Lanyard ports (log 71). -/
def endStage (s : State) (failed : BitVec 10) (cxlTier : Bool) (images : List Firmware) : State :=
  match s.stage with
  | 1 =>
    let s := { s.modDom 0 (fun d => { d with gen := d.gen + 1 }) with stage := 2 }
    (upto 12).foldl (fun s n => s.modPort n fun p => { p with lstate := .training }) s
  | 2 => { s with cxlTier := cxlTier, stage := 3 }
  | 3 => { s with costs := shippedCosts, stage := 4 }
  | 4 => { s with diemask := ~~~failed, stage := 5 }
  | 5 => match (upto 10).find? fun n => s.diemask.getLsbD n with
    | some n => startKernels s n images
    | none => { s with err := 7 }
  | _ => s

/-- The causes a stage's training can fail with (31 R400 R406): the hub die's and the second tier's at stage 2, the second
tier's and the frame table's at stage 4. -/
def stageErrors : Nat → List Nat
  | 2 => [4, 5]
  | 4 => [5, 6]
  | _ => []

/-- The images that a bring-up stage can end with (31 R400, 25 R362): firmware has run at stage 1, the two kernels are loaded
at stage 5, and firmware stages are numbered to 7 (log 91). -/
def imagesFit (s : State) (images : List Firmware) : Bool :=
  (match s.stage with
    | 1 => !images.isEmpty
    | 5 => decide (images.length = 2)
    | _ => true)
  && decide (measuredStages s + images.length ≤ 8)

/-- BRINGUP_STAGE (31 R400 R401, 25 R362): the current stage ends; a failure stops bring-up with STAGE unchanged. A stage does
not end without the images it verifies and runs. -/
def execBringupStage (err : Nat) (failed : BitVec 10) (cxlTier : Bool) (images : List Firmware) (s : State) :
    Host.Outcome State Fault Refusal :=
  .next (if s.inReset ∨ s.stage = 0 ∨ 6 ≤ s.stage ∨ s.err ≠ 0 then s
    else if err ∈ stageErrors s.stage then { s with err := err }
    else if !imagesFit s images then s
    else
      let s := runImages s images
      if s.err ≠ 0 then s else endStage s failed cxlTier images)

end Sys2Proof.Machine
end

