-- ==== Sys2Proof/Machine/Security.lean ====
section
/-!
DEFINITION. The security core's requests (25 R352-R361): each step serves the oldest request that waits, if it is of the
step's code.
-/
namespace Sys2Proof.Machine

/-- Word `i` of a request's payload, s8 the first (25 R352). -/
def reqWord (m : Msg) (i : Nat) : Word := m.words.getD i 0

/-- The requester's domain, from SDOM (25 R352). -/
def requester (m : Msg) : Nat := bitsOf m.hdr 42 35

/-- The meter of the core that sent a request (23 R334). -/
def requestMeter (m : Msg) : Nat := clusterOf (m.src / 256)

/-- What a request answers. -/
inductive ReqAns where
  /-- it is done: the value for s11, the state -/
  | done (v : Nat) (s : State)
  | fail (r : Result)

/-- SECREPLY (25 R353). -/
def secReply (s : State) (m : Msg) (r : Result) (v : Word) : State :=
  notice s (requester m) 4090 [10, reqWord m 0, BitVec.ofNat 64 r.code, v, BitVec.ofNat 64 (bitsOf m.hdr 34 19), 0, 0]

/-- An answered request's reply. The value in s11 of one that fails is open (log 16). -/
def answerReq (s : State) (m : Msg) : ReqAns → State
  | .done v s' => secReply s' m .ok (BitVec.ofNat 64 v)
  | .fail r =>
    let (n, s) := s.draw
    secReply s m r (Config.openValue n)

/-- The oldest request is served if it has a code (25 R353); one whose code names no request is answered FORMAT whichever
step comes (25 R354) (log 64). -/
def serve (code : Nat) (s : State) (f : Msg → State → ReqAns) : Host.Outcome State Fault Refusal :=
  .next (match s.requests with
    | [] => s
    | m :: r =>
      let c := (reqWord m 0).toNat
      let s' := { s with requests := r }
      if c = code then answerReq s' m (f m s')
      else if c = 0 ∨ 9 ≤ c then answerReq s' m (.fail .format)
      else s)

/-- The digest logged for a state change (25 R359): of the payload words s9 to s14. -/
def payloadDigest (m : Msg) : BitVec 256 := sha3 (wordBytes ((padTo 0 7 m.words).drop 1))

/-- A digest given in s11 to s14. -/
def reqDigest (m : Msg) : BitVec 256 := BitVec.ofNat 256 (leNat (wordBytes ((upto 4).map fun i => reqWord m (3 + i))))

/-- The test of a domain that a request names: in its range, and existing (log 65). -/
def reqDomain (s : State) (lo d : Nat) : Option Result :=
  if d < lo ∨ 194 < d then some .format else if domExists s d then none else some .state

/-- What refuses an extend (25 R358): a reserved domain in its domain operand, whichever slot it selects (01 R27), its
selector, its extender (log 64). -/
def extendTarget (s : State) (m : Msg) : Option Result :=
  let sel := bitsOf (reqWord m 1) 7 0
  let d := (reqWord m 2).toNat
  let k := requester m
  if 195 ≤ d ∧ d ≤ 254 then some .format
  else if sel ≤ 23 then (if (8 ≤ sel ∧ sel ≤ 15 ∧ k = 1) ∨ (16 ≤ sel ∧ k = 2) then none else some .authority)
  else if 32 ≤ sel ∧ sel ≤ 35 then (reqDomain s 1 d).orElse fun _ => if kernelOf d = k then none else some .authority
  else if sel = 255 then none
  else some .format

/-- EXTEND (25 R354 R358 R359) (log 64). -/
def execExtend (s : State) : Host.Outcome State Fault Refusal :=
  serve 1 s fun m s =>
    let sel := bitsOf (reqWord m 1) 7 0
    let d := (reqWord m 2).toNat
    let e := reqDigest m
    match extendTarget s m with
    | some r => .fail r
    | none =>
      let at1 := s.logCount
      if sel ≤ 23 then .done at1 (logEvent (extendMs s sel e) 2 (requester m) sel e)
      else if sel = 255 then .done at1 (logEvent s 2 (requester m) sel e)
      else
        let s := s.modDom d fun x => { x with cs := x.cs.set (sel - 32) (extended (x.cs.getD (sel - 32) 0) e) }
        .done at1 (logEvent s 2 d sel e)

/-- Frames whose entry satisfies a test. -/
def countFrames (s : State) (f : Frame → Bool) : Nat := (s.frames.filter fun x => f x.2).length

/-- The masks and the host-identity entries that name a domain, as EVIDENCE digests them (25 R361): of an entry its three
words, in force or not (log 103). -/
def policyDigest (s : State) (d : Nat) : BitVec 256 :=
  let x := s.getDom d
  let mine := s.hostTab.filter fun h => decide (bitsOf h.2.ctl 23 16 = d)
  sha3 (leBytes 32 x.accept.toNat ++ leBytes 32 x.send.toNat
    ++ mine.foldr (fun h acc => wordBytes [h.2.ctl, h.2.base, h.2.limit] ++ acc) [])

/-- The signed part of evidence (25 R361), bytes 0x000 to 0x47F. -/
def evidenceBody (s : State) (d : Nat) (nonce : BitVec 256) : List Byte :=
  let digests (l : List (BitVec 256)) : List Byte := l.foldr (fun x acc => leBytes 32 x.toNat ++ acc) []
  let n (k : Nat) : Word := BitVec.ofNat 64 k
  let owns (f : Frame) : Bool := decide (f.owner = d) && match f.state with
    | .owned | .offered | .lent => true
    | _ => false
  let borrows (f : Frame) : Bool := decide (f.peer = d) && match f.state with
    | .lent | .recalling => true
    | _ => false
  padTo 0 64 (wordBytes [at_ 1 0 ||| at_ d 8, n s.time, n s.evidence, n s.logCount, n (s.logCount - s.log.length)])
    ++ digests s.ms.toList ++ digests (s.getDom d).cs ++ digests [s.logh, nonce]
    ++ wordBytes [n (countFrames s owns), n (countFrames s borrows),
                  n (countFrames s fun f => decide (f.state = .retired) && decide (f.owner = d)), 0, 0,
                  (s.getDom d).modes.setWidth 64 ||| at_ (flag (unacknowledged s d)) 6, 0, 0]
    ++ digests [policyDigest s d, 0]

/-- The 8 KiB that EVIDENCE writes (25 R361). -/
def evidenceBytes (s : State) (d : Nat) (nonce : BitVec 256) : List Byte :=
  let body := evidenceBody s d nonce
  padTo (0 : Byte) 0x1000 (body ++ (upto 2420).map fun i => Config.signature s.ms[0] body i)
    ++ padTo (0 : Byte) 0x1000 ((upto 3732).map fun i => Config.attestation s.ms[0] i)

/-- EVIDENCE (25 R354 R361) (log 54) (log 65). -/
def execEvidence (s : State) : Host.Outcome State Fault Refusal :=
  serve 2 s fun m s =>
    let d := (reqWord m 1).toNat
    let pa := (reqWord m 2).toNat
    let k := requester m
    match reqDomain s 1 d with
    | some r => .fail r
    | none =>
      if !bufferOk s k pa 0x2000 then .fail .memory
      else
        let bs := evidenceBytes s d (reqDigest m)
        .done s.evidence (physWriteAll { s with evidence := s.evidence + 1 } k (requestMeter m) pa 128 bs)

/-- A valid entry that check 3 of R355 refuses now: of a source domain's core or function. -/
def entryRefused (s : State) (src : Nat) (e : Word) : Bool := epValid e && !policyOk s src e (decide (epPkg e ≠ 0))

/-- A valid Lanyard ingress entry of a domain that check 3 refuses now. -/
def lanRefused (s : State) (src : Nat) (e : Word) : Bool := epValid e && !policyOk s src e false

/-- An entry with V = 0. -/
def epRevoked (e : Word) : Word := e &&& ~~~at_ 1 63

/-- Every entry that a test selects revoked (25 R354 R357): the entries 0 to 252 of the cores with their domain, the host
link's with theirs, the Lanyard ingress entries with theirs (log 57). -/
def revokeEntries (s : State) (core fn lan : Nat → Word → Bool) : State :=
  { s with
    cores := s.cores.map fun x => (x.1, { x.2 with
      endpoints := x.2.endpoints.map fun e => if e.1 < 253 && core (x.2.dom.getD 0) e.2 then (e.1, epRevoked e.2) else e })
    fns := s.fns.map fun x => (x.1, { x.2 with
      ingress := x.2.ingress.map fun e => if fn (fnDomain x.1) e.2 then (e.1, epRevoked e.2) else e })
    lanIngress := s.lanIngress.map fun e => if lan (e.1 / 256) e.2 then (e.1, epRevoked e.2) else e }

/-- The bits of a mask that stay set whatever is written (25 R356) (log 66). -/
def ownMask (d : Nat) : BitVec 256 := (1 <<< d) ||| (1 <<< kernelOf d)

/-- A quarter of a mask replaced (25 R354 R356) (log 66). -/
def setQuarter (m : BitVec 256) (d q : Nat) (w : Word) : BitVec 256 :=
  (m &&& ~~~((BitVec.allOnes 64).setWidth 256 <<< (64 * q))) ||| (w.setWidth 256 <<< (64 * q)) ||| ownMask d

/-- The entries that no longer pass check 3 of R355 are revoked, as EPREQ with REVOKE would (25 R357) (log 57). -/
def revokeRefused (s : State) : State := revokeEntries s (entryRefused s) (entryRefused s) (lanRefused s)

/-- POLICY (25 R354 R356 R357) (log 65); operand bits that R354 gives no field are ignored (log 124). -/
def execPolicy (s : State) : Host.Outcome State Fault Refusal :=
  serve 3 s fun m s =>
    let d := (reqWord m 1).toNat
    let q := bitsOf (reqWord m 2) 1 0
    match reqDomain s 1 d with
    | some r => .fail r
    | none =>
      if kernelOf d ≠ requester m then .fail .authority
      else
        let x := s.getDom d
        let s := s.modDom d fun x =>
          if (reqWord m 2).getLsbD 8 then { x with send := setQuarter x.send d q (reqWord m 3) }
          else { x with accept := setQuarter x.accept d q (reqWord m 3) }
        let y := s.getDom d
        let cleared := decide (x.accept &&& ~~~y.accept ≠ 0) || decide (x.send &&& ~~~y.send ≠ 0)
        .done 0 (logEvent (if cleared then revokeRefused s else s) 5 d 0 (payloadDigest m))

/-- CREATE (25 R349 R354 R356). -/
def execCreate (s : State) : Host.Outcome State Fault Refusal :=
  serve 4 s fun m s =>
    let d := (reqWord m 1).toNat
    if !isTenant d then .fail .format
    else if requester m ≠ 2 then .fail .authority
    else if domExists s d then .fail .inuse
    else .done 0 (logEvent (createDomain s d) 3 d 0 (payloadDigest m))

/-- A domain holds a core, or is OWNER or PEER of a frame (25 R354). -/
def domainBusy (s : State) (d : Nat) : Bool :=
  (s.cores.any fun x => decide (x.2.dom = some d)) || s.frames.any fun x => decide (x.2.owner = d) || decide (x.2.peer = d)

/-- Valid entries that name a domain of this package as DDOM. -/
def namesDomain (d : Nat) (e : Word) : Bool := epValid e && decide (epPkg e = 0) && decide (epDom e = d)

/-- The number of valid entries that name a domain as DDOM or that it holds (25 R354) (log 66). -/
def domainEntries (s : State) (d : Nat) : Nat :=
  (s.cores.foldl (fun n x => n + (x.2.endpoints.filter fun e => e.1 < 253 && namesDomain d e.2).length) 0)
    + (s.fns.foldl (fun n x => n + (x.2.ingress.filter fun e =>
        namesDomain d e.2 || (decide (fnDomain x.1 = d) && epValid e.2)).length) 0)
    + (s.lanIngress.filter fun e => epValid e.2 && (decide (e.1 / 256 = d) || decide (epDom e.2 = d))).length

/-- A domain destroyed (25 R349 R354): its entries revoked, its keys, and with the seal key its images, gone (log 66). A charge
of it that is on its way to the quota store stays on its way (log 102); its residency entries (21 R325) stay in the cores'
tables (log 119). -/
def destroyDomain (s : State) (d : Nat) : State :=
  let s := revokeEntries s (fun _ e => namesDomain d e) (fun src e => namesDomain d e || decide (src = d))
    fun src e => decide (src = d) || decide (epDom e = d)
  let s := s.modDom d fun x => { Dom.blank with gen := x.gen + 1 }
  { s with images := s.images.filter fun x => decide (x.2.dom ≠ d) }

/-- DESTROY (25 R354). -/
def execDestroy (s : State) : Host.Outcome State Fault Refusal :=
  serve 5 s fun m s =>
    let d := (reqWord m 1).toNat
    match reqDomain s 3 d with
    | some r => .fail r
    | none =>
      if requester m ≠ 2 then .fail .authority
      else if domainBusy s d then .fail .busy
      else .done (domainEntries s d) (logEvent (destroyDomain s d) 4 d 0 (payloadDigest m))

/-- RETIRE (25 R354) (log 65). -/
def execRetire (s : State) : Host.Outcome State Fault Refusal :=
  serve 6 s fun m s =>
    let pa := (reqWord m 1).toNat
    let f := getFrame s (pa / 4096)
    if pa % 4096 ≠ 0 then .fail .format
    else if !isDram pa then .fail .memory
    else if !inDomains f.owner || decide (kernelOf f.owner ≠ requester m) then .fail .authority
    else if f.state ≠ .owned ∨ f.peer ≠ f.owner then .fail .state
    else .done 0 (logEvent (changeFrame s (pa / 4096) { f with state := .retired }) 7 f.owner 0 (payloadDigest m))

/-- LOGREAD (25 R354 R359) (log 65). -/
def execLogread (s : State) : Host.Outcome State Fault Refusal :=
  serve 7 s fun m s =>
    let first := (reqWord m 1).toNat
    let pa := (reqWord m 2).toNat
    let k := requester m
    let old := s.logCount - s.log.length
    if !bufferOk s k pa 0x1000 then .fail .memory
    else if first < old ∨ s.logCount ≤ first then .fail .absent
    else
      let l := (s.log.drop (first - old)).take 64
      .done l.length (physWriteAll s k (requestMeter m) pa l.length (l.foldr (fun e acc => e.bytes ++ acc) []))

/-- The kernel that chooses a function's mode for a domain (01 R30): the host kernel for domain 1 and for Lanyard key
rollover, the accelerator kernel for the others (log 67). -/
def modeChooser (d i : Nat) : Nat := if i = 4 then 1 else kernelOf d

/-- MODE (25 R354, 01 R30); one that changes no function is its domain's kernel's; operand bits that R354 gives no field are
ignored (log 124). -/
def execMode (s : State) : Host.Outcome State Fault Refusal :=
  serve 8 s fun m s =>
    let d := (reqWord m 1).toNat
    let which : BitVec 6 := (reqWord m 2).setWidth 6
    let to_ : BitVec 6 := (reqWord m 3).setWidth 6
    match reqDomain s 1 d with
    | some r => .fail r
    | none =>
      if (decide (which = 0) && decide (kernelOf d ≠ requester m))
          || (upto 6).any fun i => which.getLsbD i && decide (modeChooser d i ≠ requester m) then .fail .authority
      else
        let s := s.modDom d fun x => { x with modes := (x.modes &&& ~~~which) ||| (to_ &&& which) }
        .done 0 (logEvent s 6 d 0 (payloadDigest m))

end Sys2Proof.Machine
end

