-- ==== Sys2Proof/Machine/Debug.lean ====
section
/-!
DEFINITION. Debug commands (27 R366-R376): each step serves the oldest command that waits, if it is of the step's code.
-/
namespace Sys2Proof.Machine

/-- CMD of HOLDC (27 R366). -/
def cmdOf (w : Word) : Nat := bitsOf w 3 0

/-- What a command answers. -/
inductive CmdAns where
  /-- it is done: the value for s13, the state -/
  | done (v : Nat) (s : State)
  | fail (r : Result)
  /-- an access it made fails: the state its accesses leave -/
  | failAt (r : Result) (s : State)
  /-- an access it makes waits for an outside host (05 R110) -/
  | wait (pl : Nat)

/-- DBGREPLY (27 R373), to the kernel that issued the command (log 68). -/
def debugReply (s : State) (q : DebugCmd) (r : Result) (v : Nat) : State :=
  notice s (kernelOf q.dom) 4090 [11, BitVec.ofNat 64 (cmdOf q.word), BitVec.ofNat 64 r.code, BitVec.ofNat 64 (holdDom q.word),
    BitVec.ofNat 64 (holdCore q.word), BitVec.ofNat 64 v, 0]

/-- The bits of ARG that a command uses, as a mask of HOLDC (27 R369). -/
def cmdArg (code : Nat) : Word :=
  match code with
  | 1 => at_ 0x1FF 12
  | 2 => at_ 0xFF 12
  | 5 | 9 => at_ 1 12
  | 6 => at_ 0x3F 12
  | 7 | 8 => at_ (2 ^ 40 - 1) 12
  | _ => 0

/-- What is wrong with a command's fields (27 R366 R369) (log 68). -/
def cmdFormat (w : Word) : Bool :=
  !inDomains (holdDom w) || decide (1312 ≤ holdCore w) || decide (w &&& ~~~(cmdArg (cmdOf w)) &&& at_ (2 ^ 40 - 1) 12 ≠ 0)

/-- The oldest command is served if it has a code (27 R366 R369); one whose CMD names no command is answered FORMAT
whichever step comes (log 68). -/
def command (code : Nat) (s : State) (f : DebugCmd → State → CmdAns) : Host.Outcome State Fault Refusal :=
  .next (match s.commands with
    | [] => s
    | q :: r =>
      let s' := { s with commands := r }
      if cmdOf q.word = code then
        if cmdFormat q.word then debugReply s' q .format 0
        else match f q s' with
          | .done v t => debugReply t q .ok v
          | .fail e => debugReply s' q e 0
          | .failAt e t => debugReply t q e 0
          | .wait pl => askBack s pl
      else if 12 ≤ cmdOf q.word then debugReply s' q .format 0
      else s)

/-- DBGNOTE to tag 15 of the runtime actor of every core held by a domain. -/
def noteCores (s : State) (d : Nat) (words : List Word) : State :=
  s.cores.foldl (fun s x => if x.2.dom = some d then noticeCore s x.1 4090 words else s) s

/-- DBGNOTE of a grant that has become effective (1) or ended (2): to the kernel that is not the grantee and to the
debuggee's cores (27 R373). -/
def grantNote (s : State) (event d grantee : Nat) : State :=
  let words : List Word := [13, BitVec.ofNat 64 event, BitVec.ofNat 64 d, BitVec.ofNat 64 grantee, 0, 0, 0]
  noteCores (notice s (3 - grantee) 4090 words) d words

/-- DBGNOTE of a clock locked (3) or unlocked (4): to both kernels and to the cores of the cluster (27 R373). -/
def lockNote (s : State) (event d grantee g : Nat) : State :=
  let words : List Word := [13, BitVec.ofNat 64 event, BitVec.ofNat 64 d, BitVec.ofNat 64 grantee, BitVec.ofNat 64 (lateCluster g), 0, 0]
  (clusterCores g).foldl (fun s c => if (s.getCore c).dom.isSome then noticeCore s c 4090 words else s)
    (notice (notice s 1 4090 words) 2 4090 words)

/-- A halted activation resumes (27 R372): after its BKPT with SKIP, at its word otherwise; a saved one so when it resumes
from its record. -/
def unhalt (a : Act) (skip : Bool) : Act :=
  let bkpt := decide (a.halt = .hit .breakpoint) && decide (256 ≤ a.regs.eval.toNat)
  let a := if skip && bkpt then (if a.status = .running then continueAfter a else { a with skip := true }) else a
  { a with halt := .none }

/-- A held group is released (27 R372): its halted activations resume, a step that had not issued reported first (R373), the
messages that waited for them go to them, the held completions are delivered. A quota request reaches those of a domain that
is held (23 R343). -/
def releaseGroup (s : State) (d g : Nat) (skip : Bool) : State :=
  let s := s.allActs.foldl (fun s x =>
    if decide (x.2.2.dom = d) && decide (clusterOf x.1 = g) && decide (x.2.2.halt = .step) then unstepped s x.1 x.2.1 x.2.2 else s) s
  let s := match tabFind s.grants d with
    | some x => putGrant s d { x with holds := x.holds.filter fun h => decide (h ≠ g) }
    | none => s
  let s := s.allActs.foldl (fun s x =>
    let a := x.2.2
    if decide (a.dom = d) && decide (clusterOf x.1 = g) && decide (a.halt ≠ .none) then
      s.putAct x.1 x.2.1 { unhalt a skip with ready := s.time }
    else s) s
  let s := (clusterCores g).foldl serveMpops s
  let s := deliverUnseen s g d
  if (s.getDom d).held then requestQuota s d none else s

/-- A cluster's clock is locked while some grant locks it (27 R369). -/
def setLock (s : State) (g : Nat) : State :=
  s.modCluster g fun x => { x with lock := s.grants.any fun y => y.2.locks.contains g }

/-- A grant's lock of a cluster ends (27 R369). -/
def endLock (s : State) (d g : Nat) (x : Grant) : State :=
  lockNote (setLock (putGrant s d { x with locks := x.locks.filter fun h => decide (h ≠ g) }) g) 4 d x.grantee g

/-- A grant ends (27 R369): its registers disarmed, its trace ended, its clocks unlocked, its holds released. -/
def endGrant (s : State) (d : Nat) (x : Grant) : State :=
  let s := x.locks.foldl (fun s g => match tabFind s.grants d with
    | some y => endLock s d g y
    | none => s) s
  let s := x.holds.foldl (fun s g => releaseGroup s d g false) s
  let s := { s with grants := tabErase s.grants d }
  if x.granted && x.consent then grantNote s 2 d x.grantee else s

/-- A grant with nothing but its parties. -/
def newGrant (grantee : Nat) (prof granted consent : Bool) : Grant :=
  { grantee := grantee, prof := prof, granted := granted, consent := consent, bpa := [], wpa := [], wpm := [], holds := [],
    locks := [], trace := none, traceSeq := 0 }

/-- A grant recorded; the note of one that is effective at once. -/
def putNewGrant (s : State) (d : Nat) (x : Grant) : State :=
  let s := putGrant s d x
  if x.granted && x.consent then grantNote s 1 d x.grantee else s

/-- GRANT (27 R369): an earlier grant of the debuggee ends, its consent with it; a consent that no grant has met yet stands
for a grant to the same grantee (log 68). -/
def execGrant (s : State) : Host.Outcome State Fault Refusal :=
  command 1 s fun q s =>
    let d := holdDom q.word
    let to_ := bitsOf q.word 19 12
    let prof := q.word.getLsbD 20
    if to_ ≠ 1 ∧ to_ ≠ 2 then .fail .format
    else if q.dom ≠ 1 then .fail .authority
    else if !domExists s d then .fail .state
    else match tabFind s.grants d with
      | some x =>
        if x.granted then .done 0 (putNewGrant (endGrant s d x) d (newGrant to_ prof true false))
        else .done 0 (putNewGrant s d (newGrant to_ prof true (x.consent && decide (x.grantee = to_))))
      | none => .done 0 (putNewGrant s d (newGrant to_ prof true false))

/-- CONSENT (27 R369) (log 68). -/
def execConsent (s : State) : Host.Outcome State Fault Refusal :=
  command 2 s fun q s =>
    let d := holdDom q.word
    let to_ := bitsOf q.word 19 12
    if to_ ≠ 1 ∧ to_ ≠ 2 then .fail .format
    else if q.dom ≠ kernelOf d then .fail .authority
    else if !domExists s d then .fail .state
    else match tabFind s.grants d with
      | some x =>
        if x.granted ∧ x.grantee ≠ to_ then .fail .state
        else if x.consent then .done 0 (putGrant s d { x with grantee := to_ })
        else .done 0 (putNewGrant s d { x with consent := true, grantee := to_ })
      | none => .done 0 (putNewGrant s d (newGrant to_ false false true))

/-- REVOKE (27 R369). -/
def execRevoke (s : State) : Host.Outcome State Fault Refusal :=
  command 3 s fun q s =>
    let d := holdDom q.word
    if q.dom ≠ 1 ∧ q.dom ≠ kernelOf d then .fail .authority
    else match tabFind s.grants d with
      | some x => .done 0 (endGrant s d x)
      | none => .fail .state

/-- A command of the grantee of an effective grant (27 R369) (log 68). -/
def granteeCommand (code : Nat) (s : State) (f : Grant → DebugCmd → State → CmdAns) : Host.Outcome State Fault Refusal :=
  command code s fun q s =>
    match grantOf s (holdDom q.word) with
    | some x => if x.grantee = q.dom then f x q s else .fail .authority
    | none => .fail .authority

/-- HOLD (27 R369 R370). -/
def execHold (s : State) : Host.Outcome State Fault Refusal :=
  granteeCommand 4 s fun _ q s =>
    let d := holdDom q.word
    let g := clusterOf (holdCore q.word)
    let s := holdGroup s d g
    .done (s.allActs.filter fun x => decide (x.2.2.dom = d) && decide (clusterOf x.1 = g) && decide (x.2.2.halt ≠ .none)).length s

/-- RELEASE (27 R369 R372). -/
def execRelease (s : State) : Host.Outcome State Fault Refusal :=
  granteeCommand 5 s fun x q s =>
    let g := clusterOf (holdCore q.word)
    if x.holds.contains g then .done 0 (releaseGroup s (holdDom q.word) g (q.word.getLsbD 12)) else .fail .state

/-- STEP (27 R369 R371): the halted activation runs its next word and halts again; its outcome is reported when it has (log 68). -/
def execStep (s : State) : Host.Outcome State Fault Refusal :=
  granteeCommand 6 s fun x q s =>
    let c := holdCore q.word
    let k := bitsOf q.word 17 12
    if !x.holds.contains (clusterOf c) then .fail .state
    else match s.findAct c k with
      | none => .fail .absent
      | some a =>
        if a.dom ≠ holdDom q.word then .fail .absent
        else if a.halt = .none ∨ a.halt = .step ∨ a.status ≠ .running then .fail .state
        else .done 0 (s.putAct c k { a with halt := .step })

/-- The wait object and its operand that SNAP writes (27 R374). -/
def waitObject (a : Act) : Word × Word :=
  match a.wait with
  | some (.mpop t) => (BitVec.ofNat 64 t, 0)
  | some (.barrier addr phase) => (addr, phase)
  | some (.job splice id) => (at_ id 0 ||| at_ (flag splice) 16, 0)
  | some (.ring empty h n) => (at_ h 0 ||| at_ (flag empty) 4, BitVec.ofNat 64 n)
  | _ => (0, 0)

/-- The record that SNAP writes for a slot (27 R374): a saved activation's is read as the device reads records, and charged
so (23 R334) (log 69). -/
def snapRecord (s : State) (d c k : Nat) : Acc (List Byte × State) :=
  match s.findAct c k with
  | none => .ok (List.replicate 2048 0, s)
  | some a =>
    if a.dom ≠ d then .ok (List.replicate 2048 0, s)
    else match a.status with
      | .running => .ok (recordBytes a false (at_ 1 10) (waitObject a) (reservedOf (s.getCore c) k), s)
      | .parked => .ok (recordBytes a true 0 (0, 0) (reservedOf (s.getCore c) k), s)
      | .saved _ _ => match recordAddr s c k with
        | none => .error (.fault .pageAbsent 0 s)
        | some va => recordReadAll s d (clusterOf c) c va 32

/-- The records of several slots. -/
def snapRecords (s : State) (d c : Nat) : List Nat → Acc (List Byte × State)
  | [] => .ok ([], s)
  | k :: r => match snapRecord s d c k with
    | .error e => .error e
    | .ok (bs, s) => match snapRecords s d c r with
      | .error e => .error e
      | .ok (l, s) => .ok (bs ++ l, s)

/-- The core page of SNAP (27 R374), zeros for a core that the domain's context does not hold (log 69). -/
def corePage (s : State) (d c : Nat) : List Byte :=
  let x := s.getCore c
  if x.dom ≠ some d then List.replicate 4096 0
  else padTo 0 0x100 (wordBytes ((upto 16).map fun h => ringInfo s c h))
    ++ padTo 0 0xF00 (wordBytes ((upto 64).map (fun i => BitVec.ofNat 64 (tabGet 0 x.da i)) ++ [BitVec.ofNat 64 x.wt, at_ (flag x.open_) 0]))

/-- A buffer's physical address in ARG (27 R369). -/
def cmdBuffer (w : Word) : Nat := 4096 * bitsOf w 51 12

/-- SNAP (27 R369 R374) (log 69). -/
def execSnap (s : State) : Host.Outcome State Fault Refusal :=
  granteeCommand 7 s fun x q s =>
    let d := holdDom q.word
    let c := holdCore q.word
    let pa := cmdBuffer q.word
    if !x.holds.contains (clusterOf c) then .fail .state
    else if !bufferOk s x.grantee pa 0x21000 then .fail .memory
    else match snapRecords s d c (upto 64) with
      | .error (.wait pl) => .wait pl
      | .error (.fault _ _ t) => .failAt .memory t
      | .ok (bs, s) => .done 64 (physWriteAll s x.grantee (clusterOf q.core) pa 2112 (bs ++ corePage s d c))

/-- TRACE (27 R369 R375). -/
def execTrace (s : State) : Host.Outcome State Fault Refusal :=
  granteeCommand 8 s fun x q s =>
    let pa := cmdBuffer q.word
    if pa = 0 then .done 0 (putGrant s (holdDom q.word) { x with trace := none })
    else if !bufferOk s x.grantee pa 0x10000 then .fail .memory
    else .done 0 (putGrant s (holdDom q.word) { x with trace := some pa, traceSeq := 0 })

/-- WINDOW (27 R369 R376). -/
def execWindow (s : State) : Host.Outcome State Fault Refusal :=
  granteeCommand 9 s fun _ q s =>
    let c := holdCore q.word
    if (s.getCore c).dom ≠ some (holdDom q.word) then .fail .state
    else if q.word.getLsbD 12 then .done 0 (s.modCore c fun y => { y with da := [], wt := 0, open_ := true })
    else .done 0 (s.modCore c fun y => { y with open_ := false })

/-- LOCK (27 R369). -/
def execLock (s : State) : Host.Outcome State Fault Refusal :=
  granteeCommand 10 s fun x q s =>
    let d := holdDom q.word
    let g := clusterOf (holdCore q.word)
    if !x.prof then .fail .authority
    else if x.locks.contains g then .done 0 s
    else .done 0 (lockNote (setLock (putGrant s d { x with locks := x.locks ++ [g] }) g) 3 d x.grantee g)

/-- UNLOCK (27 R369). -/
def execUnlock (s : State) : Host.Outcome State Fault Refusal :=
  granteeCommand 11 s fun x q s =>
    let g := clusterOf (holdCore q.word)
    if x.locks.contains g then .done 0 (endLock s (holdDom q.word) g x) else .fail .state

end Sys2Proof.Machine
end

