-- ==== Sys2Proof/Machine/Links.lean ====
section
/-!
DEFINITION. The host link (29 R379-R384), the Lanyard ports (29 R385-R395 R409, 30 R396-R398) and the registers that hosts
write (31 R406, 29 R381).
-/
namespace Sys2Proof.Machine

/-- The number a message of a host function's ingress entry has as its source entry. -/
def hostSource (fn i : Nat) : Nat := 2 ^ 24 + 64 * fn + i

/-- Ingress messages of a function that have not been placed (29 R382) (log 74). -/
def undelivered (s : State) (fn : Nat) : Nat :=
  (s.flight.filter fun m => decide (hostSource fn 0 ≤ m.src) && decide (m.src < hostSource fn 64)).length

/-- A dropped ingress write is counted (29 R381 R382). -/
def ingressError (s : State) (fn : Nat) : State :=
  s.modFn fn fun f => { f with ingerr := min (f.ingerr + 1) (2 ^ 32 - 1) }

/-- The message that an ingress unit of 64 bytes makes through an entry (05 R80, 29 R382 R389). -/
def ingressMsg (e : Word) (sep sdom score src : Nat) (words : List Word) : Msg :=
  { dom := epDom e, core := epCore e, actor := epActor e, tag := epTag e,
    hdr := mkHeader sep sdom (epSeq e) (epLen e) (epTag e) score, words := words.take (epLen e), via := 0, src := src,
    reached := false }

/-- A write to the ingress window of a function that delivers a message (29 R382): 64 bytes, aligned, through an entry in
force. -/
def ingressDelivers (s : State) (fn off size : Nat) : Bool :=
  decide (size = 64) && decide (off % 64 = 0) && epValid (tabGet 0 (s.getFn fn).ingress (off / 64))

/-- A write to the ingress window of a function that is not stalled (29 R382). -/
def ingressWrite (s : State) (fn off size : Nat) (data : BitVec 512) : State :=
  let i := off / 64
  let e := tabGet 0 (s.getFn fn).ingress i
  if !ingressDelivers s fn off size then ingressError s fn
  else
    let m := ingressMsg e i (fnDomain fn) 4095 (hostSource fn i) (wordsOf 7 (leBytes 56 (data.toNat / 2 ^ 64)))
    route (s.modFn fn fun f => { f with ingress := tabPut f.ingress i (epAdvance e) }) { pkg := epPkg e, msg := m }

/-- A function's egress ring can take a message (29 R384). -/
def egressRoom (f : HostFn) : Bool :=
  !(decide (f.egbase = 0) && decide (f.eglog = 0)) && decide ((f.egtail + 2 ^ 32 - f.eghead) % 2 ^ 32 ≠ 2 ^ f.eglog)

/-- HOST_EGRESS_WRITE (29 R384), over a host link that serves it (31 R400). -/
def execHostEgressWrite (fn : Nat) (s : State) : Host.Outcome State Fault Refusal :=
  let f := s.getFn fn
  .next (match f.egress with
    | [] => s
    | m :: r =>
      if !egressRoom f || !linkServes s then s
      else
        let w : HostWrite := { fn := fn, addr := f.egbase.toNat + 64 * (f.egtail % 2 ^ f.eglog), bytes := msgBytes m.hdr m.words }
        let s := { s with hostOut := s.hostOut ++ [w], msix := s.msix ++ [(fn, f.vec)] }
        s.modFn fn fun f => { f with egress := r, egtail := (f.egtail + 1) % 2 ^ 32 })

/-- A key slot of the sending direction. -/
def Port.tx (p : Port) (slot : Bool) : KeySlot := if slot then p.tx1 else p.tx0
/-- A key slot of the sending direction written. -/
def Port.setTx (p : Port) (slot : Bool) (k : KeySlot) : Port := if slot then { p with tx1 := k } else { p with tx0 := k }
/-- A key slot of the receiving direction. -/
def Port.rx (p : Port) (slot : Bool) : KeySlot := if slot then p.rx1 else p.rx0
/-- A key slot of the receiving direction written. -/
def Port.setRx (p : Port) (slot : Bool) (k : KeySlot) : Port := if slot then { p with rx1 := k } else { p with rx0 := k }

/-- A key installed: its counters are 0 (29 R390). -/
def newKey (k : BitVec 256) : KeySlot := { key := k, data := 0, ctl := 0 }

/-- Lanyard key rollover of a port is host-assisted (01 R30), as its domain's mode was at its training (log 67). -/
def rolloverHost (p : Port) : Bool := p.assisted

/-- The LSEQ before another. -/
def seqBefore (n : Nat) : Nat := (n + 65535) % 65536

/-- How far an LSEQ lies after another, modulo 65,536. -/
def seqFrom (base n : Nat) : Nat := (n + 65536 - base % 65536) % 65536

/-- The IV of a flit between a port and its peer (29 R390): the link's id, 0 where its sender has the lower digest, the key
slot, the counter in the place of its kind. -/
def flitIv (p : Port) (outward : Bool) (f : Flit) : BitVec 96 :=
  let lower := if outward then p.lower else !p.lower
  let counter : BitVec 96 := match f.kind with
    | .data | .marker => f.ctr.setWidth 96
    | .retry | .idle => (1 <<< 61) ||| (f.ctr.setWidth 96 <<< 32)
  (p.linkId.setWidth 96 <<< 64) ||| (BitVec.ofNat 96 (flag !lower) <<< 63) ||| (BitVec.ofNat 96 (flag f.slot) <<< 62) ||| counter

/-- A new flit with the IV its port encrypts it under. -/
def Port.sealed (p : Port) (f : Flit) : Flit := { f with iv := flitIv p true f }

/-- A flit put out at a port, whose energy is the device's, as a received one's is (23 R336). -/
def putOut (s : State) (n : Nat) (f : Flit) : State := chargeOpen (s.modPort n fun p => { p with out := p.out ++ [f] })

/-- A control flit put out (29 R387 R390 R392): it takes the next value of the control counter. Its LSEQ is open (log 7). -/
def controlFlit (s : State) (n : Nat) (kind : FlitKind) : State :=
  let (v, s) := s.draw
  let p := s.getPort n
  let k := p.tx p.txSlot
  let f := p.sealed { ctr := BitVec.ofNat 32 k.ctl, lseq := (Config.openValue v).setWidth 16,
                      ackseq := BitVec.ofNat 16 (seqBefore p.expect), ing := 0, resync := false, last := false, slot := p.txSlot,
                      kind := kind, bytes := 0, body := [], reservedZero := true, iv := 0, auth := true }
  putOut (s.modPort n fun p => p.setTx p.txSlot { k with ctl := (k.ctl + 1) % 2 ^ 29 }) n f

/-- A DATA or MARKER flit put out and kept (29 R387 R390 R392): it takes the next LSEQ and the next value of the data
counter. -/
def newFlit (s : State) (n : Nat) (kind : FlitKind) (resync : Bool) (unit : Option Body) (body : List Byte) : State :=
  let p := s.getPort n
  let k := p.tx p.txSlot
  let f := p.sealed { ctr := BitVec.ofNat 32 k.data, lseq := BitVec.ofNat 16 p.lseq, ackseq := BitVec.ofNat 16 (seqBefore p.expect),
                      ing := BitVec.ofNat 8 ((unit.map fun u => u.ing).getD 0), resync := resync,
                      last := (unit.map fun u => u.last).getD false, slot := p.txSlot, kind := kind,
                      bytes := if unit.isSome then body.length else 0, body := body, reservedZero := true, iv := 0, auth := true }
  putOut (s.modPort n fun p => { p.setTx p.txSlot { k with data := k.data + 1 } with
    lseq := (p.lseq + 1) % 65536, sent := p.sent ++ [{ flit := f, unit := unit }],
    lastAck := if p.sent.isEmpty then s.time else p.lastAck }) n f

/-- A port tells a job its end (29 R394, 30 R396): on a die whose clocks stand still the job ends once they run (31 R405). -/
def portEnds (s : State) (g : Nat) (j : ReeveJob) (bytes : Nat) (cause : Option Cause) : State :=
  if (s.getDie (dieOf j.core)).stopped then putReeve s g { j with acked := bytes, ending := some cause }
  else reeveFinish s g j bytes cause false

/-- The Reeve jobs with units at a port that no acknowledgement covers end FAILED with ENDPOINT (29 R394) (log 43). -/
def failJobs (s : State) (n : Nat) : State :=
  s.clusters.foldl (fun s c => c.2.reeve.foldl (fun s j =>
    if j.sent && decide (j.port = some n) && j.ending.isNone then portEnds s c.1 j j.acked (some .endpoint) else s) s) s

/-- A link goes down (29 R394): 1 resynchronisation failed, 2 training lost, 3 counters exhausted (log 71). -/
def linkLost (s : State) (n reason : Nat) : State :=
  let p := s.getPort n
  let first := match p.sent with
    | x :: _ => x.flit.lseq.toNat
    | [] => p.lseq
  let words : List Word := [14, BitVec.ofNat 64 n, BitVec.ofNat 64 reason, BitVec.ofNat 64 first]
  let s := notice (notice s 1 4094 words) 2 4094 words
  let s := s.modPort n fun p => { p with
    lstate := .down, queue := [], sent := [], resend := [], marker := false, fresh := false, kagree := false, fails := [],
    byRetry := false, resync := false, landing := none }
  let s := failJobs s n
  let sends := (p.sent.filterMap fun x => x.unit) ++ p.queue
  (sends.filter fun u => u.job.isNone).foldl (fun s u => portHomeless s n u) s

/-- LINK_DOWN (29 R394). -/
def execLinkDown (port reason : Nat) (s : State) : Host.Outcome State Fault Refusal :=
  .next (if 12 ≤ port ∨ (s.getPort port).lstate = .down then s
    else linkLost s port (if 1 ≤ reason ∧ reason ≤ 3 then reason else 2))

/-- A resynchronising MARKER (29 R393): the sending slot, the data counter and the LSEQ expected next, in this order in its
body (log 70). -/
def sendResync (s : State) (n : Nat) : State :=
  let p := s.getPort n
  let k := p.tx p.txSlot
  if 2 ^ 32 ≤ k.data then linkLost s n 3
  else
    let body := wordBytes [BitVec.ofNat 64 (flag p.txSlot), BitVec.ofNat 64 k.data, BitVec.ofNat 64 p.expect]
    (newFlit s n .marker true none body).modPort n fun p => { p with resync := true }

/-- A MARKER that rolls over is sent (29 R391): under the current slot, then the sender switches to the other. A counter that
would pass 0xFFFF_FFFF ends the link (R393). -/
def sendMarker (s : State) (n : Nat) : State :=
  let p := s.getPort n
  if 2 ^ 32 ≤ (p.tx p.txSlot).data then linkLost s n 3
  else (newFlit s n .marker false none []).modPort n fun p => { p with txSlot := !p.txSlot, marker := true, fresh := false }

/-- A data counter or a control counter has come to its threshold (29 R391). -/
def atThreshold (p : Port) : Bool :=
  let k := p.tx p.txSlot
  decide (0xFFF00000 ≤ k.data) || decide (0x1FF00000 ≤ k.ctl)

/-- The other slot holds a key to switch to (29 R391): in hardware mode the one installed at the last rollover, in
host-assisted mode a fresh one. -/
def canRoll (p : Port) : Bool := !p.marker && (!rolloverHost p || p.fresh)

/-- LANYARD_FLIT_SEND (29 R387-R392): a stored flit is resent; else a MARKER where a counter calls for one; else the next
DATA flit; else an IDLE. No more than 64 flits wait for an acknowledgement (log 70). -/
def execLanyardFlitSend (port : Nat) (s : State) : Host.Outcome State Fault Refusal :=
  let p := s.getPort port
  .next (if p.lstate ≠ .up ∨ p.resync then s
    else match p.resend with
      | f :: r => putOut (s.modPort port fun p => { p with resend := r }) port f
      | [] =>
        if 64 ≤ p.sent.length then s
        else if atThreshold p then (if canRoll p then sendMarker s port else s)
        else match p.queue with
          | [] => controlFlit s port .idle
          | u :: r => (newFlit s port .data false (some u) u.bytes).modPort port fun p => { p with queue := r })

/-- The Reeve job with a number, and its engine. -/
def findSerial (s : State) (n : Nat) : Option (Nat × ReeveJob) :=
  s.clusters.findSome? fun c => (c.2.reeve.find? fun j => decide (j.serial = n)).map fun j => (c.1, j)

/-- A body acknowledged (30 R396): the bytes of its job; with the last, the job ends DONE (log 43). -/
def bodyAcked (s : State) (u : Body) : State :=
  match u.job with
  | none => s
  | some (n, upTo) => match findSerial s n with
    | none => s
    | some (g, j) =>
      if !j.sent || j.ending.isSome then s
      else if u.last then portEnds s g j upTo none
      else putReeve s g { j with acked := upTo }

/-- The key derived after a rollover, in the slot left (29 R391). -/
def derivedKey (k : KeySlot) : KeySlot := newKey (Config.nextKey k.key)

/-- A flit acknowledged (29 R391, 30 R396). -/
def flitAcked (s : State) (n : Nat) (x : SentFlit) : State :=
  let s := match x.unit with
    | some u => bodyAcked s u
    | none => s
  if x.flit.kind = .marker ∧ !x.flit.resync then
    s.modPort n fun p => { (if rolloverHost p then p else p.setTx x.flit.slot (derivedKey (p.tx x.flit.slot))) with marker := false }
  else s

/-- An ACKSEQ reaches the sender (29 R387 R392): the flits up to it are acknowledged, in their order. -/
def ackThrough (s : State) (n : Nat) (ack : BitVec 16) : State :=
  let p := s.getPort n
  match p.sent with
  | [] => s
  | x :: _ =>
    let covered := (seqFrom x.flit.lseq.toNat ack.toNat + 1) % 65536
    let k := if covered ≤ p.sent.length then covered else 0
    if k = 0 then s
    else
      let s := s.modPort n fun p => { p with
        sent := p.sent.drop k, lastAck := s.time,
        resend := p.resend.filter fun f => (p.sent.drop k).any fun y => decide (y.flit.lseq = f.lseq) }
      (p.sent.take k).foldl (fun s y => flitAcked s n y) s

/-- A flit's tag verifies at a port (29 R387 R390): under the IV that the port forms for it, its reserved bits zero. -/
def verified (p : Port) (f : Flit) : Bool := f.auth && decide (f.iv = flitIv p false f) && f.reservedZero

/-- A flit authenticates at a port (29 R387 R391): its tag verifies, and it names the receiving slot (log 70). -/
def authentic (p : Port) (f : Flit) : Bool := verified p f && decide (f.slot = p.rxSlot)

/-- A flit that fails authentication (29 R392 R393): RETRY; the third of one LSEQ also starts resynchronisation, a further one
ends the link. -/
def authFailed (s : State) (n : Nat) (f : Flit) (counts : Bool) : State :=
  if !counts then controlFlit s n .retry
  else
    let p := s.getPort n
    let fails := tabGet 0 p.fails f.lseq.toNat + 1
    let s := s.modPort n fun p => { p with fails := tabPut p.fails f.lseq.toNat fails }
    if 3 < fails then linkLost s n 1
    else
      let s := controlFlit s n .retry
      if fails = 3 && !p.resync then sendResync s n else s

/-- A flit with this LSEQ has been accepted at a port (29 R392). -/
def seqAccepted (p : Port) (f : Flit) : Bool :=
  let behind := seqFrom f.lseq.toNat p.expect
  decide (1 ≤ behind) && decide (behind ≤ 32768)

/-- What a port does with a DATA or MARKER flit before its content (29 R392): `take` where it is the next in order. What it
has taken in is the device's energy (23 R336). -/
def inOrder (s : State) (n : Nat) (f : Flit) (take : State → State) : State :=
  let p := s.getPort n
  if 12 ≤ n ∨ p.lstate ≠ .up then s
  else
    let s := chargeOpen s
    let behind := seqFrom f.lseq.toNat p.expect
    if seqAccepted p f then controlFlit s n .idle
    else if !authentic p f then authFailed s n f true
    else if behind ≠ 0 then controlFlit s n .retry
    else take s

/-- An accepted flit: the LSEQ advances, its own failures are forgotten, its ACKSEQ counts (29 R392 R393). -/
def accepted (s : State) (n : Nat) (f : Flit) : State :=
  ackThrough (s.modPort n fun p => { p with
    expect := (p.expect + 1) % 65536, fails := tabErase p.fails f.lseq.toNat,
    resumed := p.resumed.filter fun x => decide (x ≠ f.lseq.toNat) }) n f.ackseq

/-- A dropped flit is counted (29 R389 R409, 31 R406). -/
def dropFlit (s : State) (n : Nat) : State := s.modPort n fun p => { p with drop := min (p.drop + 1) (2 ^ 32 - 1) }

/-- The state with a Lanyard ingress entry written. -/
def putLan (s : State) (d i : Nat) (e : Word) : State := { s with lanIngress := tabPut s.lanIngress (256 * d + i) e }

/-- A message delivered through a Lanyard ingress entry `e` (29 R389), whose SEQ advances where the entry is still in force; a
landing message is claimed at CORE scope (30 R397). -/
def lanDeliver (s : State) (d i : Nat) (e : Word) (land : Bool) (words : List Word) : State :=
  let m := { ingressMsg e i d 4094 (2 ^ 25 + 256 * d + i) words with acq := if land then some .core else none }
  let s := { s with flight := s.flight ++ [m] }
  if tabGet 0 s.lanIngress (256 * d + i) = e then putLan s d i (epAdvance e) else s

/-- Whole units delivered as messages, each unit's word 0 its header's place (05 R80, 29 R389); what is left of a unit. -/
def lanUnits (d i : Nat) : Nat → List Byte → State → List Byte × State
  | 0, bs, s => (bs, s)
  | n + 1, bs, s =>
    if bs.length < 64 then (bs, s)
    else lanUnits d i n (bs.drop 64)
      (lanDeliver s d i (tabGet 0 s.lanIngress (256 * d + i)) false (wordsOf 7 ((bs.take 64).drop 8)))

/-- LAND_FAILED (29 R409) (log 71). -/
def landFailed (s : State) (n i dropped reason d : Nat) : State :=
  notice s (kernelOf d) 4094 [15, BitVec.ofNat 64 n, BitVec.ofNat 64 i, BitVec.ofNat 64 dropped, BitVec.ofNat 64 reason, BitVec.ofNat 64 d]

/-- The ring that an ingress entry with LAND = 1 lands in (29 R386): RH of DCORE. -/
def landRing (s : State) (e : Word) : Option Ring := findRing s (epCore e) (bitsOf e 19 16)

/-- Why nothing of a LAND = 1 job can land now (29 R409), 0 if it can (log 72). -/
def landReason (s : State) (e : Word) : Nat :=
  if (s.getCore (epCore e)).dom ≠ some (epDom e) then 3
  else if (landRing s e).isNone then 1
  else 0

/-- A job's first unit at an entry (29 R389 R409): one that lands takes the free slot at TAIL. -/
def newLanding (s : State) (e : Word) : Landing :=
  let land := e.getLsbD 20 && epValid e
  { entry := e, ring := if land then some (epCore e, bitsOf e 19 16) else none, born := ((landRing s e).map fun r => r.born).getD 0,
    slot := ((landRing s e).map fun r => r.slotOf r.tail).getD 0, off := 0, dropped := 0,
    reason := if land then landReason s e else 0, part := [], lost := false, skip := 0 }

/-- Why the next bytes of a job cannot land (29 R409): the reason of its earlier ones, or the one that holds now. A ring that
has been defined anew since the job's first unit is not the one it lands in (log 72). -/
def Landing.why (l : Landing) (s : State) : Nat :=
  if l.reason = 1 ∨ l.reason = 3 then l.reason
  else if landReason s l.entry ≠ 0 then landReason s l.entry
  else if ((landRing s l.entry).map fun r => r.born) ≠ some l.born then 1
  else l.reason

/-- The ring that a job's bytes land in, while they land (29 R389 R409). -/
def Landing.target (l : Landing) (s : State) : Option Ring := if l.reason = 1 ∨ l.reason = 3 then none else landRing s l.entry

/-- A running engine job of a core fills a ring (19 R286 R291). -/
def engineFills (s : State) (c h : Nat) : Bool :=
  let g := s.getCluster (clusterOf c)
  (g.reeve.any fun j => decide (j.core = c) && j.running && decide (ctlDk j.ctl = 3) && decide (ctlRh j.ctl = h))
    || g.splice.any fun j => decide (j.core = c) && j.running && match j.op with
      | .mrdacc k _ _ => decide (k = h)
      | _ => false

/-- A landing must wait (29 R389): no slot of its ring is free, or an engine job of the core or a landing of another port fills
it. -/
def landWaits (s : State) (e : Word) : Bool :=
  match landRing s e with
  | none => false
  | some r => decide (r.free = 0) || engineFills s (epCore e) (bitsOf e 19 16) || portFills s (epCore e) (bitsOf e 19 16)

/-- Bytes of a LAND = 1 job land (29 R389 R409): those the slot has no room for are dropped (log 72). -/
def landBytes (s : State) (n : Nat) (l : Landing) (bs : List Byte) : Landing × State :=
  let l := { l with reason := l.why s }
  match l.target s with
  | none => ({ l with dropped := l.dropped + bs.length }, dropFlit s n)
  | some r =>
    let fit := bs.take (r.slotBytes - l.off)
    let spare := bs.length - fit.length
    let s := s.modCore (epCore l.entry) fun x => { x with spad := memPutBytes x.spad (slotBase r l.slot + l.off) fit }
    ({ l with off := l.off + fit.length, dropped := l.dropped + spare, reason := if spare = 0 then l.reason else 2 },
     if spare = 0 then s else dropFlit s n)

/-- The end of a LAND = 1 job (29 R389 R409): TAIL, the slot's metadata word, the landing message, LAND_FAILED. -/
def landEnd (s : State) (n d i : Nat) (l : Landing) : State :=
  let s := if l.reason = 0 then s else landFailed s n i l.dropped l.reason (epDom l.entry)
  match l.target s with
  | none => s
  | some r =>
    let s := putRing s (epCore l.entry) (bitsOf l.entry 19 16) { r with tail := r.tail + 1, meta_ := r.meta_.set l.slot 0 }
    lanDeliver s d i l.entry true [BitVec.ofNat 64 l.off, BitVec.ofNat 64 (slotBase r l.slot)]

/-- A job of which `n` more bytes are dropped without landing: of a unit that they cut off, the rest is passed over too
(log 72). -/
def Landing.missed (l : Landing) (n : Nat) : Landing :=
  let at_ := (if l.skip = 0 then l.part.length else 64 - l.skip) + n
  { l with lost := true, part := [], skip := (64 - at_ % 64) % 64 }

/-- A flit that is dropped and counted, its job going on without it (29 R389 R409) (log 72). -/
def missFlit (s : State) (n : Nat) (f : Flit) (l : Landing) : State :=
  (dropFlit s n).modPort n fun p => { p with landing := if f.last then none else some (l.missed (f.body.take f.bytes).length) }

/-- The body of an accepted DATA flit (29 R388 R389 R409), of the job under way or of a new one. What is left of a job that
lands and that has lost a flit lands nowhere (log 72). -/
def landFlit (s : State) (n : Nat) (f : Flit) (e : Word) : State :=
  let p := s.getPort n
  let i := f.ing.toNat
  let l := p.landing.getD (newLanding s e)
  let bs := f.body.take f.bytes
  if l.lost && (l.ring.isSome || e.getLsbD 20) then missFlit s n f l
  else
    let (l, s) : Landing × State :=
      if l.ring.isSome then landBytes s n l bs
      else
        let (rest, s) := lanUnits p.bound i 5 (l.part ++ bs.drop l.skip) s
        ({ l with part := rest, skip := l.skip - bs.length }, s)
    if f.last then
      let s := s.modPort n fun p => { p with landing := none }
      if l.ring.isSome then landEnd s n p.bound i l else s
    else s.modPort n fun p => { p with landing := some l }

/-- A flit of a job that lands is not yet accepted: its job must wait for a ring slot (29 R389), or the ring lies on a die
whose arithmetic clocks are stopped (31 R405). -/
def landHolds (s : State) (p : Port) (e : Word) : Bool :=
  match p.landing with
  | some l => l.ring.isSome && (s.getDie (dieOf (epCore l.entry))).stopped
  | none => e.getLsbD 20 && ((s.getDie (dieOf (epCore e))).stopped || (decide (landReason s e = 0) && landWaits s e))

/-- LANYARD_DATA_FLIT (29 R389 R392 R409). -/
def execLanyardDataFlit (port : Nat) (f : Flit) (s : State) : Host.Outcome State Fault Refusal :=
  .next (if f.kind ≠ .data then s
    else inOrder s port f fun t =>
      let p := t.getPort port
      let e := tabGet 0 t.lanIngress (256 * p.bound + f.ing.toNat)
      if !epValid e || decide (epPkg e ≠ port + 1) then missFlit (accepted t port f) port f (p.landing.getD (newLanding t 0))
      else if landHolds t p e then s
      else landFlit (accepted t port f) port f e)

/-- LANYARD_MARKER (29 R391 R392): the receiver goes over to the other slot, and in hardware mode derives the key of the
slot left. -/
def execLanyardMarker (port : Nat) (f : Flit) (s : State) : Host.Outcome State Fault Refusal :=
  .next (if f.kind ≠ .marker ∨ f.resync then s
    else inOrder s port f fun s =>
      (accepted s port f).modPort port fun p =>
        { (if rolloverHost p then p else p.setRx p.rxSlot (derivedKey (p.rx p.rxSlot))) with rxSlot := !p.rxSlot })

/-- A resynchronising MARKER agrees with the port (29 R393): its body's slot and counter are those it was sent under, and the
LSEQ it expected is one the port has sent or will send next; flits accepted since are acknowledged (log 70). -/
def resyncAgrees (p : Port) (f : Flit) : Bool :=
  let ws := wordsOf 3 f.body
  let want := (ws.getD 2 0).toNat
  decide (ws.getD 0 0 = BitVec.ofNat 64 (flag f.slot)) && decide (ws.getD 1 0 = BitVec.ofNat 64 f.ctr.toNat)
    && decide (seqFrom want p.lseq ≤ 32768)

/-- Sending resumes from the LSEQ the peer's MARKER names (29 R393), once this end has sent its own. -/
def resumeFrom (s : State) (n : Nat) (f : Flit) : State :=
  let s := if (s.getPort n).resync then s else sendResync s n
  let want := ((wordsOf 3 f.body).getD 2 0).toNat
  let s := ackThrough s n (BitVec.ofNat 16 (seqBefore want))
  s.modPort n fun p => { p with
    resync := false, resumed := f.lseq.toNat :: p.resumed, resend := p.sent.map (fun x => x.flit), resendFor := seqBefore want,
    byRetry := false, lastAck := s.time }

/-- A resynchronising MARKER authenticates (29 R387 R391 R393): one that is the next in order under the receiving slot. One
ahead of the order names its sender's current slot, and that is the other one where a MARKER that rolls over stands between
(log 70). -/
def resyncAuthentic (p : Port) (f : Flit) : Bool :=
  verified p f && (decide (f.slot = p.rxSlot) || decide (f.lseq.toNat ≠ p.expect))

/-- LANYARD_RESYNC_MARKER (29 R393): the peer's resynchronising MARKER. One that sending has resumed for already, resent later,
takes its place in the order as a flit without content, whatever resynchronisation has followed it. -/
def execLanyardResyncMarker (port : Nat) (f : Flit) (s : State) : Host.Outcome State Fault Refusal :=
  let p := s.getPort port
  .next (if f.kind ≠ .marker ∨ !f.resync ∨ 12 ≤ port ∨ p.lstate ≠ .up then s
    else if seqAccepted p f || p.resumed.contains f.lseq.toNat then inOrder s port f fun s => accepted s port f
    else if !resyncAuthentic p f || !resyncAgrees p f then linkLost (chargeOpen s) port 1
    else
      let s := resumeFrom (chargeOpen s) port f
      if f.lseq.toNat = p.expect then accepted s port f else s)

/-- A control flit of the peer (29 R392): one that fails authentication is answered with RETRY. -/
def controlIn (s : State) (port : Nat) (f : Flit) (take : State → State) : State :=
  let p := s.getPort port
  if 12 ≤ port ∨ p.lstate ≠ .up then s
  else if !authentic p f then authFailed (chargeOpen s) port f false
  else take (ackThrough (chargeOpen s) port f.ackseq)

/-- LANYARD_RETRY (29 R392, 30 R398): the flits after ACKSEQ are resent, unless they are being resent for an earlier RETRY
with that ACKSEQ. -/
def execLanyardRetry (port : Nat) (f : Flit) (s : State) : Host.Outcome State Fault Refusal :=
  .next (if f.kind ≠ .retry then s
    else controlIn s port f fun s => s.modPort port fun p =>
      if !p.resend.isEmpty && p.byRetry && decide (p.resendFor = f.ackseq.toNat) then p
      else { p with resend := p.sent.map (fun x => x.flit), resendFor := f.ackseq.toNat, byRetry := true })

/-- LANYARD_IDLE (29 R392, 30 R396). -/
def execLanyardIdle (port : Nat) (f : Flit) (s : State) : Host.Outcome State Fault Refusal :=
  .next (if f.kind ≠ .idle then s else controlIn s port f fun s => s)

/-- LANYARD_ACK_TIMEOUT (29 R392): no acknowledgement for 10 µs. -/
def execLanyardAckTimeout (port : Nat) (s : State) : Host.Outcome State Fault Refusal :=
  let p := s.getPort port
  .next (if p.lstate ≠ .up ∨ p.sent.isEmpty ∨ s.time < p.lastAck + 10000 then s
    else s.modPort port fun p => { p with
      resend := p.sent.map (fun x => x.flit), lastAck := s.time, byRetry := false,
      resendFor := seqBefore ((p.sent.head?.map fun x => x.flit.lseq.toNat).getD 0) })

/-- LINK_TRAINED (29 R385 R390, 31 R406): the port is bound to its peer and its PDOM takes effect; keys are agreed for both
slots of both directions. The first LSEQ of each direction is open (log 7) (log 71). Key rollover goes by the mode that its domain has
now till it is trained again (01 R30) (log 67). -/
def execLinkTrained (port : Nat) (linkId : BitVec 32) (lower : Bool) (s : State) : Host.Outcome State Fault Refusal :=
  .next (if 12 ≤ port ∨ (s.getPort port).lstate = .up then s
    else
      let (a, s) := s.draw
      let (b, s) := s.draw
      let key (slot out : Bool) : KeySlot := newKey (Config.trainedKey port a slot out)
      let drop := (s.getPort port).drop
      let pdom := (s.getPort port).pdom
      let next := (s.getPort port).keynext
      let outs := (s.getPort port).out
      s.modPort port fun _ => { Port.blank with
        lstate := .up, pdom := pdom, bound := pdom, assisted := (s.getDom pdom).modes.getLsbD 4, drop := drop, keynext := next, linkId := linkId, lower := lower,
        tx0 := key false true, tx1 := key true true, rx0 := key false false, rx1 := key true false,
        lseq := (Config.openValue a).toNat % 65536, expect := (Config.openValue b).toNat % 65536, lastAck := s.time, out := outs })

/-- KAGREE (29 R391, 31 R406): the peer has done the same, and KEYNEXT is installed in the idle slot of both directions. -/
def execKagree (port : Nat) (s : State) : Host.Outcome State Fault Refusal :=
  .next (s.modPort port fun p =>
    if p.lstate = .up ∧ p.kagree then
      { (p.setTx (!p.txSlot) (newKey p.keynext)).setRx (!p.rxSlot) (newKey p.keynext) with kagree := false, fresh := true }
    else p)

/-- Bits of a register cleared by writing 1 (00 R5). -/
def clearOnes (old : Nat) (v : Word) : Nat := (BitVec.ofNat 64 old &&& ~~~v).toNat

/-- A write of a host-identity word (31 R406). -/
def writeIdent (s : State) (h k : Nat) (v : Word) : State :=
  let e := tabGet { ctl := 0, base := 0, limit := 0 } s.hostTab h
  let frame := v &&& at_ (2 ^ 40 - 1) 12
  let new : HostIdent := match k with
    | 0 => { e with ctl := v &&& (at_ 1 31 ||| at_ 0x3FF 16 ||| at_ 0xFFFF 0) }
    | 1 => { e with base := frame }
    | 2 => { e with limit := frame }
    | _ => e
  { s with hostTab := tabPut s.hostTab h new }

/-- A write of a Lanyard port's registers (31 R406). -/
def writePort (s : State) (n off : Nat) (v : Word) : State :=
  s.modPort n fun p =>
    if off = 0 then { p with pdom := bitsOf v 7 0 }
    else if off = 8 then { p with drop := clearOnes p.drop v % 2 ^ 32 }
    else if 0x20 ≤ off ∧ off < 0x40 then
      let sh := 64 * ((off - 0x20) / 8)
      { p with keynext := (p.keynext &&& ~~~((BitVec.allOnes 64).setWidth 256 <<< sh)) ||| (v.setWidth 256 <<< sh) }
    else if off = 0x40 then { p with kagree := p.kagree || v.getLsbD 0 }
    else p

/-- A write of BAR2 of physical function 0 (31 R406) (log 73). -/
def writeBar2 (s : State) (off : Nat) (v : Word) : State :=
  if off = 8 then { s with plimit := min (bitsOf v 15 0) 4800 }
  else if 0x20 ≤ off ∧ off < 0x20 + 80 then
    let t := bitsOf v 15 8
    if 85 ≤ t ∧ t ≤ 110 then s.modDie ((off - 0x20) / 8) fun d => { d with tthr := t } else s
  else if 0x800 ≤ off ∧ off < 0x1000 then writeIdent s ((off - 0x800) / 32) ((off - 0x800) % 32 / 8) v
  else if 0x1000 ≤ off ∧ off < 0x1000 + 8 * 164 then s.modCluster ((off - 0x1000) / 8) fun m => { m with hscale := bitsOf v 15 0 }
  else if 0x3000 ≤ off ∧ off < 0x3000 + 256 * 12 then writePort s ((off - 0x3000) / 256) ((off - 0x3000) % 256) v
  else s

/-- A write of BAR0 of a function (29 R381 R382): one to the ingress window that is not 64 bytes is dropped and counted (log 73). -/
def writeBar0 (s : State) (fn off : Nat) (v : Word) : State :=
  if 194 ≤ fn then s
  else if off < 0x1000 then ingressError s fn
  else s.modFn fn fun f =>
    if off = 0x1000 then { f with egbase := v &&& at_ (2 ^ 52 - 1) 12, eglog := bitsOf v 4 0 }
    else if off = 0x1008 then { f with eghead := bitsOf v 31 0 }
    else if off = 0x1018 then { f with vec := bitsOf v 5 0 }
    else if off = 0x1020 then { f with ingerr := clearOnes f.ingerr v % 2 ^ 32 }
    else f

/-- A host-identity word as it is read (31 R406). -/
def readIdent (s : State) (h k : Nat) : Word :=
  let e := tabGet { ctl := 0, base := 0, limit := 0 } s.hostTab h
  match k with
  | 0 => e.ctl
  | 1 => e.base
  | 2 => e.limit
  | _ => 0

/-- A Lanyard port's registers as they are read (31 R406): KEYNEXT and KAGREE read zero, DROP its value (00 R6). -/
def readPort (s : State) (n off : Nat) : Word :=
  let p := s.getPort n
  if off = 0 then
    at_ (match p.lstate with | .down => 0 | .training => 1 | .up => 2) 8 ||| at_ p.pdom 0
  else if off = 8 then at_ p.drop 0
  else 0

/-- What a bus read of BAR2 returns (31 R406); reserved fields read zero (00 R7). -/
def readBar2 (s : State) (off : Nat) : Word :=
  if off = 0 then at_ s.diemask.toNat 44 ||| at_ s.err 32 ||| at_ s.stage 0
  else if off = 8 then at_ s.plimit 0
  else if off = 0x10 then at_ s.pwr 0
  else if 0x20 ≤ off ∧ off < 0x20 + 80 then
    let d := s.getDie ((off - 0x20) / 8)
    at_ d.droop 32 ||| at_ d.step 16 ||| at_ d.tthr 8 ||| at_ d.temp 0
  else if 0x800 ≤ off ∧ off < 0x1000 then readIdent s ((off - 0x800) / 32) ((off - 0x800) % 32 / 8)
  else if 0x1000 ≤ off ∧ off < 0x1000 + 8 * 164 then at_ (s.getCluster ((off - 0x1000) / 8)).hscale 0
  else if 0x2000 ≤ off ∧ off < 0x2000 + 16 * 195 then
    let x := s.getDom ((off - 0x2000) / 16)
    if off % 16 = 0 then BitVec.ofNat 64 x.used else at_ (flag x.held) 0
  else if 0x3000 ≤ off ∧ off < 0x3000 + 256 * 12 then readPort s ((off - 0x3000) / 256) ((off - 0x3000) % 256)
  else 0

/-- What a bus read of the control page of a function's BAR0 returns (29 R381); INGERR reads its value (00 R6). -/
def readBar0 (s : State) (fn off : Nat) : Word :=
  let f := s.getFn fn
  if off = 0x1000 then f.egbase ||| at_ f.eglog 0
  else if off = 0x1008 then at_ f.eghead 0
  else if off = 0x1010 then at_ f.egtail 0
  else if off = 0x1018 then at_ f.vec 0
  else if off = 0x1020 then at_ f.ingerr 0
  else 0

/-- A host's write of one 64-bit register (31 R406, 29 R381), at an offset that is a multiple of 8; BAR2 through physical
function 1 is read-only (log 73). -/
def registerWrite (s : State) (sp : RegSpace) (off : Nat) (v : Word) : State :=
  match sp with
  | .bar2 pf => if pf || decide (off % 8 ≠ 0) then s else writeBar2 s off v
  | .bar0 fn => if off % 8 ≠ 0 ∧ 0x1000 ≤ off then s else writeBar0 s fn off v

/-- A host's write takes effect. -/
def PostedWrite.perform (w : PostedWrite) (s : State) : State :=
  match w with
  | .ingress fn off size data => ingressWrite s fn off size data
  | .register sp off v => registerWrite s sp off v

/-- A host's write stalls the posted queue (29 R382): one that would deliver a message to a function that has 16 undelivered
(log 74). -/
def PostedWrite.stalls (w : PostedWrite) (s : State) : Bool :=
  match w with
  | .ingress fn off size _ => ingressDelivers s fn off size && decide (16 ≤ undelivered s fn)
  | .register _ _ _ => false

/-- A host's write over a host link that serves it (29 R382, 31 R400): behind every write that the posted queue holds, and
held there where it stalls (log 74). -/
def postWrite (s : State) (w : PostedWrite) : State :=
  if !linkServes s then s
  else if s.posted.isEmpty && !w.stalls s then w.perform s
  else { s with posted := s.posted ++ [w] }

/-- The writes of a posted queue take effect in their order, up to one that stalls (29 R382). -/
def runPosted : List PostedWrite → State → State
  | [], s => { s with posted := [] }
  | w :: r, s => if w.stalls s then { s with posted := w :: r } else runPosted r (w.perform s)

/-- The host link's posted queue moves on as far as it can (29 R382). -/
def drainPosted (s : State) : State := if s.posted.isEmpty then s else runPosted s.posted s

/-- HOST_INGRESS_WRITE (29 R382). -/
def execHostIngressWrite (fn off size : Nat) (data : BitVec 512) (s : State) : Host.Outcome State Fault Refusal :=
  .next (if 194 ≤ fn ∨ 0x1000 ≤ off then s else postWrite s (.ingress fn off size data))

/-- REGISTER_WRITE (31 R406, 29 R381): a posted write as those to the ingress windows are, in one order with them (R382). -/
def execRegisterWrite (sp : RegSpace) (off : Nat) (v : Word) (s : State) : Host.Outcome State Fault Refusal :=
  .next (postWrite s (.register sp off v))

end Sys2Proof.Machine
end

