-- ==== Sys2Proof/Machine/Meter.lean ====
section
/-!
DEFINITION. Meter and profiling reads (19 R299, 23 R332 R341, 27 R376).
-/
namespace Sys2Proof.Machine

/-- MTRD (19 R299): every charge the meter of the core has made reaches the store first (23 R341). -/
def execMtrd (d : SReg) (s : State) : Host.Outcome State Fault Refusal :=
  issue (.mtrd d) s fun s =>
    let s := flushMeter s (clusterOf s.core)
    plain (s.setS d (s.getDom s.act.dom).qbal)

/-- The scale that charges of the activation's domain are under (23 R332). -/
def scaleHere (s : State) : Nat :=
  let m := s.getCluster (clusterOf s.core)
  if s.act.modes.getLsbD 5 then m.hscale else m.cscale

/-- MTCLS (19 R299). -/
def execMtcls (d : SReg) (c : BitVec 4) (s : State) : Host.Outcome State Fault Refusal :=
  issue (.mtcls d c) s fun s => plain (s.setS d (at_ (costOf s c.toNat) 0 ||| at_ (scaleHere s) 16))

/-- PDLY (19 R299): indices 49 to 63 read 0. -/
def execPdly (d : SReg) (i : BitVec 6) (s : State) : Host.Outcome State Fault Refusal :=
  issue (.pdly d i) s fun s => plain (s.setS d (if i.toNat < 49 then BitVec.ofNat 64 (tabGet 0 s.here.da i.toNat) else 0))

end Sys2Proof.Machine
end

