-- ==== Sys2Proof/Machine/Pred.lean ====
section
/-!
DEFINITION. Predicates (15 R244).
-/
namespace Sys2Proof.Machine

/-- PAND (15 R244). -/
def execPand (pd pa pb : PNum) (s : State) : Host.Outcome State Fault Refusal :=
  issue (.pand pd pa pb) s fun s => plain (s.setP pd (s.getP pa &&& s.getP pb))
/-- POR (15 R244). -/
def execPor (pd pa pb : PNum) (s : State) : Host.Outcome State Fault Refusal :=
  issue (.por pd pa pb) s fun s => plain (s.setP pd (s.getP pa ||| s.getP pb))
/-- PXOR (15 R244). -/
def execPxor (pd pa pb : PNum) (s : State) : Host.Outcome State Fault Refusal :=
  issue (.pxor pd pa pb) s fun s => plain (s.setP pd (s.getP pa ^^^ s.getP pb))
/-- PNOT (15 R244). -/
def execPnot (pd pa : PNum) (s : State) : Host.Outcome State Fault Refusal :=
  issue (.pnot pd pa) s fun s => plain (s.setP pd (~~~s.getP pa))
/-- PSETI (15 R244). -/
def execPseti (pd : PNum) (n : BitVec 6) (s : State) : Host.Outcome State Fault Refusal :=
  issue (.pseti pd n) s fun s => plain (s.setP pd (BitVec.ofNat 32 (2 ^ n.toNat - 1)))
/-- PFROM (15 R244). -/
def execPfrom (pd : PNum) (a : SReg) (s : State) : Host.Outcome State Fault Refusal :=
  issue (.pfrom pd a) s fun s => plain (s.setP pd ((s.getS a).setWidth 32))
/-- PTO (15 R244). -/
def execPto (d : SReg) (pa : PNum) (s : State) : Host.Outcome State Fault Refusal :=
  issue (.pto d pa) s fun s => plain (s.setS d ((s.getP pa).setWidth 64))

/-- The one bits of a predicate. -/
def predOnes (p : BitVec 32) : List Nat := (upto 32).filter fun i => p.getLsbD i

/-- PCNT (15 R244). -/
def execPcnt (d : SReg) (pa : PNum) (s : State) : Host.Outcome State Fault Refusal :=
  issue (.pcnt d pa) s fun s => plain (s.setS d (BitVec.ofNat 64 (predOnes (s.getP pa)).length))
/-- PFIRST (15 R244). -/
def execPfirst (d : SReg) (pa : PNum) (s : State) : Host.Outcome State Fault Refusal :=
  issue (.pfirst d pa) s fun s => plain (s.setS d (BitVec.ofNat 64 ((predOnes (s.getP pa)).headD 32)))

end Sys2Proof.Machine
end

