-- ==== Sys2Proof/Machine/Requests.lean ====
section
/-!
DEFINITION. Requests that come back later: responses to a core's requests and prefetches (05 R81, 13 R214, 27 R376), walks for
prefetches (05 R100), and outside hosts' CXL.mem requests and holdings (05 R109 R110, 07 R133).
-/
namespace Sys2Proof.Machine

/-- A core without its outstanding request `i`. -/
def dropPending (s : State) (c i : Nat) : State := s.modCore c fun x => { x with pending := x.pending.eraseIdx i }

/-- A response credits its sum of hop and queue cycles to an accumulator while OPEN is 1 (27 R376). -/
def creditDelay (s : State) (c : Nat) (da : Option Nat) (cycles : Nat) : State :=
  match da with
  | some i => s.modCore c fun x =>
    if x.open_ && x.evict.isNone then { x with da := tabPut x.da i (min (tabGet 0 x.da i + min cycles 4095) (2 ^ 48 - 1)) } else x
  | none => s

/-- A prefetch's line needs no translation: the L1 holds it whole, or its home slice holds it under the request's own tag
(05 R81 R84). -/
def prefetchHits (s : State) (c d : Nat) (k : PrefKind) (va : Word) : Bool :=
  (decide (k ≠ .l2) && decide ((findL1 s c d (vlineOf va)).map (fun l => l.valid) = some (BitVec.allOnes 128)))
    || (findL2 s d (vlineOf va)).isSome

/-- A prefetch's line requested (13 R214): into the L1, which asks for nothing where it holds the whole line, or into its
home slice only; the accumulator its response credits. -/
def prefetchLine (s : State) (c d : Nat) (kernel : Bool) (k : PrefKind) (va : Word) : Acc (Option Nat × State) :=
  match k with
  | .l2 => (homeLine s c d (clusterOf c) kernel .load va false).map fun r => (r.1.da, r.2)
  | _ =>
    if ((findL1 s c d (vlineOf va)).map fun l => l.valid) = some (BitVec.allOnes 128) then .ok (none, s)
    else match fillL1 s c d kernel (if k = .write then .store else .load) va with
    | .error e => .error e
    | .ok (_, s) =>
      let p := (s.getCore c).pending
      .ok ((p.getLast?.bind fun q => q.da), s.modCore c fun x => { x with pending := p.dropLast })

/-- A state whose meter counts: a charge of `n` parts of a class to a domain shows as one of `n` units. -/
def countingMeter (s : State) (meter : Nat) : State :=
  { s.setCluster meter Cluster.blank with costs := List.replicate 16 1, charges := [] }

/-- The table reads that the walk of a prefetch makes at the controllers (23 R334), each with its class. -/
def walkReads (s : State) (d meter : Nat) (kernel : Bool) (need : Need) (va : Word) : List Term :=
  match translate (countingMeter s meter) d meter kernel need va false with
  | .ok (_, t) => t.charges.map fun x => (x.eu, x.cls)
  | .error _ => []

/-- MEMORY_RESPONSE (05 R81, 27 R376): the response to request `i` of a core, with the cycles it carries. A prefetch's walk is
charged when its line comes; one that a check drops charges nothing (23 R336); one whose line an outside host holds waits
till the host has given it up (05 R110, 13 R214). -/
def execMemoryResponse (core i cycles : Nat) (s : State) : Host.Outcome State Fault Refusal :=
  .next (match (s.getCore core).pending[i]? with
    | none => s
    | some q => match q.pref with
      | none => dropPending (creditDelay s core q.da cycles) core i
      | some (d, va, kernel, k) =>
        match prefetchLine (dropPending s core i) core d kernel k va with
        | .ok (da, t) => creditDelay (q.reads.foldl (fun t x => charge t d (clusterOf core) [x]) t) core da cycles
        | .error (.wait pl) => askBack s pl
        | .error (.fault _ _ t) => dropPending (uncharged s (keepTraffic s t)) core i)

/-- PAGE_WALK (05 R100, 13 R214): the translation of prefetch `i` of a core, where its line needs one; a check that fails
drops the request, which then charges nothing (23 R336). -/
def execPageWalk (core i : Nat) (s : State) : Host.Outcome State Fault Refusal :=
  .next (match (s.getCore core).pending[i]? with
    | none => s
    | some q => match q.pref with
      | none => s
      | some (d, va, kernel, k) =>
        if q.walked then s
        else if prefetchHits s core d k va then s.modCore core fun x => { x with pending := x.pending.set i { q with walked := true } }
        else
          let need : Need := if k = .write then .store else .load
          match translate s d (clusterOf core) kernel need va false with
          | .ok (_, t) => (uncharged s t).modCore core fun x => { x with pending := x.pending.set i { q with
              walked := true, reads := q.reads ++ walkReads s d (clusterOf core) kernel need va } }
          | .error (.wait pl) => askBack s pl
          | .error (.fault _ _ t) => dropPending (uncharged s (keepTraffic s t)) core i)

/-- A host-identity entry permits a request (05 R109, 31 R406). -/
def HostIdent.permits (e : HostIdent) (host frame : Nat) (write : Bool) : Bool :=
  e.ctl.getLsbD 31 && decide (bitsOf e.ctl 15 0 = host) && e.ctl.getLsbD (if write then 25 else 24)
    && inDomains (bitsOf e.ctl 23 16) && decide (bitsOf e.base 51 12 ≤ frame) && decide (frame ≤ bitsOf e.limit 51 12)

/-- A frame is OWNED by or lent to a domain (05 R109). -/
def frameServes (s : State) (f d : Nat) : Bool :=
  let e := getFrame s f
  (decide (e.state = .owned) && decide (e.owner = d))
    || ((decide (e.state = .lent) || decide (e.state = .recalling)) && decide (e.peer = d) && (frameDenies e d s.time).isNone)

/-- The domain for which a host's request is served, if one permits it (05 R109). -/
def hostServed (s : State) (host pa : Nat) (write : Bool) : Option Nat :=
  if !isDram pa then none
  else s.hostTab.findSome? fun x =>
    let d := bitsOf x.2.ctl 23 16
    if x.2.permits host (pa / 4096) write && frameServes s (pa / 4096) d then some d else none

/-- The answer of an outside host's request (log 63). -/
def hostAnswer (s : State) (host pa : Nat) (r : CxlAnswer) : State := { s with cxlOut := s.cxlOut ++ [(host, pa, r)] }

/-- A physical line at its home slice or in memory, for an outside host (07 R133), its bytes charged to the domain by meter
160 (23 R334). -/
def hostRead (s : State) (d pa : Nat) : LineBits × State :=
  match tabFind s.l2 (pa / 128) with
  | some l => (l2Data s (pa / 128) l, s)
  | none => (readSealed s (getFrame s (pa / 4096)).keyid (pa / 128), chargeDram s d 160 pa 1)

/-- The agent that detects an outside host's scope miss, the hub-die port (07 R129). -/
def hubPort : Nat := 2000

/-- The stamps that an outside host's read of 64 bytes returns from the home slice are checked (07 R129 R131): only SYSTEM
covers it, and its source-core value is taken as 4095 (log 34). The line is named by its tag in L2, else by its physical
address and the domain served (log 98). -/
def hostStamps (s : State) (d pa : Nat) : State :=
  let pl := pa / 128
  let (e, vl) := canonOf s pl d (bitsOf (BitVec.ofNat 64 pa) 56 7)
  (tabGet [] s.stamps pl).foldl (fun s x =>
    if decide (x.1 / 64 = pa % 128 / 64) && decide (x.2.scope ≠ .system) then scopeMiss s hubPort 4095 4 x.2 pl e vl else s) s

/-- CXL_MEM_REQUEST (05 R109 R110, 07 R133): a request that no entry permits, or for a poisoned-lost line, has no effect; a
line another host holds is asked back first; a host that takes a line finds no copy of it left in the device (log 63). What
a read returns is checked for stamps as the home slice then holds them. -/
def execCxlMemRequest (host pa : Nat) (op : CxlOp) (s : State) : Host.Outcome State Fault Refusal :=
  let pl := pa / 128
  let half (l : LineBits) : BitVec 512 := (l >>> (8 * (pa % 128))).setWidth 512
  let write := match op with
    | .write _ => true
    | _ => false
  .next (match (if linkServes s then hostServed s host pa write else none) with
    | none => hostAnswer s host pa .unsupported
    | some d =>
      if (tabFind s.lost pl).isSome then hostAnswer s host pa .poison
      else if ((tabFind s.ext pl).map fun h => decide (h.host ≠ host)).getD false then askBack s pl
      else match op with
        | .read =>
          let (l, s) := hostRead (hostStamps s d pa) d pa
          hostAnswer s host pa (.data (half l))
        | .readShared | .readOwn =>
          let own := decide (op = .readOwn)
          let s := dropL2 (hostStamps (dropCopies s pl) d pa) pl
          let (l, s) := hostRead s d pa
          let m := own || ((tabFind s.ext pl).map fun h => h.modified).getD false
          hostAnswer { s with ext := tabPut s.ext pl { host := host, modified := m, since := none, dom := d } } host pa
            (.data (half l))
        | .write w =>
          hostAnswer (homeStore s d 160 (getFrame s (pa / 4096)).keyid pl ((w.setWidth 1024) <<< (8 * (pa % 128))) (byteMask (pa % 128) 64)
            fun _ => none) host pa .written)

/-- A host is treated as crashed (05 R110): the lines it held modified are poisoned-lost, and the writes that waited for one
are dropped; those it held clean are released (log 63). -/
def hostCrash (s : State) (host : Nat) : State :=
  s.ext.foldl (fun s x =>
    if x.2.host ≠ host then s
    else
      let s := { s with ext := tabErase s.ext x.1 }
      if x.2.modified then
        { dropL2 s x.1 with lost := tabPut s.lost x.1 [], heldWrites := s.heldWrites.filter fun w => decide (w.pa / 128 ≠ x.1) }
      else landHeld s x.1) s

/-- The host gives a line up (05 R110): the bytes of a modified line are written back and kept, charged to the domain the
host was served for (23 R334); the writes that waited for the line follow. -/
def giveUp (s : State) (line : Nat) (h : ExtHold) (data : Option LineBits) : State :=
  let s := { s with ext := tabErase s.ext line }
  landHeld (match (if h.modified then data else none) with
    | some l => homeStore s h.dom 160 (getFrame s (line / 32)).keyid line l (BitVec.allOnes 128) fun _ => none
    | none => s) line

/-- BACK_INVALIDATE_RESPONSE (05 R110): the answer to a back-invalidation; one that comes after 1 ms is that of a host which
has failed to answer, and is treated as crashed. -/
def execBackInvalidateResponse (line : Nat) (data : Option LineBits) (s : State) : Host.Outcome State Fault Refusal :=
  .next (match tabFind s.ext line with
    | none => s
    | some h => match h.since with
      | none => s
      | some t => if t + 1000000 < s.time then hostCrash s h.host else giveUp s line h data)

/-- BACK_INVALIDATE_TIMEOUT (05 R110): no answer within 1 ms. -/
def execBackInvalidateTimeout (line : Nat) (s : State) : Host.Outcome State Fault Refusal :=
  .next (match tabFind s.ext line with
    | none => s
    | some h => match h.since with
      | none => s
      | some t => if t + 1000000 ≤ s.time then hostCrash s h.host else s)

/-- HOST_LINK_DOWN (05 R110): every outside host that holds a line is treated as crashed. -/
def execHostLinkDown (s : State) : Host.Outcome State Fault Refusal :=
  .next (s.ext.foldl (fun s x => hostCrash s x.2.host) s)

end Sys2Proof.Machine
end

