-- ==== Sys2Proof/Machine/VecArith.lean ====
section
/-!
DEFINITION. Vector arithmetic, logic, shifts, fused operations, special functions, compares, select (15 R232-R236).
-/
namespace Sys2Proof.Machine

/-- A lane operation on integers whose result wraps, or on floats. -/
def laneOp (fi : Int → Int → Int) (ff : Fmt → RMode → Fp → Fp → Nat × Nat) (t : Tag) (md : RMode) (x y : Nat) : Nat × Nat :=
  if tagInt t then (wrapTo (tagWidth t) (fi (laneInt t x) (laneInt t y)), 0)
  else ff (tagFmt t) md (unpackF (tagFmt t) x) (unpackF (tagFmt t) y)

/-- a − b rounded once. -/
def fpSub (f : Fmt) (md : RMode) (x y : Fp) : Nat × Nat := fpAdd f md x (fpNeg y)

/-- VADD (15 R232). -/
def execVadd (p : PNum) (vd va vb : VNum) (s : State) : Host.Outcome State Fault Refusal :=
  vecBinary (.vadd p vd va vb) s p vd va vb intFlt (laneOp (fun a b => a + b) fpAdd)
/-- VSUB (15 R232). -/
def execVsub (p : PNum) (vd va vb : VNum) (s : State) : Host.Outcome State Fault Refusal :=
  vecBinary (.vsub p vd va vb) s p vd va vb intFlt (laneOp (fun a b => a - b) fpSub)
/-- VMUL (15 R232). -/
def execVmul (p : PNum) (vd va vb : VNum) (s : State) : Host.Outcome State Fault Refusal :=
  vecBinary (.vmul p vd va vb) s p vd va vb intFlt (laneOp (fun a b => a * b) fpMul)
/-- VMULH (15 R232). -/
def execVmulh (p : PNum) (vd va vb : VNum) (s : State) : Host.Outcome State Fault Refusal :=
  vecBinary (.vmulh p vd va vb) s p vd va vb tagInt fun t _ x y =>
    (wrapTo (tagWidth t) ((laneInt t x * laneInt t y) / 2 ^ tagWidth t), 0)

/-- The lesser or greater of two lanes (15 R232, 09 R140). -/
def laneMinMax (greater : Bool) (t : Tag) (x y : Nat) : Nat × Nat :=
  if tagInt t then
    (if greater then (if laneInt t x < laneInt t y then y else x) else (if laneInt t y < laneInt t x then y else x), 0)
  else fpMinMax (tagFmt t) greater x y

/-- VMIN (15 R232). -/
def execVmin (p : PNum) (vd va vb : VNum) (s : State) : Host.Outcome State Fault Refusal :=
  vecBinary (.vmin p vd va vb) s p vd va vb intFlt fun t _ x y => laneMinMax false t x y
/-- VMAX (15 R232). -/
def execVmax (p : PNum) (vd va vb : VNum) (s : State) : Host.Outcome State Fault Refusal :=
  vecBinary (.vmax p vd va vb) s p vd va vb intFlt fun t _ x y => laneMinMax true t x y
/-- VABS (15 R232). -/
def execVabs (p : PNum) (vd va : VNum) (s : State) : Host.Outcome State Fault Refusal :=
  vecUnary (.vabs p vd va) s p vd va intFlt fun t _ x =>
    (if tagInt t then wrapTo (tagWidth t) (laneInt t x).natAbs else x % (tagFmt t).signBit, 0)
/-- VNEG (15 R232). -/
def execVneg (p : PNum) (vd va : VNum) (s : State) : Host.Outcome State Fault Refusal :=
  vecUnary (.vneg p vd va) s p vd va intFlt fun t _ x =>
    (if tagInt t then wrapTo (tagWidth t) (-(laneInt t x)) else x ^^^ (tagFmt t).signBit, 0)
/-- VADDS (15 R232, 09 R136). -/
def execVadds (p : PNum) (vd va vb : VNum) (s : State) : Host.Outcome State Fault Refusal :=
  vecBinary (.vadds p vd va vb) s p vd va vb tagInt fun t _ x y => satTo t (laneInt t x + laneInt t y)
/-- VSUBS (15 R232, 09 R136). -/
def execVsubs (p : PNum) (vd va vb : VNum) (s : State) : Host.Outcome State Fault Refusal :=
  vecBinary (.vsubs p vd va vb) s p vd va vb tagInt fun t _ x y => satTo t (laneInt t x - laneInt t y)
/-- VAVG (15 R232). -/
def execVavg (p : PNum) (vd va vb : VNum) (s : State) : Host.Outcome State Fault Refusal :=
  vecBinary (.vavg p vd va vb) s p vd va vb tagInt fun t _ x y =>
    (wrapTo (tagWidth t) ((laneInt t x + laneInt t y + 1) / 2), 0)

/-- |a − b| (15 R232): the magnitude of the exact difference rounded once, an exact zero giving +0. -/
def laneDif (t : Tag) (md : RMode) (x y : Nat) : Nat × Nat :=
  if tagInt t then (wrapTo (tagWidth t) (laneInt t x - laneInt t y).natAbs, 0)
  else
    let f := tagFmt t
    match unpackF f x, unpackF f y with
    | .fin a m e, .fin b n g =>
      let (d, q) := dyAdd (signedMant a m) e (-(signedMant b n)) g
      roundF f md false false d.natAbs q
    | u, v =>
      let r := fpSub f md u v
      (if r.1 = f.nan then r.1 else r.1 % f.signBit, r.2)

/-- VDIF (15 R232). -/
def execVdif (p : PNum) (vd va vb : VNum) (s : State) : Host.Outcome State Fault Refusal :=
  vecBinary (.vdif p vd va vb) s p vd va vb intFlt laneDif

/-- VAND (15 R233). -/
def execVand (p : PNum) (vd va vb : VNum) (s : State) : Host.Outcome State Fault Refusal :=
  vecBinary (.vand p vd va vb) s p vd va vb intFlt fun _ _ x y => (x &&& y, 0)
/-- VOR (15 R233). -/
def execVor (p : PNum) (vd va vb : VNum) (s : State) : Host.Outcome State Fault Refusal :=
  vecBinary (.vor p vd va vb) s p vd va vb intFlt fun _ _ x y => (x ||| y, 0)
/-- VXOR (15 R233). -/
def execVxor (p : PNum) (vd va vb : VNum) (s : State) : Host.Outcome State Fault Refusal :=
  vecBinary (.vxor p vd va vb) s p vd va vb intFlt fun _ _ x y => (x ^^^ y, 0)

/-- The complement of a lane. -/
def laneNot (t : Tag) (x : Nat) : Nat := 2 ^ tagWidth t - 1 - x

/-- VANDN (15 R233). -/
def execVandn (p : PNum) (vd va vb : VNum) (s : State) : Host.Outcome State Fault Refusal :=
  vecBinary (.vandn p vd va vb) s p vd va vb intFlt fun t _ x y => (x &&& laneNot t y, 0)
/-- VNOT (15 R233). -/
def execVnot (p : PNum) (vd va : VNum) (s : State) : Host.Outcome State Fault Refusal :=
  vecUnary (.vnot p vd va) s p vd va intFlt fun t _ x => (laneNot t x, 0)

/-- A lane shifted left (15 R233). -/
def laneShl (t : Tag) (x n : Nat) : Nat := if tagWidth t ≤ n then 0 else x * 2 ^ n % 2 ^ tagWidth t
/-- A lane shifted right, zero fill (15 R233). -/
def laneShr (t : Tag) (x n : Nat) : Nat := if tagWidth t ≤ n then 0 else x / 2 ^ n
/-- A lane shifted right, filling with its top bit (15 R233). -/
def laneSra (t : Tag) (x n : Nat) : Nat :=
  let w := tagWidth t
  let v : Int := if 2 ^ (w - 1) ≤ x then (x : Int) - 2 ^ w else x
  wrapTo w (v / 2 ^ min n w)
/-- A lane rotated right (15 R233). -/
def laneRot (t : Tag) (x n : Nat) : Nat :=
  let w := tagWidth t
  (x / 2 ^ (n % w) + x * 2 ^ (w - n % w)) % 2 ^ w

/-- VSHL (15 R233). -/
def execVshl (p : PNum) (vd va vb : VNum) (s : State) : Host.Outcome State Fault Refusal :=
  vecBinary (.vshl p vd va vb) s p vd va vb tagInt fun t _ x y => (laneShl t x y, 0)
/-- VSHR (15 R233). -/
def execVshr (p : PNum) (vd va vb : VNum) (s : State) : Host.Outcome State Fault Refusal :=
  vecBinary (.vshr p vd va vb) s p vd va vb tagInt fun t _ x y => (laneShr t x y, 0)
/-- VSRA (15 R233). -/
def execVsra (p : PNum) (vd va vb : VNum) (s : State) : Host.Outcome State Fault Refusal :=
  vecBinary (.vsra p vd va vb) s p vd va vb tagInt fun t _ x y => (laneSra t x y, 0)
/-- VROT (15 R233). -/
def execVrot (p : PNum) (vd va vb : VNum) (s : State) : Host.Outcome State Fault Refusal :=
  vecBinary (.vrot p vd va vb) s p vd va vb tagInt fun t _ x y => (laneRot t x y, 0)

/-- A shift by an immediate (15 R233): SHIFT_RANGE after the tag tests. -/
def vecShiftImm (i : Instr) (s : State) (p : PNum) (vd va : VNum) (n : BitVec 6) (f : Tag → Nat → Nat → Nat) :
    Host.Outcome State Fault Refusal :=
  issue i s fun s =>
    let t := (s.getV va).tag
    guarded [noneTrap s va, predNone s p vd, predPair s p vd t, acceptTrap (tagInt t) t,
             condTrap (decide (tagWidth t ≤ n.toNat)) .shiftRange (n.setWidth 64)] fun _ =>
      plain (writeLanes s p vd t fun j => (f t (lane t (s.getV va).bits j) n.toNat, 0))

/-- VSHLI (15 R233). -/
def execVshli (p : PNum) (vd va : VNum) (n : BitVec 6) (s : State) : Host.Outcome State Fault Refusal :=
  vecShiftImm (.vshli p vd va n) s p vd va n laneShl
/-- VSHRI (15 R233). -/
def execVshri (p : PNum) (vd va : VNum) (n : BitVec 6) (s : State) : Host.Outcome State Fault Refusal :=
  vecShiftImm (.vshri p vd va n) s p vd va n laneShr
/-- VSRAI (15 R233). -/
def execVsrai (p : PNum) (vd va : VNum) (n : BitVec 6) (s : State) : Host.Outcome State Fault Refusal :=
  vecShiftImm (.vsrai p vd va n) s p vd va n laneSra

/-- vd ± va × vb (15 R234): vd is a source in both forms. -/
def vecFused (i : Instr) (s : State) (p : PNum) (vd va vb : VNum) (minus : Bool) : Host.Outcome State Fault Refusal :=
  issue i s fun s =>
    let t := (s.getV va).tag
    guarded [noneTrap s va, noneTrap s vb, noneTrap s vd, pairTrap t (s.getV vb).tag, pairTrap t (s.getV vd).tag,
             acceptTrap (intFlt t) t] fun _ =>
      plain (writeLanes s p vd t fun j =>
        let a := lane t (s.getV va).bits j
        let b := lane t (s.getV vb).bits j
        let c := lane t (s.getV vd).bits j
        if tagInt t then
          let q := laneInt t a * laneInt t b
          (wrapTo (tagWidth t) (if minus then laneInt t c - q else laneInt t c + q), 0)
        else
          let f := tagFmt t
          let x := unpackF f a
          fpFma f (modeOf s) (unpackF f c) (if minus then fpNeg x else x) (unpackF f b))

/-- VFMA (15 R234). -/
def execVfma (p : PNum) (vd va vb : VNum) (s : State) : Host.Outcome State Fault Refusal :=
  vecFused (.vfma p vd va vb) s p vd va vb false
/-- VFMS (15 R234). -/
def execVfms (p : PNum) (vd va vb : VNum) (s : State) : Host.Outcome State Fault Refusal :=
  vecFused (.vfms p vd va vb) s p vd va vb true

/-- A lane's quotient (15 R235, 09 R137 R161). -/
def laneDiv (t : Tag) (md : RMode) (x y : Nat) : Nat × Nat :=
  if tagInt t then
    (if y = 0 then 2 ^ tagWidth t - 1 else wrapTo (tagWidth t) ((laneInt t x).tdiv (laneInt t y)), 0)
  else fpDiv (tagFmt t) md (unpackF (tagFmt t) x) (unpackF (tagFmt t) y)

/-- VDIV (15 R235). -/
def execVdiv (p : PNum) (vd va vb : VNum) (s : State) : Host.Outcome State Fault Refusal :=
  vecBinary (.vdiv p vd va vb) s p vd va vb intFlt laneDiv
/-- VSQRT (15 R235). -/
def execVsqrt (p : PNum) (vd va : VNum) (s : State) : Host.Outcome State Fault Refusal :=
  vecUnary (.vsqrt p vd va) s p vd va tagFlt fun t md x => fpSqrt (tagFmt t) md (unpackF (tagFmt t) x)

/-- VRCP, VRSQ, VEXP2 and VLOG2 (15 R235): an F64 tag traps ILLEGAL in place of rule 3. -/
def vecSpecial (i : Instr) (s : State) (p : PNum) (vd va : VNum) (f : Fmt → RMode → Nat → Fp → Nat × Nat) :
    Host.Outcome State Fault Refusal :=
  issue i s fun s =>
    let t := (s.getV va).tag
    guarded [noneTrap s va, predNone s p vd, predPair s p vd t, condTrap (decide (t = .f64)) .illegal (i.word.setWidth 64),
             acceptTrap (tagFlt t) t] fun _ =>
      plain (writeLanes s p vd t fun j =>
        let x := lane t (s.getV va).bits j
        f (tagFmt t) (modeOf s) x (unpackF (tagFmt t) x))

/-- VRCP (15 R235, 09 R162). -/
def execVrcp (p : PNum) (vd va : VNum) (s : State) : Host.Outcome State Fault Refusal :=
  vecSpecial (.vrcp p vd va) s p vd va fun f md _ x => fpRcp f md x
/-- VRSQ (15 R235, 09 R162). -/
def execVrsq (p : PNum) (vd va : VNum) (s : State) : Host.Outcome State Fault Refusal :=
  vecSpecial (.vrsq p vd va) s p vd va fun f md _ x => fpRsq f md x
/-- VEXP2 (15 R235, 09 R162). -/
def execVexp2 (p : PNum) (vd va : VNum) (s : State) : Host.Outcome State Fault Refusal :=
  vecSpecial (.vexp2 p vd va) s p vd va fpExp2
/-- VLOG2 (15 R235, 09 R162). -/
def execVlog2 (p : PNum) (vd va : VNum) (s : State) : Host.Outcome State Fault Refusal :=
  vecSpecial (.vlog2 p vd va) s p vd va fpLog2

/-- A value rounded to an integral value of its format (15 R235). -/
def fpIntegral (f : Fmt) (md : RMode) (x : Fp) : Nat × Nat :=
  match x with
  | .nan s => (f.nan, if s then flagNV else 0)
  | .inf n => (f.signed n f.infBits, 0)
  | .fin n m e =>
    let (k, ex) := roundAt md n m e 0
    ((roundF f .rne true n k 0).1, if ex then 0 else flagNX)

/-- VRND (15 R235). -/
def execVrnd (p : PNum) (vd va : VNum) (m : RndArg) (s : State) : Host.Outcome State Fault Refusal :=
  vecUnary (.vrnd p vd va m) s p vd va tagFlt fun t md x =>
    let md := match m with
      | .rne => .rne | .rtz => .rtz | .rdn => .rdn | .rup => .rup | .fmode => md
    fpIntegral (tagFmt t) md (unpackF (tagFmt t) x)

/-- The class mask of bits in a format (15 R235). -/
def classMask (f : Fmt) (x : Nat) : Nat :=
  let sub := decide (x / 2 ^ f.fb % 2 ^ f.eb = 0)
  match unpackF f x with
  | .nan s => if s then 256 else 512
  | .inf n => if n then 1 else 128
  | .fin n m _ => if m = 0 then (if n then 8 else 16) else if sub then (if n then 4 else 32) else (if n then 2 else 64)

/-- VCLASS's result tag (15 R235). -/
def classTag : Tag → Tag
  | .f32 => .n32 | .f64 => .n64 | _ => .n16

/-- VCLASS (15 R235): no flag, not even for a signalling NaN. -/
def execVclass (p : PNum) (vd va : VNum) (s : State) : Host.Outcome State Fault Refusal :=
  issue (.vclass p vd va) s fun s =>
    let t := (s.getV va).tag
    guarded [noneTrap s va, predNone s p vd, acceptTrap (tagFlt t) t,
             predNeed s p vd (classTag t)] fun _ =>
      plain (writeLanes s p vd (classTag t) fun j => (classMask (tagFmt t) (lane t (s.getV va).bits j), 0))

/-- A compare of two lanes (15 R236, 09 R140): `fi` on integers, `ff` on floats that are no NaN, `un` where one is. -/
def laneCompare (fi : Int → Int → Bool) (ff : Fp → Fp → Bool) (un : Bool) (t : Tag) (x y : Nat) : Bool × Nat :=
  if tagInt t then (fi (laneInt t x) (laneInt t y), 0)
  else
    let a := unpackF (tagFmt t) x
    let b := unpackF (tagFmt t) y
    (if fpIsNan a || fpIsNan b then un else ff a b, snanFlag a ||| snanFlag b)

/-- A compare (15 R236): pd whole, 0 for lanes that are not enabled or not there. -/
def vecCompare (i : Instr) (s : State) (p pd : PNum) (va vb : VNum) (f : Tag → Nat → Nat → Bool × Nat) :
    Host.Outcome State Fault Refusal :=
  issue i s fun s =>
    let t := (s.getV va).tag
    guarded [noneTrap s va, noneTrap s vb, pairTrap t (s.getV vb).tag, acceptTrap (intFlt t) t] fun _ =>
      let r := (upto (tagLanes t)).map fun j =>
        if (s.getP p).getLsbD j then f t (lane t (s.getV va).bits j) (lane t (s.getV vb).bits j) else (false, 0)
      plain (raiseFlags (s.setP pd (BitVec.ofNat 32 (r.foldr (fun x acc => flag x.1 + 2 * acc) 0)))
        (r.foldl (fun acc x => acc ||| x.2) 0))

/-- VCEQ (15 R236). -/
def execVceq (p pd : PNum) (va vb : VNum) (s : State) : Host.Outcome State Fault Refusal :=
  vecCompare (.vceq p pd va vb) s p pd va vb (laneCompare (fun a b => decide (a = b)) fpEqual false)
/-- VCNE (15 R236). -/
def execVcne (p pd : PNum) (va vb : VNum) (s : State) : Host.Outcome State Fault Refusal :=
  vecCompare (.vcne p pd va vb) s p pd va vb (laneCompare (fun a b => decide (a ≠ b)) (fun a b => !fpEqual a b) true)
/-- VCLT (15 R236). -/
def execVclt (p pd : PNum) (va vb : VNum) (s : State) : Host.Outcome State Fault Refusal :=
  vecCompare (.vclt p pd va vb) s p pd va vb (laneCompare (fun a b => decide (a < b)) (fpLess false) false)
/-- VCLE (15 R236). -/
def execVcle (p pd : PNum) (va vb : VNum) (s : State) : Host.Outcome State Fault Refusal :=
  vecCompare (.vcle p pd va vb) s p pd va vb
    (laneCompare (fun a b => decide (a ≤ b)) (fun a b => fpLess false a b || fpEqual a b) false)

/-- VSEL (15 R236): the predicate selects, vd is written whole. -/
def execVsel (p : PNum) (vd va vb : VNum) (s : State) : Host.Outcome State Fault Refusal :=
  issue (.vsel p vd va vb) s fun s =>
    let t := (s.getV va).tag
    guarded [noneTrap s va, noneTrap s vb, pairTrap t (s.getV vb).tag, acceptTrap (intFlt t) t] fun _ =>
      plain (writeWhole s vd t fun j =>
        (lane t (if (s.getP p).getLsbD j then (s.getV va).bits else (s.getV vb).bits) j, 0))

end Sys2Proof.Machine
end

