-- ==== Sys2Proof/Machine/Dispatch.lean ====
section
/-! DEFINITION. The meaning of every instruction and device step: one arm per constructor. -/
namespace Sys2Proof.Machine

def exec (i : Instr) (s : State) : Host.Outcome State Fault Refusal :=
  match i with
  | .add d a b => Sys2Proof.Machine.execAdd d a b s
  | .sub d a b => Sys2Proof.Machine.execSub d a b s
  | .and d a b => Sys2Proof.Machine.execAnd d a b s
  | .or d a b => Sys2Proof.Machine.execOr d a b s
  | .xor d a b => Sys2Proof.Machine.execXor d a b s
  | .andn d a b => Sys2Proof.Machine.execAndn d a b s
  | .sll d a b => Sys2Proof.Machine.execSll d a b s
  | .srl d a b => Sys2Proof.Machine.execSrl d a b s
  | .sra d a b => Sys2Proof.Machine.execSra d a b s
  | .rol d a b => Sys2Proof.Machine.execRol d a b s
  | .ror d a b => Sys2Proof.Machine.execRor d a b s
  | .slt d a b => Sys2Proof.Machine.execSlt d a b s
  | .sltu d a b => Sys2Proof.Machine.execSltu d a b s
  | .min d a b => Sys2Proof.Machine.execMin d a b s
  | .max d a b => Sys2Proof.Machine.execMax d a b s
  | .minu d a b => Sys2Proof.Machine.execMinu d a b s
  | .maxu d a b => Sys2Proof.Machine.execMaxu d a b s
  | .seq d a b => Sys2Proof.Machine.execSeq d a b s
  | .mul d a b => Sys2Proof.Machine.execMul d a b s
  | .mulh d a b => Sys2Proof.Machine.execMulh d a b s
  | .mulhu d a b => Sys2Proof.Machine.execMulhu d a b s
  | .mulhsn d a b => Sys2Proof.Machine.execMulhsn d a b s
  | .div d a b => Sys2Proof.Machine.execDiv d a b s
  | .divu d a b => Sys2Proof.Machine.execDivu d a b s
  | .rem d a b => Sys2Proof.Machine.execRem d a b s
  | .remu d a b => Sys2Proof.Machine.execRemu d a b s
  | .clz d a => Sys2Proof.Machine.execClz d a s
  | .ctz d a => Sys2Proof.Machine.execCtz d a s
  | .popc d a => Sys2Proof.Machine.execPopc d a s
  | .brev d a => Sys2Proof.Machine.execBrev d a s
  | .bswap d a => Sys2Proof.Machine.execBswap d a s
  | .sextB d a => Sys2Proof.Machine.execSextB d a s
  | .sextH d a => Sys2Proof.Machine.execSextH d a s
  | .sextW d a => Sys2Proof.Machine.execSextW d a s
  | .zextB d a => Sys2Proof.Machine.execZextB d a s
  | .zextH d a => Sys2Proof.Machine.execZextH d a s
  | .zextW d a => Sys2Proof.Machine.execZextW d a s
  | .lea1 d a b => Sys2Proof.Machine.execLea1 d a b s
  | .lea2 d a b => Sys2Proof.Machine.execLea2 d a b s
  | .lea4 d a b => Sys2Proof.Machine.execLea4 d a b s
  | .lea8 d a b => Sys2Proof.Machine.execLea8 d a b s
  | .addi d a imm => Sys2Proof.Machine.execAddi d a imm s
  | .andi d a imm => Sys2Proof.Machine.execAndi d a imm s
  | .ori d a imm => Sys2Proof.Machine.execOri d a imm s
  | .xori d a imm => Sys2Proof.Machine.execXori d a imm s
  | .slti d a imm => Sys2Proof.Machine.execSlti d a imm s
  | .sltin d a imm => Sys2Proof.Machine.execSltin d a imm s
  | .slli d a n => Sys2Proof.Machine.execSlli d a n s
  | .srli d a n => Sys2Proof.Machine.execSrli d a n s
  | .srai d a n => Sys2Proof.Machine.execSrai d a n s
  | .rori d a n => Sys2Proof.Machine.execRori d a n s
  | .liu d imm => Sys2Proof.Machine.execLiu d imm s
  | .addpc d imm => Sys2Proof.Machine.execAddpc d imm s
  | .sysr d r => Sys2Proof.Machine.execSysr d r s
  | .sysw r a => Sys2Proof.Machine.execSysw r a s
  | .ldB d a imm => Sys2Proof.Machine.execLdB d a imm s
  | .ldH d a imm => Sys2Proof.Machine.execLdH d a imm s
  | .ldW d a imm => Sys2Proof.Machine.execLdW d a imm s
  | .ldD d a imm => Sys2Proof.Machine.execLdD d a imm s
  | .ldBn d a imm => Sys2Proof.Machine.execLdBn d a imm s
  | .ldHn d a imm => Sys2Proof.Machine.execLdHn d a imm s
  | .ldWn d a imm => Sys2Proof.Machine.execLdWn d a imm s
  | .stB a b imm => Sys2Proof.Machine.execStB a b imm s
  | .stH a b imm => Sys2Proof.Machine.execStH a b imm s
  | .stW a b imm => Sys2Proof.Machine.execStW a b imm s
  | .stD a b imm => Sys2Proof.Machine.execStD a b imm s
  | .lda d a wd sc => Sys2Proof.Machine.execLda d a wd sc s
  | .stl a b wd sc => Sys2Proof.Machine.execStl a b wd sc s
  | .pref k a imm => Sys2Proof.Machine.execPref k a imm s
  | .cclean a sc => Sys2Proof.Machine.execCclean a sc s
  | .cinv a sc => Sys2Proof.Machine.execCinv a sc s
  | .cflush a sc => Sys2Proof.Machine.execCflush a sc s
  | .spldW d a imm => Sys2Proof.Machine.execSpldW d a imm s
  | .spldD d a imm => Sys2Proof.Machine.execSpldD d a imm s
  | .spstW a b imm => Sys2Proof.Machine.execSpstW a b imm s
  | .spstD a b imm => Sys2Proof.Machine.execSpstD a b imm s
  | .vld t vd a off => Sys2Proof.Machine.execVld t vd a off s
  | .vst vd a off => Sys2Proof.Machine.execVst vd a off s
  | .spvld t vd a off => Sys2Proof.Machine.execSpvld t vd a off s
  | .spvst vd a off => Sys2Proof.Machine.execSpvst vd a off s
  | .vlds t p vd a b => Sys2Proof.Machine.execVlds t p vd a b s
  | .vsts p vd a b => Sys2Proof.Machine.execVsts p vd a b s
  | .vgath t p vd a vb => Sys2Proof.Machine.execVgath t p vd a vb s
  | .vscat p vd a vb => Sys2Proof.Machine.execVscat p vd a vb s
  | .beq a b off => Sys2Proof.Machine.execBeq a b off s
  | .bne a b off => Sys2Proof.Machine.execBne a b off s
  | .blt a b off => Sys2Proof.Machine.execBlt a b off s
  | .bge a b off => Sys2Proof.Machine.execBge a b off s
  | .bltn a b off => Sys2Proof.Machine.execBltn a b off s
  | .bgen a b off => Sys2Proof.Machine.execBgen a b off s
  | .bpAny p off => Sys2Proof.Machine.execBpAny p off s
  | .bpAll p off => Sys2Proof.Machine.execBpAll p off s
  | .bpNone p off => Sys2Proof.Machine.execBpNone p off s
  | .j d off => Sys2Proof.Machine.execJ d off s
  | .jr d a imm => Sys2Proof.Machine.execJr d a imm s
  | .loop lvl a len => Sys2Proof.Machine.execLoop lvl a len s
  | .loopi lvl count len => Sys2Proof.Machine.execLoopi lvl count len s
  | .vadd p vd va vb => Sys2Proof.Machine.execVadd p vd va vb s
  | .vsub p vd va vb => Sys2Proof.Machine.execVsub p vd va vb s
  | .vmul p vd va vb => Sys2Proof.Machine.execVmul p vd va vb s
  | .vmulh p vd va vb => Sys2Proof.Machine.execVmulh p vd va vb s
  | .vmin p vd va vb => Sys2Proof.Machine.execVmin p vd va vb s
  | .vmax p vd va vb => Sys2Proof.Machine.execVmax p vd va vb s
  | .vabs p vd va => Sys2Proof.Machine.execVabs p vd va s
  | .vneg p vd va => Sys2Proof.Machine.execVneg p vd va s
  | .vadds p vd va vb => Sys2Proof.Machine.execVadds p vd va vb s
  | .vsubs p vd va vb => Sys2Proof.Machine.execVsubs p vd va vb s
  | .vavg p vd va vb => Sys2Proof.Machine.execVavg p vd va vb s
  | .vdif p vd va vb => Sys2Proof.Machine.execVdif p vd va vb s
  | .vand p vd va vb => Sys2Proof.Machine.execVand p vd va vb s
  | .vor p vd va vb => Sys2Proof.Machine.execVor p vd va vb s
  | .vxor p vd va vb => Sys2Proof.Machine.execVxor p vd va vb s
  | .vandn p vd va vb => Sys2Proof.Machine.execVandn p vd va vb s
  | .vnot p vd va => Sys2Proof.Machine.execVnot p vd va s
  | .vshl p vd va vb => Sys2Proof.Machine.execVshl p vd va vb s
  | .vshr p vd va vb => Sys2Proof.Machine.execVshr p vd va vb s
  | .vsra p vd va vb => Sys2Proof.Machine.execVsra p vd va vb s
  | .vrot p vd va vb => Sys2Proof.Machine.execVrot p vd va vb s
  | .vshli p vd va n => Sys2Proof.Machine.execVshli p vd va n s
  | .vshri p vd va n => Sys2Proof.Machine.execVshri p vd va n s
  | .vsrai p vd va n => Sys2Proof.Machine.execVsrai p vd va n s
  | .vfma p vd va vb => Sys2Proof.Machine.execVfma p vd va vb s
  | .vfms p vd va vb => Sys2Proof.Machine.execVfms p vd va vb s
  | .vdiv p vd va vb => Sys2Proof.Machine.execVdiv p vd va vb s
  | .vsqrt p vd va => Sys2Proof.Machine.execVsqrt p vd va s
  | .vrcp p vd va => Sys2Proof.Machine.execVrcp p vd va s
  | .vrsq p vd va => Sys2Proof.Machine.execVrsq p vd va s
  | .vexp2 p vd va => Sys2Proof.Machine.execVexp2 p vd va s
  | .vlog2 p vd va => Sys2Proof.Machine.execVlog2 p vd va s
  | .vrnd p vd va m => Sys2Proof.Machine.execVrnd p vd va m s
  | .vclass p vd va => Sys2Proof.Machine.execVclass p vd va s
  | .vceq p pd va vb => Sys2Proof.Machine.execVceq p pd va vb s
  | .vcne p pd va vb => Sys2Proof.Machine.execVcne p pd va vb s
  | .vclt p pd va vb => Sys2Proof.Machine.execVclt p pd va vb s
  | .vcle p pd va vb => Sys2Proof.Machine.execVcle p pd va vb s
  | .vsel p vd va vb => Sys2Proof.Machine.execVsel p vd va vb s
  | .vshuf p vd va vb => Sys2Proof.Machine.execVshuf p vd va vb s
  | .vzip p vd va vb => Sys2Proof.Machine.execVzip p vd va vb s
  | .vuzp p vd va vb => Sys2Proof.Machine.execVuzp p vd va vb s
  | .vsld p vd va k => Sys2Proof.Machine.execVsld p vd va k s
  | .vbcast p vd va l => Sys2Proof.Machine.execVbcast p vd va l s
  | .vins p vd a l => Sys2Proof.Machine.execVins p vd a l s
  | .vext d va l => Sys2Proof.Machine.execVext d va l s
  | .vredadd p vd va => Sys2Proof.Machine.execVredadd p vd va s
  | .vredmax p vd va => Sys2Proof.Machine.execVredmax p vd va s
  | .vredmin p vd va => Sys2Proof.Machine.execVredmin p vd va s
  | .vdot p vd va vb => Sys2Proof.Machine.execVdot p vd va vb s
  | .vcvt p vd va u => Sys2Proof.Machine.execVcvt p vd va u s
  | .vretag p vd va u => Sys2Proof.Machine.execVretag p vd va u s
  | .vtag vd u => Sys2Proof.Machine.execVtag vd u s
  | .vpack p vd va vb => Sys2Proof.Machine.execVpack p vd va vb s
  | .vunpkl p vd va => Sys2Proof.Machine.execVunpkl p vd va s
  | .vunpkh p vd va => Sys2Proof.Machine.execVunpkh p vd va s
  | .venc p vd va slot part => Sys2Proof.Machine.execVenc p vd va slot part s
  | .vdec p vd va slot part => Sys2Proof.Machine.execVdec p vd va slot part s
  | .ctld slot a => Sys2Proof.Machine.execCtld slot a s
  | .ctldi slot n w => Sys2Proof.Machine.execCtldi slot n w s
  | .ctst slot a => Sys2Proof.Machine.execCtst slot a s
  | .ctinfo d slot => Sys2Proof.Machine.execCtinfo d slot s
  | .pand pd pa pb => Sys2Proof.Machine.execPand pd pa pb s
  | .por pd pa pb => Sys2Proof.Machine.execPor pd pa pb s
  | .pxor pd pa pb => Sys2Proof.Machine.execPxor pd pa pb s
  | .pnot pd pa => Sys2Proof.Machine.execPnot pd pa s
  | .pseti pd n => Sys2Proof.Machine.execPseti pd n s
  | .pfrom pd a => Sys2Proof.Machine.execPfrom pd a s
  | .pto d pa => Sys2Proof.Machine.execPto d pa s
  | .pcnt d pa => Sys2Proof.Machine.execPcnt d pa s
  | .pfirst d pa => Sys2Proof.Machine.execPfirst d pa s
  | .vmov p vd va => Sys2Proof.Machine.execVmov p vd va s
  | .vzero vd u => Sys2Proof.Machine.execVzero vd u s
  | .vsplati p vd v u => Sys2Proof.Machine.execVsplati p vd v u s
  | .mctx a => Sys2Proof.Machine.execMctx a s
  | .mma d ha hb => Sys2Proof.Machine.execMma d ha hb s
  | .mmar d ha hb => Sys2Proof.Machine.execMmar d ha hb s
  | .mmarLast d ha hb => Sys2Proof.Machine.execMmarLast d ha hb s
  | .mzero d => Sys2Proof.Machine.execMzero d s
  | .mrdacc d ha t => Sys2Proof.Machine.execMrdacc d ha t s
  | .mwait d a => Sys2Proof.Machine.execMwait d a s
  | .mpoll d a => Sys2Proof.Machine.execMpoll d a s
  | .cpy d g => Sys2Proof.Machine.execCpy d g s
  | .cpy2 d g => Sys2Proof.Machine.execCpy2 d g s
  | .cpypl d g => Sys2Proof.Machine.execCpypl d g s
  | .cpyrd d g => Sys2Proof.Machine.execCpyrd d g s
  | .cpyfill d g => Sys2Proof.Machine.execCpyfill d g s
  | .cwait d a => Sys2Proof.Machine.execCwait d a s
  | .cpoll d a => Sys2Proof.Machine.execCpoll d a s
  | .amoAdd d a b wd o => Sys2Proof.Machine.execAmoAdd d a b wd o s
  | .amoAnd d a b wd o => Sys2Proof.Machine.execAmoAnd d a b wd o s
  | .amoOr d a b wd o => Sys2Proof.Machine.execAmoOr d a b wd o s
  | .amoXor d a b wd o => Sys2Proof.Machine.execAmoXor d a b wd o s
  | .amoMin d a b wd o => Sys2Proof.Machine.execAmoMin d a b wd o s
  | .amoMax d a b wd o => Sys2Proof.Machine.execAmoMax d a b wd o s
  | .amoMinn d a b wd o => Sys2Proof.Machine.execAmoMinn d a b wd o s
  | .amoMaxn d a b wd o => Sys2Proof.Machine.execAmoMaxn d a b wd o s
  | .amoSwap d a b wd o => Sys2Proof.Machine.execAmoSwap d a b wd o s
  | .amoFadd d a b wd o => Sys2Proof.Machine.execAmoFadd d a b wd o s
  | .redAdd a b wd o => Sys2Proof.Machine.execRedAdd a b wd o s
  | .redAnd a b wd o => Sys2Proof.Machine.execRedAnd a b wd o s
  | .redOr a b wd o => Sys2Proof.Machine.execRedOr a b wd o s
  | .redXor a b wd o => Sys2Proof.Machine.execRedXor a b wd o s
  | .redMin a b wd o => Sys2Proof.Machine.execRedMin a b wd o s
  | .redMax a b wd o => Sys2Proof.Machine.execRedMax a b wd o s
  | .redMinn a b wd o => Sys2Proof.Machine.execRedMinn a b wd o s
  | .redMaxn a b wd o => Sys2Proof.Machine.execRedMaxn a b wd o s
  | .redFadd a b wd o => Sys2Proof.Machine.execRedFadd a b wd o s
  | .cas d a b wd => Sys2Proof.Machine.execCas d a b wd s
  | .chunk d a => Sys2Proof.Machine.execChunk d a s
  | .fenceAcq sc => Sys2Proof.Machine.execFenceAcq sc s
  | .fenceRel sc => Sys2Proof.Machine.execFenceRel sc s
  | .fenceFull sc => Sys2Proof.Machine.execFenceFull sc s
  | .barrive d a => Sys2Proof.Machine.execBarrive d a s
  | .barrived d a => Sys2Proof.Machine.execBarrived d a s
  | .barwait a b => Sys2Proof.Machine.execBarwait a b s
  | .bartry d a b => Sys2Proof.Machine.execBartry d a b s
  | .barinit a b sc => Sys2Proof.Machine.execBarinit a b sc s
  | .jinit d a b => Sys2Proof.Machine.execJinit d a b s
  | .isync sc => Sys2Proof.Machine.execIsync sc s
  | .rdef h b => Sys2Proof.Machine.execRdef h b s
  | .rwaitf h n => Sys2Proof.Machine.execRwaitf h n s
  | .rwaite h n => Sys2Proof.Machine.execRwaite h n s
  | .radvh h n => Sys2Proof.Machine.execRadvh h n s
  | .radvt h n => Sys2Proof.Machine.execRadvt h n s
  | .rinfo d h => Sys2Proof.Machine.execRinfo d h s
  | .send e a n => Sys2Proof.Machine.execSend e a n s
  | .mpop d t => Sys2Proof.Machine.execMpop d t s
  | .mpeek d t => Sys2Proof.Machine.execMpeek d t s
  | .tagen t => Sys2Proof.Machine.execTagen t s
  | .tagdis t => Sys2Proof.Machine.execTagdis t s
  | .tagpend d t => Sys2Proof.Machine.execTagpend d t s
  | .endj a => Sys2Proof.Machine.execEndj a s
  | .fork a b => Sys2Proof.Machine.execFork a b s
  | .safept n => Sys2Proof.Machine.execSafept n s
  | .trap n => Sys2Proof.Machine.execTrap n s
  | .bkpt n => Sys2Proof.Machine.execBkpt n s
  | .mtrd d => Sys2Proof.Machine.execMtrd d s
  | .mtcls d c => Sys2Proof.Machine.execMtcls d c s
  | .pdly d im => Sys2Proof.Machine.execPdly d im s
  | .foffer d a b => Sys2Proof.Machine.execFoffer d a b s
  | .faccept d a b => Sys2Proof.Machine.execFaccept d a b s
  | .fdecline d a b => Sys2Proof.Machine.execFdecline d a b s
  | .fwithdraw d a b => Sys2Proof.Machine.execFwithdraw d a b s
  | .flend d a b => Sys2Proof.Machine.execFlend d a b s
  | .frecall d a b => Sys2Proof.Machine.execFrecall d a b s
  | .frelease d a b => Sys2Proof.Machine.execFrelease d a b s
  | .fscrub d a b => Sys2Proof.Machine.execFscrub d a b s
  | .illegal w => Sys2Proof.Machine.execIllegal w s
  | .endh => Sys2Proof.Machine.execEndh s
  | .eret => Sys2Proof.Machine.execEret s
  | .psaved => Sys2Proof.Machine.execPsaved s
  | .actload d a b => Sys2Proof.Machine.execActload d a b s
  | .actunld d a b => Sys2Proof.Machine.execActunld d a b s
  | .actbind d a b => Sys2Proof.Machine.execActbind d a b s
  | .tinv d a b => Sys2Proof.Machine.execTinv d a b s
  | .ctxsw d a b => Sys2Proof.Machine.execCtxsw d a b s
  | .ctxswRestore d a b => Sys2Proof.Machine.execCtxswRestore d a b s
  | .ctxswFresh d a b => Sys2Proof.Machine.execCtxswFresh d a b s
  | .aresume d a b => Sys2Proof.Machine.execAresume d a b s
  | .akill d a b => Sys2Proof.Machine.execAkill d a b s
  | .qset d a b => Sys2Proof.Machine.execQset d a b s
  | .epreq d a b => Sys2Proof.Machine.execEpreq d a b s
  | .messageArrival im => Sys2Proof.Machine.execMessageArrival im s
  | .messageMoveBack core => Sys2Proof.Machine.execMessageMoveBack core s
  | .tagFire core slot => Sys2Proof.Machine.execTagFire core slot s
  | .dequePop core slot => Sys2Proof.Machine.execDequePop core slot s
  | .stealPass core slot => Sys2Proof.Machine.execStealPass core slot s
  | .stealRequest im => Sys2Proof.Machine.execStealRequest im s
  | .stealReply im => Sys2Proof.Machine.execStealReply im s
  | .stealRetry core slot => Sys2Proof.Machine.execStealRetry core slot s
  | .activationResume core => Sys2Proof.Machine.execActivationResume core s
  | .priorityAgeing core slot => Sys2Proof.Machine.execPriorityAgeing core slot s
  | .pbudgetExpiry core slot => Sys2Proof.Machine.execPbudgetExpiry core slot s
  | .saveRoutineLimit core slot => Sys2Proof.Machine.execSaveRoutineLimit core slot s
  | .jobAccept core slot => Sys2Proof.Machine.execJobAccept core slot s
  | .spliceJobStart eng id => Sys2Proof.Machine.execSpliceJobStart eng id s
  | .spliceJobEnd eng id => Sys2Proof.Machine.execSpliceJobEnd eng id s
  | .mmarForwardLanded eng id west => Sys2Proof.Machine.execMmarForwardLanded eng id west s
  | .reeveRingSlot eng id => Sys2Proof.Machine.execReeveRingSlot eng id s
  | .reeveJobEnd eng id => Sys2Proof.Machine.execReeveJobEnd eng id s
  | .barrierDeferLand im => Sys2Proof.Machine.execBarrierDeferLand im s
  | .continuationDeferredSend im => Sys2Proof.Machine.execContinuationDeferredSend im s
  | .memoryResponse core im cycles => Sys2Proof.Machine.execMemoryResponse core im cycles s
  | .pageWalk core im => Sys2Proof.Machine.execPageWalk core im s
  | .recallDeadline frame => Sys2Proof.Machine.execRecallDeadline frame s
  | .recallClusterInvalidate frame cluster => Sys2Proof.Machine.execRecallClusterInvalidate frame cluster s
  | .lateWrite frame cluster => Sys2Proof.Machine.execLateWrite frame cluster s
  | .recallClosingComplete frame => Sys2Proof.Machine.execRecallClosingComplete frame s
  | .cxlMemRequest host pa op => Sys2Proof.Machine.execCxlMemRequest host pa op s
  | .backInvalidateResponse line data => Sys2Proof.Machine.execBackInvalidateResponse line data s
  | .backInvalidateTimeout line => Sys2Proof.Machine.execBackInvalidateTimeout line s
  | .chargeApply im => Sys2Proof.Machine.execChargeApply im s
  | .heldSeen core => Sys2Proof.Machine.execHeldSeen core s
  | .meterTick meter supply costs => Sys2Proof.Machine.execMeterTick meter supply costs s
  | .droopTrip cluster => Sys2Proof.Machine.execDroopTrip cluster s
  | .droopEnd cluster => Sys2Proof.Machine.execDroopEnd cluster s
  | .throttleTick temps power => Sys2Proof.Machine.execThrottleTick temps power s
  | .thermalStop die => Sys2Proof.Machine.execThermalStop die s
  | .thermalResume die => Sys2Proof.Machine.execThermalResume die s
  | .railFault => Sys2Proof.Machine.execRailFault s
  | .packageReset => Sys2Proof.Machine.execPackageReset s
  | .bringupStage err failed cxlTier images => Sys2Proof.Machine.execBringupStage err failed cxlTier images s
  | .extend => Sys2Proof.Machine.execExtend s
  | .evidence => Sys2Proof.Machine.execEvidence s
  | .policy => Sys2Proof.Machine.execPolicy s
  | .create => Sys2Proof.Machine.execCreate s
  | .destroy => Sys2Proof.Machine.execDestroy s
  | .retire => Sys2Proof.Machine.execRetire s
  | .logread => Sys2Proof.Machine.execLogread s
  | .mode => Sys2Proof.Machine.execMode s
  | .grant => Sys2Proof.Machine.execGrant s
  | .consent => Sys2Proof.Machine.execConsent s
  | .revoke => Sys2Proof.Machine.execRevoke s
  | .hold => Sys2Proof.Machine.execHold s
  | .release => Sys2Proof.Machine.execRelease s
  | .step => Sys2Proof.Machine.execStep s
  | .snap => Sys2Proof.Machine.execSnap s
  | .trace => Sys2Proof.Machine.execTrace s
  | .window => Sys2Proof.Machine.execWindow s
  | .lock => Sys2Proof.Machine.execLock s
  | .unlock => Sys2Proof.Machine.execUnlock s
  | .hostIngressWrite fn off size data => Sys2Proof.Machine.execHostIngressWrite fn off size data s
  | .hostEgressWrite fn => Sys2Proof.Machine.execHostEgressWrite fn s
  | .lanyardFlitSend port => Sys2Proof.Machine.execLanyardFlitSend port s
  | .lanyardDataFlit port f => Sys2Proof.Machine.execLanyardDataFlit port f s
  | .lanyardMarker port f => Sys2Proof.Machine.execLanyardMarker port f s
  | .lanyardResyncMarker port f => Sys2Proof.Machine.execLanyardResyncMarker port f s
  | .lanyardRetry port f => Sys2Proof.Machine.execLanyardRetry port f s
  | .lanyardIdle port f => Sys2Proof.Machine.execLanyardIdle port f s
  | .lanyardAckTimeout port => Sys2Proof.Machine.execLanyardAckTimeout port s
  | .linkDown port reason => Sys2Proof.Machine.execLinkDown port reason s
  | .linkTrained port linkId lower => Sys2Proof.Machine.execLinkTrained port linkId lower s
  | .kagree port => Sys2Proof.Machine.execKagree port s
  | .registerWrite sp off v => Sys2Proof.Machine.execRegisterWrite sp off v s
  | .hostLinkDown => Sys2Proof.Machine.execHostLinkDown s
  | .frameFoundUncorrectable frame => Sys2Proof.Machine.execFrameFoundUncorrectable frame s
  | .frameTransactionStatus core slot => Sys2Proof.Machine.execFrameTransactionStatus core slot s
  | .kernelOperationStatus core slot => Sys2Proof.Machine.execKernelOperationStatus core slot s

end Sys2Proof.Machine
end

