-- ==== Sys2Proof/Machine/Fetch.lean ====
section
/-!
DEFINITION. Issue (03 R64, 05 R82, 07 R134, 27 R368): whether an activation may issue, the word it fetches, the time that
passes, and the place a test's word is put.
-/
namespace Sys2Proof.Machine

/-- Nothing but the order of its core keeps an activation from issuing: it runs, no debug hold halts it (27 R370), its domain
is not halted, or it is in a save routine (21 R313 R315), its die's arithmetic clock runs (31 R405), and no ended budget has
it dumped first (03 R73). -/
def runnable (s : State) (c : Nat) (a : Act) : Bool :=
  decide (a.status = .running) && (decide (a.halt = .none) || decide (a.halt = .step))
    && (!(s.getDom a.dom).halted || a.saving.isSome)
    && !(s.getDie (dieOf c)).stopped && !budgetOver s c a s.time

/-- The ready activations a core issues from in a cycle: one for each of its pipes (01 R21 R25, 03 R64). -/
def issuePipes (c : Nat) : Nat := if isSystem c then 4 else 16

/-- Whether the selected activation waits for nothing, or for what now holds (03 R65): at a stall point its condition, else
room for its message (R45) or job (01 R18), or a line that no outside host holds any longer (05 R110). A status comes from
the device (19 R296 R300). -/
def waitOver (s : State) : Bool :=
  match s.act.wait with
  | none => true
  | some (.mpop t) => match ownTag s t with
    | none => true
    | some (i, _) => (mpopTake s i t).isSome
  | some (.job splice id) =>
    let st := statusState (jobStatus s s.core splice (BitVec.ofNat 64 id))
    decide (st ≠ 1) && decide (st ≠ 2)
  | some (.barrier addr phase) => match phaseRead s addr (bitsOf phase 31 0) with
    | .ok ((passed, _), _, _) => passed
    | .error _ => true
  | some (.ring empty h n) => match findRing s s.core h with
    | none => true
    | some r => decide (r.count < n) || decide (n ≤ if empty then r.free else r.filled)
  | some (.inject _) => !injectFull s.here
  | some (.port splice) => (if splice then spliceRoom s else reeveRoom s) && portTurn s splice
  | some (.line pl) => (tabFind s.ext pl).isNone
  | some (.clock c) => !(s.getDie (dieOf c)).stopped
  | some .kernelOp => false
  | some .frameOp => false

/-- The same of the activation of a slot. -/
def actReady (s : State) (c k : Nat) (a : Act) : Bool := a.wait.isNone || waitOver (s.select c k)

/-- The class that the order of issue goes by (03 R64): an activation whose wait is not seen to be over has not aged. -/
def issueClass (s : State) (a : Act) : Nat := if a.wait.isNone || a.ended then min a.aged (agedClass s a) else a.aged

/-- An activation goes before another (03 R64): the lower effective class, then the earlier last issue, then the lower
slot. -/
def goesBefore (s : State) (a b : Nat × Act) : Bool :=
  decide (issueClass s a.2 < issueClass s b.2) || (decide (issueClass s a.2 = issueClass s b.2)
    && (decide (a.2.lastIssue < b.2.lastIssue) || (decide (a.2.lastIssue = b.2.lastIssue) && decide (a.1 < b.1))))

/-- A step tries its word at a stall point or a full engine queue, to be reported with STALLED there (27 R371). -/
def stepTries (a : Act) : Bool :=
  decide (a.halt = .step) && (a.wait.map fun w => w.stallPoint || w.atPort).getD false

/-- The ready activations of a core: those that may issue and whose wait, if any, is over (03 R64 R65), or that a step lets
try. -/
def readyActs (s : State) (c : Nat) : List (Nat × Act) :=
  (s.coreActs c).filter fun x => runnable s c x.2 && (actReady s c x.1 x.2 || stepTries x.2)

/-- Whether the selected activation may issue: there is one, nothing keeps it from issuing, its wait is over or a step
lets it try, and it is one of the ready activations that its core's pipes take (03 R64) (log 11). -/
def canIssue (s : State) : Bool :=
  s.live && runnable s s.core s.act && (actReady s s.core s.slot s.act || stepTries s.act)
    && decide (((readyActs s s.core).filter fun x => goesBefore s x (s.slot, s.act)).length < issuePipes s.core)

/-- The breakpoint register that matches the fetch of the activation's next word (27 R368), none for a word being stepped
(R371). -/
def breakpointAt (s : State) : Option Nat :=
  if s.act.noBreak || decide (s.act.halt = .step) then none
  else match grantOf s s.act.dom with
    | none => none
    | some g => (upto 8).find? fun i =>
        let b := tabGet 0 g.bpa (8 * s.core + i)
        b.getLsbD 0 && decide (bitsOf b 56 2 = bitsOf s.act.pc 56 2)

/-- The next word of the activation (05 R82): the word, or why it cannot be fetched now. -/
def fetchWord (s : State) : Acc (IWord × State) :=
  match fetchLine s s.core s.act.dom s.act.kernel s.act.pc with
  | .error e => .error e
  | .ok (l, s') => .ok (wordAt l s.act.pc, s')

/-- What stops an issue before any word executes: a save routine that has retired 4,096 instructions (03 R70), a
breakpoint (27 R368), a fetch that faults or waits. -/
def beforeWord (s : State) : State ⊕ (IWord × State) :=
  match s.act.saving with
  | some run =>
    if 4096 ≤ run.retired then
      .inl (park s { s.act with regs := saveFaultRegs s.act.regs run 0 s.act.pc, pc := run.addr, owed := 0, btarget := 0 })
    else fetched s
  | none => fetched s
where
  /-- The breakpoint test, then the fetch. -/
  fetched (s : State) : State ⊕ (IWord × State) :=
    match breakpointAt s with
    | some i => .inl (takeTrap s .breakpoint (BitVec.ofNat 64 i))
    | none =>
      match fetchWord s with
      | .ok r => .inr r
      | .error (.fault c v t) => .inl (takeTrap t c v)
      | .error (.wait pl) => .inl (stallAt (askBack s pl) (.line pl))

/-- The charges made 1 µs before a TIME or earlier reach the store, in the order they were made (23 R341). -/
def dueCharges (s : State) (now : Nat) : State :=
  (s.charges.filter fun q => decide (q.at_ + 1000 ≤ now)).foldl applyCharge
    { s with charges := s.charges.filter fun q => decide (now < q.at_ + 1000) }

/-- Every core of a domain held for 2 µs at a TIME sees HELD, and its activations are requested (23 R343, 21 R315). -/
def dueHeld (s : State) (now : Nat) : State :=
  s.cores.foldl (fun s x =>
    match x.2.dom with
    | some d =>
      if (s.getDom d).held && decide ((s.getDom d).heldAt + 2000 ≤ now) && !x.2.heldSeen then
        requestQuota (s.modCore x.1 fun y => { y with heldSeen := true }) d (some x.1)
      else s
    | none => s) s

/-- A core's own clocks after a time (27 R376, 21 R326, 23 R339): WT while its window is open and its context holds it, and
how long that context has held it. -/
def coreElapse (c : Core) (ns : Nat) : Core :=
  match c.dom with
  | none => c
  | some d =>
    let c := if c.open_ && c.evict.isNone then { c with wt := c.wt + ns } else c
    { c with holding := tabPut c.holding d (tabGet 0 c.holding d + ns) }

/-- Which waits are over is seen before time passes: an activation whose wait is over is ready from then on (03 R64 R65). -/
def seeWaits (s : State) : State :=
  s.allActs.foldl (fun s x =>
    if x.2.2.wait.isNone || decide (actReady s x.1 x.2.1 x.2.2 = x.2.2.ended) then s
    else s.putAct x.1 x.2.1 { x.2.2 with ended := !x.2.2.ended, ready := s.time }) s

/-- Time passes (01 R31, 31 R403): what is bounded by it happens first (23 R341 R343, 03 R73) (log 10). -/
def elapse (s : State) (ns : Nat) : State :=
  let now := s.time + ns
  let s := dueBudgets (dueHeld (dueCharges (seeWaits s) now) now) now
  { s with time := s.time + ns, cores := s.cores.map fun x => (x.1, coreElapse x.2 ns) }

/-- A line leaves an L1 (05 R83) (log 5). -/
def evictL1Line (s : State) (c d vl : Nat) : State :=
  match findL1 s c d vl with
  | some l => flushL1 s c l
  | none => s

/-- The address a placed word is fetched from. -/
def placeAddr (a : Act) : Word := if bitsOf a.pc 63 57 ≠ 0 ∨ bitsOf a.pc 1 0 ≠ 0 then 0x1000 else a.pc

/-- The activation that a placed word runs in: the selected one, set to run, or where none is selected a kernel-mode
activation of domain 2 in its start state; no budget of it has ended (log 2). -/
def placeAct (s : State) : Act :=
  let a := if s.live then s.act else { Act.blank with dom := 2, kernel := true, pc := 0x1000 }
  { a with pc := placeAddr a, status := .running, wait := none, halt := .none, saving := none, noBreak := true, aged := 0,
           lastIssue := 0, preempt := a.preempt.filter fun p => decide (s.time < p.at_ + p.budget) }

/-- The state whose next step runs a word (log 2): the activation of `placeAct`, its core held by its domain, an
instruction line that holds the word at its pc, an empty agenda. -/
def placeWord (s : State) (w : IWord) : State :=
  let a := placeAct s
  let l : ILine := { dom := a.dom, vl := vlineOf a.pc, data := lineOf (a.pc.toNat % 128) 4 w.toNat,
                     perms := { r := true, w := true, x := true, k := false }, pl := 0 }
  let s := { s with act := a, live := true, acts := tabErase s.acts (64 * s.core + s.slot), agenda := [] }
  let s := (s.modDie (dieOf s.core) fun d => { d with stopped := false }).modDom a.dom fun d => { d with halted := false }
  s.modCore s.core fun c => { c with
    dom := some (c.dom.getD a.dom), l1i := l :: c.l1i.filter fun x => !(decide (x.dom = l.dom) && decide (x.vl = l.vl)) }

end Sys2Proof.Machine
end

