-- ==== Sys2Proof/Machine/Due.lean ====
section
/-!
DEFINITION. What goes on where the agenda is empty (03 R74): whose word issues next, and the moves that the device owes its
cores while time passes; the turn that a device's move interrupts.
-/
namespace Sys2Proof.Machine

/-- No activation has its turn: the selected one is back in its slot. -/
def yieldTurn (s : State) : State :=
  if s.live then { s with acts := tabPut s.acts (64 * s.core + s.slot) s.act, act := Act.blank, live := false } else s

/-- The activation that had its turn has it again, unless the device's move gave the turn to another. -/
def takeBack (s t : State) : State := if s.live && !t.live then t.select s.core s.slot else t

/-- A move of the device itself (03 R32, 23 R332): made while no activation has its turn. -/
def deviceMove (s : State) (f : State → State) : State := takeBack s (f (yieldTurn s))

/-- What follows a device step: the host link's posted queue moves on (29 R382), and the turn is given back. -/
def afterStep (s t : State) : State := takeBack s (drainPosted t)

/-- The selected activation issues with no agenda that says so (03 R74): it may issue, and has not issued since time last
passed, so that every ready activation comes to its turn before time passes again. -/
def goesNow (s : State) : Bool := canIssue s && (decide (s.act.lastIssue = 0) || decide (s.act.ready < s.time))

/-- The state in which a word issues with no agenda that says so: the selected activation's, else that of the first slot whose
activation goes. -/
def nextToGo (s : State) : Option State :=
  if goesNow s then some s
  else (s.allActs.find? fun x => goesNow (s.select x.1 x.2.1)).map fun x => s.select x.1 x.2.1

/-- Each message in flight, from the `i`-th on, is tried at its core (03 R43-R45), at most `n` of them. -/
def arriveAll (s : State) : Nat → Nat → State
  | 0, _ => s
  | n + 1, i =>
    let t := arrive s i
    arriveAll t n (if t.flight.length < s.flight.length then i else i + 1)

/-- What R61 has a core start next starts, in the lowest free slot (03 R61, 21 R316). -/
def startNext (s : State) (c : Nat) : State :=
  let s := askDue s c
  match chooseStart s c, freeSlots s c with
  | .fire f, k :: _ => fire s c k f
  | .resume k, _ => resumeSaved s c k
  | .pop, k :: _ => popTask s c k
  | _, _ => s

/-- A pass of a core begins, where it is due (03 R62). -/
def stealNext (s : State) (c : Nat) : State :=
  match freeSlots s c with
  | k :: _ => if (s.getCore c).steal.retry ≤ s.time then beginPass s c k else s
  | [] => s

/-- The requests and the answers on the bight network reach their victims and thieves (03 R62), the latest first. -/
def stealsArrive (s : State) : State :=
  (upto s.steals.length).reverse.foldl (fun s i => match s.steals[i]? with
    | none => s
    | some m => match m.answer, (s.getCore m.thief).steal.slot with
      | none, _ => answerSteal s i m
      | some r, some k => takeSteal s i k m r
      | some _, none => s) s

/-- The continuations held for cores that their contexts hold now are sent (17 R254), the latest first. -/
def contsSend (s : State) : State :=
  (upto s.conts.length).reverse.foldl (fun s i => match s.conts[i]? with
    | none => s
    | some m =>
      if (s.getCore m.core).dom = some m.dom then continuationDue { s with conts := s.conts.eraseIdx i } m else s) s

/-- What the device owes its cores (03 R74), each move once: messages go out, arrive and move back, what has been held is sent,
what may start starts, steals go on. -/
def dueMoves (s : State) : State :=
  let cs := s.cores.map fun x => x.1
  let s := cs.foldl injectNext s
  let s := arriveAll (contsSend s) s.flight.length 0
  let s := cs.foldl moveBack s
  let s := cs.foldl startNext s
  stealsArrive (cs.foldl stealNext s)

/-- A nanosecond passes with no agenda (03 R74, 01 R31) (log 1): the device's due moves, then time; while the package is held in
reset, time alone (31 R399). -/
def tick (s : State) : State := if s.inReset then { s with time := s.time + 1 } else elapse (afterStep s (dueMoves (yieldTurn s))) 1

end Sys2Proof.Machine
end

