-- ==== Sys2Proof/Machine/Step.lean ====
section
/-!
DEFINITION. One step of the package: the next move of the agenda (log 1), and where the agenda is empty the next word of
the activation whose turn it is. (`noncomputable` as in Decode: the kernel evaluates it.)
-/
namespace Sys2Proof.Machine

/-- The selected activation issues: what stops it before a word, else the decoded instruction, else ILLEGAL. -/
noncomputable def issueTurn (s : State) : Host.Outcome State Fault Refusal :=
  match beforeWord s with
  | .inl s' => .next s'
  | .inr (w, s') =>
    match decodeWord w with
    | .ok i => exec i s'
    | .error _ => exec (.illegal w) s'

/-- What the package does while it is held in reset (31 R399 R400): its end, and nothing else. -/
noncomputable def resetTurn (t : Turn) (s : State) : Host.Outcome State Fault Refusal :=
  match t with
  | .event .packageReset => exec .packageReset s
  | .event i => if i.isStep then .next s else .fault .notAStep
  | _ => .next s

/-- A move of the agenda, which no longer lists it. -/
noncomputable def takeTurn (t : Turn) (s : State) : Host.Outcome State Fault Refusal :=
  if s.inReset then resetTurn t s
  else match t with
  | .issue c k =>
    let s := s.select c k
    if s.core = c ∧ s.slot = k ∧ canIssue s then issueTurn s else .next s
  | .event i =>
    if i.isStep then
      match exec i (yieldTurn s) with
      | .next t => .next (afterStep s t)
      | .fault f => .fault f
      | .refused r => .refused r
    else .fault .notAStep
  | .elapse ns => .next (elapse s ns)
  | .inject c => .next (injectNext s c)
  | .evictL1 c d vl => .next (deviceMove s fun s => evictL1Line s c d vl)
  | .evictL2 pl => .next (deviceMove s fun s => dropL2 s pl)
  | .evictTlb u => .next { s with tlb := s.tlb.filter fun t => decide (t.unit ≠ u), walk := s.walk.filter fun t => decide (t.unit ≠ u) }

/-- One step: the next move of the agenda; with none, the next word of an activation that goes (03 R74), or, where none goes,
what the device owes its cores, and a nanosecond. -/
noncomputable def step (s : State) : Host.Outcome State Fault Refusal :=
  match s.agenda with
  | t :: r => takeTurn t { s with agenda := r }
  | [] => match nextToGo s with
    | some u => issueTurn u
    | none => .next (tick s)

/-- The state with an instruction placed where the next step fetches it (log 2). -/
def State.withFetchWord (s : State) (nbits w : Nat) : State := placeWord s (BitVec.ofNat 32 (w % 2 ^ nbits))

end Sys2Proof.Machine
end

