-- ==== Sys2Proof/Safety.lean ====
section
/-!
DEFINITION. What the claims speak of: how an instruction ends, what retiring a word may change, and the invariant of the
byte memory.
-/
namespace Sys2Proof.Machine

/-- The word of an instruction passes the tests on the word and the mode alone (11 R170): the conditions under which its own
effect is taken. -/
def Issues (i : Instr) (s : State) : Prop := decodeTrap i.word s = none

/-- The instruction completes: its results stand in `u`, execution goes to `f`, its charge has the terms `ts` beyond those
of its major (23 R334), and its word retires. -/
def Completes (i : Instr) (s u : State) (f : Flow) (ts : List Term) : Prop := exec i s = .next (complete i.word u f ts)

/-- The instruction traps with a cause and an EVAL (11 R184). -/
def Traps (i : Instr) (s : State) (c : Cause) (v : Word) : Prop := exec i s = .next (takeTrap s c v)

/-- An access of the instruction traps with a cause and an EVAL; `t` is the state with the memory traffic before the fault
(23 R336). -/
def TrapsAfter (i : Instr) (s t : State) (c : Cause) (v : Word) : Prop := exec i s = .next (takeTrap t c v)

/-- The instruction waits, in a state `u`, and is tried again (03 R65). -/
def Stalls (i : Instr) (s u : State) (w : Wait) : Prop := exec i s = .next (stallAt u w)

/-- The next state of a device step. -/
def Steps (i : Instr) (s t : State) : Prop := exec i s = .next t

/-- What retiring a word makes of the state `u` that holds its results: the activation advances by `f` (11 R185-R190), its
class is its own again and its issue the core's latest (03 R64), and the charge goes to the meter and the quota store's queue (23 R333 R341). Nothing else
changes: no register but PC, the branch target, the slots owed and LC0 and LC1, no memory, cache, queue or table. -/
structure Retires (u : State) (f : Flow) (t : State) : Prop where
  act : t.act = { advance u.act f with
    wait := none, aged := u.act.prio, lastIssue := u.issues + 1, ready := u.time, ended := false, noBreak := false, eu := t.act.eu,
    saving := u.act.saving.map fun r => { r with retired := r.retired + 1 } }
  rest : t = { u with act := t.act, clusters := t.clusters, charges := t.charges, device := t.device, issues := u.issues + 1 }
  meters : ∀ g, t.getCluster g = { u.getCluster g with residue := (t.getCluster g).residue, sum := (t.getCluster g).sum }

/-- The byte memory and every core's scratchpad are in their canonical form: addresses strictly rising, no entry at the
value an unlisted address reads as. -/
def MemoryOk (s : State) : Prop := s.mem.wf = true ∧ ∀ x ∈ s.cores, x.2.spad.wf = true

/-- The selected activation's slot lists no other activation. -/
def SlotOk (s : State) : Prop := s.live = true → tabFind s.acts (64 * s.core + s.slot) = none

/-- The state's canonical form: `MemoryOk`, the activations listed by slot, each slot once, and `SlotOk`. -/
def FormOk (s : State) : Prop :=
  MemoryOk s ∧ s.slot < 64 ∧ ((s.acts.map fun x => x.1).Pairwise fun a b => a < b) ∧ SlotOk s

/-- The byte at an address of a physical line as the package holds it past the L1s: the L2 line's, as its home slice serves it, if
one holds it, else the stored byte (05 R84 R97). -/
def homeByte (s : State) (pl i : Nat) : Byte :=
  match tabFind s.l2 pl with
  | some l => lineByte (l2Data s pl l) i
  | none => memGet s.mem (128 * pl + i)

/-- A valid byte of a core's L1 under a tag (05 R81). -/
def l1Byte (s : State) (c d vl i : Nat) : Option Byte :=
  match findL1 s c d vl with
  | some l => if l.valid.getLsbD i then some (lineByte l.data i) else none
  | none => none

/-- A byte of a core's scratchpad (01 R21). -/
def spadByte (s : State) (c o : Nat) : Byte := memGet (s.getCore c).spad o

/-- A domain's aligned access to `n` bytes of an address is served by its core's L1 (05 R81 R100): the line is there, the
bytes are valid, its recorded bits allow the access, and no watchpoint matches. -/
def HitsL1 (s : State) (need : Need) (k : WatchKind) (va : Word) (n : Nat) (l : L1Line) : Prop :=
  bitsOf va 63 57 = 0 ∧ va.toNat % n = 0 ∧ findL1 s s.core s.act.dom (vlineOf va) = some l ∧
    l.valid &&& byteMask (va.toNat % 128) n = byteMask (va.toNat % 128) n ∧ l.perms.allow need s.act.kernel = true ∧
    watchHit s k va n = false

end Sys2Proof.Machine
end

