-- ==== Sys2Proof/Certificates/Slice0/Obligations.lean ====
section
/-!
DEFINITION. The statements for the provers. `Completes`, `Traps`, `Stalls`, `Retires` and the byte reads stand in
Sys2Proof/Safety.lean.
-/
section
open Sys2Proof Sys2Proof.Machine

/-- R163 R164 R165 R168: the decoder reads back every well-formed instruction that a word of the opcode map names, every operand at
every value its field admits. -/
def Obligations.RoundTrip : Prop :=
  ∀ i : Instr, i.wf = true → i.hasWord = true → decodeWord i.word = .ok i

/-- R166 R167 R169 R170: the decoder accepts nothing else: a word it gives an instruction for is that instruction's word, with no
selector, operand or reserved bit dropped, and the instruction is well-formed. -/
def Obligations.DecodeSound : Prop :=
  ∀ (w : IWord) (i : Instr), decodeWord w = .ok i → i.word = w ∧ i.wf = true ∧ i.hasWord = true

/-- R163 R168: words of the spec's own programs and of its opcode map, and a word outside the map (R169). -/
def Clauses.DecodeWords : Prop :=
  decodeWord 0x00616501 = .ok (.add 10 11 12) ∧ decodeWord 0x308A0781 = .ok (.mul 15 16 17) ∧
  decodeWord 0x02210A88 = .ok (.srli 21 8 4) ∧ decodeWord 0x00012B93 = .ok (.ldD 23 9 0) ∧
  decodeWord 0x0092801A = .ok (.stW 20 18 0) ∧ decodeWord 0x001AA039 = .ok (.loop false 21 3) ∧
  decodeWord 0xFFC009B6 = .ok (.bpNone 3 (-8)) ∧ decodeWord 0x20AA87E0 = .ok (.amoAdd 15 20 21 .d .relaxed) ∧
  decodeWord 0x26000064 = .ok (.fenceFull .package) ∧ decodeWord 0x06006068 = .ok (.radvh 3 0) ∧
  decodeWord 0x004781F0 = .ok (.send 3 15 2) ∧ decodeWord 0x00280078 = .ok (.trap 5) ∧ decodeWord 0x79 = .ok .eret ∧
  decodeWord 0 = .error .illegal

/-- R169 R170: the illegal word. Its own effect is its trap, which it takes in every state, in every mode and in a delay slot,
with the word in EVAL: ILLEGAL, or RESERVED_FIELD where its only fault is a field out of range; ILLEGAL is tested first. -/
def Clauses.IllegalWords : Prop :=
  ∀ (w : IWord) (s : State),
    (∃ t c, exec (.illegal w) s = .next t ∧ t = takeTrap s c (w.zeroExtend 64) ∧ (c = .illegal ∨ c = .reservedField)) ∧
    (decodeWord w = .error .illegal → exec (.illegal w) s = .next (takeTrap s .illegal (w.zeroExtend 64))) ∧
    (∀ r, decodeWord w = .error r → r ≠ .illegal → (s.core < 1280 ∨ ¬ (0x50 ≤ (w.extractLsb' 0 7).toNat ∧ (w.extractLsb' 0 7).toNat ≤ 0x56)) →
      exec (.illegal w) s = .next (takeTrap s .reservedField (w.zeroExtend 64))) ∧
    (∀ r, decodeWord w = .error r → 1280 ≤ s.core → 0x50 ≤ (w.extractLsb' 0 7).toNat → (w.extractLsb' 0 7).toNat ≤ 0x56 →
      exec (.illegal w) s = .next (takeTrap s .illegal (w.zeroExtend 64)))

/-- Words written out from the encoding tables decode to their instructions, and words that name none are illegal: each clause cites its rules. -/
def Obligations.WordsDecode : Prop := Clauses.DecodeWords ∧ Clauses.IllegalWords

/-- The step runs the decoded instruction (03 R64 R74, 05 R82, 11 R163). Where the agenda gives the selected activation its turn and it may
issue, or with an empty agenda it may issue and has not since time last passed (log 1), a word fetched from an instruction line that
allows it, unbroken and outside a spent save routine, is executed, as the instruction it decodes to or as an illegal word; the
fetch changes no state on a hit. (Which activation may issue follows R64, with the model's reading of its pauses, log 11.) -/
def Obligations.StepRunsDecoded : Prop :=
  ∀ (s u : State) (l : ILine),
    (s.agenda = [] ∧ goesNow s = true ∧ u = s) ∨
      (∃ r, s.agenda = .issue s.core s.slot :: r ∧ s.inReset = false ∧ u = { s with agenda := r } ∧ canIssue u = true) →
    breakpointAt u = none → (∀ r, u.act.saving = some r → r.retired < 4096) → u.act.pc.toNat < 2 ^ 57 →
    ((u.getCore u.core).l1i.find? fun l => decide (l.dom = u.act.dom ∧ l.vl = u.act.pc.toNat / 128 % 2 ^ 50)) = some l →
    l.perms.x = true → (l.perms.k = false ∨ u.act.kernel = true) →
    ∀ w : IWord, (∀ i, i < 4 → u.act.pc.toNat % 128 + i < 128 → w.extractLsb' (8 * i) 8 = lineByte l.data (u.act.pc.toNat % 128 + i)) →
      u.act.pc.toNat % 4 = 0 →
      (∀ i, decodeWord w = .ok i → step s = exec i u) ∧ (∀ r, decodeWord w = .error r → step s = exec (.illegal w) u)

/-- R184 R187 R307 R310 R70 R370: taking a trap. The registers of R184 and R187 are set and the activation parks where it stands (that
EBT is kept where no slot is owed is the model's choice, log 32); its trap
message carries the payload of R310 through the entry of R308; in a save routine the trap is SAVE_FAULT at the safe point; a
breakpoint or watchpoint of a debugged domain halts the activation instead. (A trap that has no kernel to go to halts its
domain, R313, and is left out here, as are an eviction's dump of a parked activation and a debug step.) -/
def Obligations.TrapEntry : Prop :=
  ∀ (s : State) (c : Cause) (v : Word), s.live = true → s.slot < 64 → s.act.halt ≠ .step → (∀ p, s.act.preempt = some p → p.why = .quota) →
    let a := s.act
    let t := takeTrap s c v
    let pc := fun (w : Word) => w &&& 0x01FFFFFFFFFFFFFC
    let code := BitVec.ofNat 64 c.code
    let debugged : Prop := (c = .breakpoint ∨ c = .watchpoint) ∧ grantOf s a.dom ≠ none
    let served : Prop := (s.getDom a.dom).halted = true ∨ trapEntry s s.core a ≠ none ∨ isTenant a.dom = true
    let regs := { a.regs with epc := pc a.pc, ecause := code, eval := v, eds := BitVec.ofNat 64 a.owed,
                              ebt := if a.owed = 0 then a.regs.ebt else pc a.btarget }
    (served → a.saving = none → ¬ debugged → t.live = true ∧ t.core = s.core ∧ t.slot = s.slot ∧ t.act.status = .parked ∧
      t.act.regs = regs ∧ t.act.pc = a.pc ∧ t.act.kernel = a.kernel ∧ t.act.dom = a.dom ∧ t.act.prio = a.prio ∧
      t.act.actor = a.actor) ∧
    (a.saving = none → ¬ debugged → (s.getDom a.dom).halted = false → ∀ i, trapEntry s s.core a = some i →
      let e := endpoint s s.core i
      epPkg e = 0 → epCore e ≠ 4095 → epCore e ≠ 4090 → epLen e = 7 →
      a.dom < 256 → a.tag < 16 → (∀ n, a.actor = some n → n < 16) → a.prio < 4 → a.owed < 4 →
      ∃ before m, t.flight = before ++ [m] ∧ m.dom = epDom e ∧ m.core = epCore e ∧ m.actor = epActor e ∧ m.tag = epTag e ∧
        m.words = [BitVec.ofNat 64 (a.dom * 2 ^ 24 + a.tag * 2 ^ 20 + a.actor.getD 0 * 2 ^ 16 + a.prio * 2 ^ 14
            + (if a.kernel then 2 ^ 13 else 0) + (if a.actor = none then 2 ^ 12 else 0) + (if i = 254 then 2 ^ 11 else 0)
            + a.owed * 2 ^ 8 + c.code),
          pc a.pc, v, regs.ebt, BitVec.ofNat 64 (s.core * 2 ^ 6 + s.slot), a.s5, BitVec.ofNat 64 s.time]) ∧
    (∀ run, served → a.saving = some run → t.act.status = .parked ∧ t.act.saving = none ∧ t.act.regs = { a.regs with
      epc := pc run.addr, ecause := 0x3F, eval := (a.pc <<< 8) ||| code, eds := 0 }) ∧
    (a.saving = none → debugged → SlotOk s → t.live = true ∧ t.act.halt = .hit c ∧ t.act.status = a.status ∧ t.act.regs = regs ∧
      t.act.pc = a.pc ∧ t.act.owed = a.owed)

/-- R177 R183 R332 R400 R406 R21 R22: the package right after reset. No context holds a core, nothing is in memory or a cache, TIME is 0, bring-up has
not begun, every Lanyard port is down, and the registers for which R406 gives reset values hold them. (What a register without one
holds is the model's choice, logs 3 and 6, and so is that the package is held in reset until PACKAGE_RESET, log 2.) PBUDGET is R183's,
CSCALE and HSCALE are R332's. -/
def Obligations.ResetState : Prop :=
  let s := State.reset
  s.live = false ∧ s.acts = [] ∧ (∀ c, (s.getCore c).dom = none) ∧ (∀ a, memGet s.mem a = 0) ∧ s.l2 = [] ∧
  (∀ c d vl, findL1 s c d vl = none) ∧ s.time = 0 ∧ s.stage = 0 ∧ s.inReset = true ∧ (∀ p, (s.getPort p).lstate = .down) ∧
  (∀ d, (s.getDom d).exists_ = false ∧ (s.getDom d).pbudget = 50000) ∧ s.plimit = 4800 ∧
  (∀ d, (s.getDie d).step = 8 ∧ (s.getDie d).tthr = 100) ∧ (∀ g, (s.getCluster g).cscale = 256 ∧ (s.getCluster g).hscale = 256) ∧
  (∀ r, Regs.start.s.toList.getD r 0 = 0) ∧ Regs.start.fmode = 0 ∧ Regs.start.fstat = 0 ∧ Regs.start.lc0 = 0 ∧ Regs.start.lc1 = 0 ∧
  Regs.start.eds = 0

/-- The canonical form (the model's own invariant, logs 3 and 6) holds at reset. -/
def Obligations.ResetForm : Prop := FormOk State.reset

/-- The canonical form of the state is kept through every step (the model's own invariant, logs 3 and 6): addresses of the byte memory
and of every scratchpad strictly rise and list no default byte, the activations are listed once by slot, and none is listed under the
selected one's slot. Moves of the agenda name slots below 64. -/
def Obligations.StepKeepsForm : Prop :=
  ∀ s t : State, FormOk s → (∀ x ∈ s.agenda, ∀ c k, x = .issue c k → k < 64) → (∀ x ∈ s.agenda, ∀ i, x = .event i → i.wf = true) →
    step s = .next t → FormOk t

/-- R204, R137: the register arithmetic and logic. With x and y the source registers, each instruction completes on every
state its word issues in, and writes s[d] (nothing where d is s0). -/
def Clauses.AluResults : Prop :=
  ∀ (d a b : SReg) (s : State),
    let x := s.getS a
    let y := s.getS b
    let gives := fun (i : Instr) (v : Word) => Issues i s → Completes i s (s.setS d v) .seq []
    gives (.add d a b) (x + y) ∧ gives (.sub d a b) (x - y) ∧ gives (.and d a b) (x &&& y) ∧ gives (.or d a b) (x ||| y) ∧
    gives (.xor d a b) (x ^^^ y) ∧ gives (.andn d a b) (x &&& ~~~y) ∧
    gives (.sll d a b) (if 64 ≤ y.toNat then 0 else x <<< y.toNat) ∧
    gives (.srl d a b) (if 64 ≤ y.toNat then 0 else x >>> y.toNat) ∧
    gives (.sra d a b) (if 64 ≤ y.toNat then (if x.toInt < 0 then BitVec.allOnes 64 else 0) else x.sshiftRight y.toNat) ∧
    gives (.rol d a b) (x.rotateLeft (y.toNat % 64)) ∧ gives (.ror d a b) (x.rotateRight (y.toNat % 64)) ∧
    gives (.slt d a b) (if x.toInt < y.toInt then 1 else 0) ∧ gives (.sltu d a b) (if x.toNat < y.toNat then 1 else 0) ∧
    gives (.min d a b) (BitVec.ofInt 64 (min x.toInt y.toInt)) ∧ gives (.max d a b) (BitVec.ofInt 64 (max x.toInt y.toInt)) ∧
    gives (.minu d a b) (BitVec.ofNat 64 (min x.toNat y.toNat)) ∧ gives (.maxu d a b) (BitVec.ofNat 64 (max x.toNat y.toNat)) ∧
    gives (.seq d a b) (if x = y then 1 else 0) ∧ gives (.mul d a b) (x * y) ∧
    gives (.mulh d a b) (BitVec.ofInt 64 (x.toInt * y.toInt / 2 ^ 64)) ∧
    gives (.mulhu d a b) (BitVec.ofNat 64 (x.toNat * y.toNat / 2 ^ 64)) ∧
    gives (.mulhsn d a b) (BitVec.ofInt 64 (x.toInt * (y.toNat : Int) / 2 ^ 64)) ∧
    gives (.div d a b) (if y = 0 then BitVec.allOnes 64 else if x.toInt = -2 ^ 63 ∧ y.toInt = -1 then BitVec.ofInt 64 (-2 ^ 63)
      else BitVec.ofInt 64 (x.toInt.tdiv y.toInt)) ∧
    gives (.divu d a b) (if y = 0 then BitVec.allOnes 64 else BitVec.ofNat 64 (x.toNat / y.toNat)) ∧
    gives (.rem d a b) (if y = 0 then x else if x.toInt = -2 ^ 63 ∧ y.toInt = -1 then 0
      else BitVec.ofInt 64 (x.toInt - y.toInt * x.toInt.tdiv y.toInt)) ∧
    gives (.remu d a b) (if y = 0 then x else BitVec.ofNat 64 (x.toNat - y.toNat * (x.toNat / y.toNat))) ∧
    gives (.lea1 d a b) (x + y) ∧ gives (.lea2 d a b) (x + y * 2) ∧ gives (.lea4 d a b) (x + y * 4) ∧
    gives (.lea8 d a b) (x + y * 8)

/-- R204: the unary forms. The counts are stated by what they count, the reversals bit by bit and byte by byte. -/
def Clauses.UnaryResults : Prop :=
  ∀ (d a : SReg) (s : State),
    let x := s.getS a
    let gives := fun (i : Instr) (v : Word) => Issues i s → Completes i s (s.setS d v) .seq []
    (∀ n ≤ 64, (∀ j, 64 - n ≤ j → j < 64 → x.getLsbD j = false) → (n < 64 → x.getLsbD (63 - n) = true) →
      gives (.clz d a) (BitVec.ofNat 64 n)) ∧
    (∀ n ≤ 64, (∀ j, j < n → x.getLsbD j = false) → (n < 64 → x.getLsbD n = true) → gives (.ctz d a) (BitVec.ofNat 64 n)) ∧
    gives (.popc d a) (BitVec.ofNat 64 ((List.range 64).countP fun i => x.getLsbD i)) ∧
    (∀ v : Word, (∀ i, i < 64 → v.getLsbD i = x.getLsbD (63 - i)) → gives (.brev d a) v) ∧
    (∀ v : Word, (∀ i, i < 8 → v.extractLsb' (8 * i) 8 = x.extractLsb' (8 * (7 - i)) 8) → gives (.bswap d a) v) ∧
    gives (.sextB d a) ((x.extractLsb' 0 8).signExtend 64) ∧ gives (.sextH d a) ((x.extractLsb' 0 16).signExtend 64) ∧
    gives (.sextW d a) ((x.extractLsb' 0 32).signExtend 64) ∧ gives (.zextB d a) ((x.extractLsb' 0 8).zeroExtend 64) ∧
    gives (.zextH d a) ((x.extractLsb' 0 16).zeroExtend 64) ∧ gives (.zextW d a) ((x.extractLsb' 0 32).zeroExtend 64)

/-- R205 R206 R207: the immediate forms; ADDPC counts from the address of its own word. -/
def Clauses.ImmediateResults : Prop :=
  ∀ (d a : SReg) (m : BitVec 13) (n : BitVec 6) (u : BitVec 19) (s : State),
    let x := s.getS a
    let i : Word := m.signExtend 64
    let gives := fun (i : Instr) (v : Word) => Issues i s → Completes i s (s.setS d v) .seq []
    gives (.addi d a m) (x + i) ∧ gives (.andi d a m) (x &&& i) ∧ gives (.ori d a m) (x ||| i) ∧ gives (.xori d a m) (x ^^^ i) ∧
    gives (.slti d a m) (if x.toInt < i.toInt then 1 else 0) ∧ gives (.sltin d a m) (if x.toNat < i.toNat then 1 else 0) ∧
    gives (.slli d a n) (x <<< n.toNat) ∧ gives (.srli d a n) (x >>> n.toNat) ∧ gives (.srai d a n) (x.sshiftRight n.toNat) ∧
    gives (.rori d a n) (x.rotateRight n.toNat) ∧
    gives (.liu d u) (BitVec.signExtend 64 u <<< 13) ∧ gives (.addpc d u) (s.act.pc + 4 * BitVec.signExtend 64 u)

/-- The results of the scalar register and immediate forms: each clause cites its rules. -/
def Obligations.ScalarResults : Prop := Clauses.AluResults ∧ Clauses.UnaryResults ∧ Clauses.ImmediateResults

/-- The frame of the register-only scalar forms (R8 R203): s[d] alone changes among the registers, s0 never; vector and
predicate registers, FMODE, FSTAT, EPC, ECAUSE, EVAL, EBT, EDS, HOLDC, LS and LE keep their values; every byte of memory,
of every L1 and of every scratchpad reads as before. -/
def Obligations.RegisterFormFrame : Prop :=
  ∀ (i : Instr) (d : SReg) (s t u : State) (v : Word), Completes i s (s.setS d v) .seq [] → exec i s = .next t →
    s.act.halt ≠ .step →
    t.getS d = (if d = 0 then 0 else v) ∧ (∀ r, r ≠ d → t.getS r = s.getS r) ∧ (∀ r, t.getV r = s.getV r) ∧
    (∀ r, t.getP r = s.getP r) ∧
    t.act.regs = { s.act.regs with s := t.act.regs.s, lc0 := t.act.regs.lc0, lc1 := t.act.regs.lc1 } ∧
    (∀ pl i, homeByte t pl i = homeByte s pl i) ∧ (∀ c d vl i, l1Byte t c d vl i = l1Byte s c d vl i) ∧
    (∀ c o, spadByte t c o = spadByte s c o) ∧ t.mem = s.mem

/-- R185 R187 R189: what a retired word makes of the machine. Nothing changes beyond what `Retires` lets change, a word that
a debug command steps apart (27 R371). -/
def Clauses.RetireEffect : Prop :=
  ∀ (w : IWord) (u : State) (f : Flow) (ts : List Term), u.act.halt ≠ .step → Retires u f (complete w u f ts)

/-- R185 R188 R189: where execution goes. A word that is no branch goes on at PC + 4; a branch owes two slots and then goes to its
target or fall-through; the end-of-body check counts and repeats the inner loop, then the outer; an arming or skipped LOOP goes to its
address. (That execution follows the slots owed, whatever the check finds at a word in one, is the model's choice, log 13.) -/
def Clauses.NextPc : Prop :=
  ∀ (u t : State),
    let a := u.act
    let r := a.regs
    let r' := t.act.regs
    let ends0 : Prop := r.lc0 ≠ 0 ∧ a.pc = r.le0
    let ends1 : Prop := r.lc1 ≠ 0 ∧ a.pc = r.le1
    (Retires u .seq t → a.owed = 0 → ¬ ends0 → ¬ ends1 →
      t.act.pc = a.pc + 4 ∧ t.act.owed = 0 ∧ r'.lc0 = r.lc0 ∧ r'.lc1 = r.lc1) ∧
    (Retires u .seq t → a.owed = 0 → ends0 → r.lc0 ≠ 1 →
      t.act.pc = r.ls0 ∧ t.act.owed = 0 ∧ r'.lc0 = r.lc0 - 1 ∧ r'.lc1 = r.lc1) ∧
    (Retires u .seq t → a.owed = 0 → ends0 → r.lc0 = 1 → ¬ ends1 →
      t.act.pc = a.pc + 4 ∧ t.act.owed = 0 ∧ r'.lc0 = 0 ∧ r'.lc1 = r.lc1) ∧
    (Retires u .seq t → a.owed = 0 → ¬ (ends0 ∧ r.lc0 ≠ 1) → ends1 → r.lc1 ≠ 1 →
      t.act.pc = r.ls1 ∧ t.act.owed = 0 ∧ r'.lc1 = r.lc1 - 1) ∧
    (Retires u .seq t → a.owed = 0 → ¬ (ends0 ∧ r.lc0 ≠ 1) → ends1 → r.lc1 = 1 →
      t.act.pc = a.pc + 4 ∧ t.act.owed = 0 ∧ r'.lc1 = 0) ∧
    (∀ p, Retires u (.goto p) t → a.owed = 0 → ¬ (ends0 ∧ r.lc0 ≠ 1) → ¬ (ends1 ∧ r.lc1 ≠ 1) → t.act.pc = p ∧ t.act.owed = 0) ∧
    (∀ target, Retires u (.branch target) t → a.owed = 0 → t.act.pc = a.pc + 4 ∧ t.act.owed = 2 ∧ t.act.btarget = target) ∧
    (Retires u .seq t → a.owed = 2 → t.act.pc = a.pc + 4 ∧ t.act.owed = 1 ∧ t.act.btarget = a.btarget) ∧
    (Retires u .seq t → a.owed = 1 → t.act.pc = a.btarget ∧ t.act.owed = 0) ∧
    (∀ p k b, Retires u (.resume p k b) t → a.owed = 0 →
      t.act.pc = p ∧ t.act.owed = k ∧ (k ≠ 0 → t.act.btarget = b) ∧ r'.lc0 = r.lc0 ∧ r'.lc1 = r.lc1)

/-- What retiring a word changes, and where execution goes next: each clause cites its rules. -/
def Obligations.Retiring : Prop := Clauses.RetireEffect ∧ Clauses.NextPc

/-- R218 R219 R220: compare and predicate branches. A taken branch goes to PC + 4 × sext(OFF13) after its slots, one not
taken to PC + 12; a taken one whose target has bits [63:57] traps PAGE_ABSENT at itself. No register changes. -/
def Clauses.Branches : Prop :=
  ∀ (a b : SReg) (p : PNum) (off : BitVec 13) (s : State),
    let x := s.getS a
    let y := s.getS b
    let q := s.getP p
    let target := s.act.pc + 4 * BitVec.signExtend 64 off
    let branches := fun (i : Instr) (taken : Prop) => Issues i s →
      (taken → target.toNat < 2 ^ 57 → Completes i s s (.branch target) []) ∧
      (taken → 2 ^ 57 ≤ target.toNat → Traps i s .pageAbsent target) ∧
      (¬ taken → Completes i s s (.branch (s.act.pc + 12)) [])
    branches (.beq a b off) (x = y) ∧ branches (.bne a b off) (x ≠ y) ∧
    branches (.blt a b off) (x.toInt < y.toInt) ∧ branches (.bge a b off) (y.toInt ≤ x.toInt) ∧
    branches (.bltn a b off) (x.toNat < y.toNat) ∧ branches (.bgen a b off) (y.toNat ≤ x.toNat) ∧
    branches (.bpAny p off) (∃ i, i < 32 ∧ q.getLsbD i = true) ∧ branches (.bpAll p off) (∀ i, i < 32 → q.getLsbD i = true) ∧
    branches (.bpNone p off) (∀ i, i < 32 → q.getLsbD i = false)

/-- R221 R222: J and JR write the link PC + 12 before their slots; a target with bits [63:57] traps PAGE_ABSENT, one of JR
that is no multiple of 4 MISALIGNED, with nothing written. -/
def Clauses.Jumps : Prop :=
  ∀ (d a : SReg) (off : BitVec 19) (m : BitVec 13) (s : State),
    let t := s.act.pc + 4 * BitVec.signExtend 64 off
    let r := s.getS a + 4 * BitVec.signExtend 64 m
    let linked := s.setS d (s.act.pc + 12)
    (Issues (.j d off) s → t.toNat < 2 ^ 57 → Completes (.j d off) s linked (.branch t) []) ∧
    (Issues (.j d off) s → 2 ^ 57 ≤ t.toNat → Traps (.j d off) s .pageAbsent t) ∧
    (Issues (.jr d a m) s → r.toNat < 2 ^ 57 → r.toNat % 4 = 0 → Completes (.jr d a m) s linked (.branch r) []) ∧
    (Issues (.jr d a m) s → r.toNat < 2 ^ 57 → r.toNat % 4 ≠ 0 → Traps (.jr d a m) s .misaligned r) ∧
    (Issues (.jr d a m) s → 2 ^ 57 ≤ r.toNat → Traps (.jr d a m) s .pageAbsent r)

/-- R188 R223 R182: LOOP and LOOPI. `n` is bits [31:0] of s[a] for LOOP and COUNT for LOOPI; LS and LE keep bits [56:2] of the
addresses. -/
def Clauses.Loops : Prop :=
  ∀ (lvl : Bool) (a : SReg) (count : BitVec 11) (len : BitVec 13) (s : State),
    let r := s.act.regs
    let start := s.act.pc + 4
    let last := s.act.pc + 4 * BitVec.zeroExtend 64 len
    let pc := fun (w : Word) => w &&& 0x01FFFFFFFFFFFFFC
    let nested : Prop := r.lc0 ≠ 0 ∨ (lvl = true ∧ r.lc1 ≠ 0) ∨
      (lvl = false ∧ r.lc1 ≠ 0 ∧ (start.toNat < r.ls1.toNat ∨ r.le1.toNat < last.toNat))
    let rule := fun (i : Instr) (n : Word) => Issues i s →
      (nested → Traps i s .loopNest (if lvl then 1 else 0)) ∧
      (¬ nested → n = 0 → Completes i s s (.goto (last + 4)) []) ∧
      (¬ nested → n ≠ 0 → lvl = false →
        Completes i s (s.modRegs fun r => { r with lc0 := n, ls0 := pc start, le0 := pc last }) (.goto start) []) ∧
      (¬ nested → n ≠ 0 → lvl = true →
        Completes i s (s.modRegs fun r => { r with lc1 := n, ls1 := pc start, le1 := pc last }) (.goto start) [])
    rule (.loop lvl a len) ((s.getS a).extractLsb' 0 32 |>.zeroExtend 64) ∧ rule (.loopi lvl count len) (BitVec.zeroExtend 64 count)

/-- Branches, jumps and hardware loops: each clause cites its rules. -/
def Obligations.BranchesJumpsLoops : Prop := Clauses.Branches ∧ Clauses.Jumps ∧ Clauses.Loops

/-- R186 R170: a delay slot that holds a branch, jump, LOOP, LOOPI, ENDH, ENDJ, SAFEPT, PSAVED, TRAP or ERET, or any well-formed
instruction's word at the last body word of an armed loop, traps DELAY_SLOT with the word in EVAL; BKPT elsewhere does not. With no
slot owed, a branch or jump at the last body word of an armed loop traps so at itself, and any other word there issues. (A word
that names no instruction is ILLEGAL or RESERVED_FIELD first, as a Splice word is on a system core.) -/
def Clauses.DelaySlotTraps : Prop :=
  ∀ (s : State) (a b d : SReg) (p : PNum) (o : BitVec 13) (j : BitVec 19) (l : Bool) (c : BitVec 11) (n : BitVec 8) (k : BitVec 13),
    let bodyEnd : Prop := (s.act.regs.lc0 ≠ 0 ∧ s.act.pc = s.act.regs.le0) ∨ (s.act.regs.lc1 ≠ 0 ∧ s.act.pc = s.act.regs.le1)
    let branches := [Instr.beq a b o, .bne a b o, .blt a b o, .bge a b o, .bltn a b o, .bgen a b o, .bpAny p o, .bpAll p o,
      .bpNone p o, .j d j, .jr d a o]
    (s.act.owed ≠ 0 →
      (∀ i ∈ branches ++ [Instr.loop l a k, .loopi l c k, .endh, .endj a, .safept n, .psaved, .trap o, .eret],
        i.wf = true → Traps i s .delaySlot (i.word.zeroExtend 64)) ∧
      (bodyEnd → ∀ i : Instr, i.wf = true → i.hasWord = true →
        (s.core < 1280 ∨ (i.word.extractLsb' 0 7).toNat < 0x50 ∨ 0x56 < (i.word.extractLsb' 0 7).toNat) →
        Traps i s .delaySlot (i.word.zeroExtend 64)) ∧
      (¬ bodyEnd → Issues (.bkpt o) s)) ∧
    (s.act.owed = 0 →
      (bodyEnd → ∀ i ∈ branches, i.wf = true → Traps i s .delaySlot (i.word.zeroExtend 64)) ∧
      (¬ bodyEnd → ∀ i ∈ branches, i.wf = true → Issues i s) ∧
      (∀ i ∈ [Instr.loop l a k, .loopi l c k, .endh, .endj a, .safept n, .psaved, .trap o, .eret, .bkpt o], i.wf = true → Issues i s))

/-- R169 R170 R180: outside kernel mode a frame transaction, a kernel operation, and SYSR or SYSW of a register numbered
0x100 or above traps PRIVILEGE with the word in EVAL, outside a delay slot; in kernel mode its word issues. -/
def Clauses.PrivilegeTraps : Prop :=
  ∀ (s : State) (d a b : SReg) (r : SysReg), s.act.owed = 0 →
    ∀ i ∈ [Instr.foffer d a b, .faccept d a b, .fdecline d a b, .fwithdraw d a b, .flend d a b, .frecall d a b,
        .frelease d a b, .fscrub d a b, .actload d a b, .actunld d a b, .actbind d a b, .tinv d a b, .ctxsw d a b,
        .aresume d a b, .akill d a b, .qset d a b, .epreq d a b] ++
        (if 0x100 ≤ r.num.toNat then [Instr.sysr d r, .sysw r a] else []),
      (s.act.kernel = false → Traps i s .privilege (i.word.zeroExtend 64)) ∧ (s.act.kernel = true → Issues i s)

/-- The traps of a word's place and of its mode: each clause cites its rules. -/
def Obligations.IssueTraps : Prop := Clauses.DelaySlotTraps ∧ Clauses.PrivilegeTraps

/-- R224: SYSR gives each system register. TROOT and PBUDGET are those of the executing domain (the model's choice, log 26). The debug registers (27
R367) are those of HOLDC's target, and read 0 where the executing domain holds no effective grant over it. -/
def Clauses.SystemReads : Prop :=
  ∀ (d : SReg) (s : State),
    let g := s.act.regs
    let gives := fun (r : SysReg) (v : Word) => Issues (.sysr d r) s → Completes (.sysr d r) s (s.setS d v) .seq []
    gives .epc g.epc ∧ gives .ecause g.ecause ∧ gives .eval g.eval ∧ gives .ebt g.ebt ∧ gives .eds g.eds ∧
    gives .fmode g.fmode ∧ gives .fstat g.fstat ∧ gives .lc0 g.lc0 ∧ gives .ls0 g.ls0 ∧ gives .le0 g.le0 ∧
    gives .lc1 g.lc1 ∧ gives .ls1 g.ls1 ∧ gives .le1 g.le1 ∧ gives .holdc g.holdc ∧
    gives .time (BitVec.ofNat 64 s.time) ∧ gives .ctxid (BitVec.ofNat 64 (s.act.dom % 256)) ∧
    gives .troot (s.getDom s.act.dom).troot ∧ gives .pbudget (s.getDom s.act.dom).pbudget ∧
    (debugGrant s = none → ∀ (i : BitVec 3) (j : BitVec 2), gives (.bpa i) 0 ∧ gives (.wpa j) 0 ∧ gives (.wpm j) 0) ∧
    (∀ x, debugGrant s = some x → ∀ (i : BitVec 3) (j : BitVec 2),
      let c := (g.holdc >>> 52).toNat
      gives (.bpa i) (tabGet 0 x.bpa (8 * c + i.toNat)) ∧ gives (.wpa j) (tabGet 0 x.wpa (4 * clusterOf c + j.toNat)) ∧
      gives (.wpm j) (tabGet 0 x.wpm (4 * clusterOf c + j.toNat)))

/-- R225 R181 R182 R183 R367: SYSW writes a register with its reserved bits cleared: bits [56:2] of an address register, [7:0] of
ECAUSE, [31:0] of LC and PBUDGET, [1:0] of FMODE and EDS. A write of 3 to EDS, and any write to TIME or CTXID, changes
nothing. The debug registers are written, for HOLDC's target, while the executing domain holds an effective grant over it; SIZE
above 57 is kept as 57. (TROOT and PBUDGET are those of the executing domain: the model's choice, log 26.) -/
def Clauses.SystemWrites : Prop :=
  ∀ (a : SReg) (s : State),
    let w := s.getS a
    let pc : Word := w &&& 0x01FFFFFFFFFFFFFC
    let puts := fun (r : SysReg) (u : State) => Issues (.sysw r a) s → Completes (.sysw r a) s u .seq []
    puts .epc (s.modRegs fun g => { g with epc := pc }) ∧ puts .ebt (s.modRegs fun g => { g with ebt := pc }) ∧
    puts .ls0 (s.modRegs fun g => { g with ls0 := pc }) ∧ puts .le0 (s.modRegs fun g => { g with le0 := pc }) ∧
    puts .ls1 (s.modRegs fun g => { g with ls1 := pc }) ∧ puts .le1 (s.modRegs fun g => { g with le1 := pc }) ∧
    puts .ecause (s.modRegs fun g => { g with ecause := w &&& 0xFF }) ∧ puts .eval (s.modRegs fun g => { g with eval := w }) ∧
    puts .lc0 (s.modRegs fun g => { g with lc0 := w &&& 0xFFFFFFFF }) ∧
    puts .lc1 (s.modRegs fun g => { g with lc1 := w &&& 0xFFFFFFFF }) ∧
    puts .fmode (s.modRegs fun g => { g with fmode := w &&& 3 }) ∧
    puts .fstat (s.modRegs fun g => { g with fstat := w &&& 0x13F }) ∧
    (w &&& 3 ≠ 3 → puts .eds (s.modRegs fun g => { g with eds := w &&& 3 })) ∧ (w &&& 3 = 3 → puts .eds s) ∧
    puts .time s ∧ puts .ctxid s ∧
    puts .troot (s.modDom s.act.dom fun d => { d with troot := w &&& 0x000FFFFFFFFFF001 }) ∧
    puts .pbudget (s.modDom s.act.dom fun d => { d with pbudget := w &&& 0xFFFFFFFF }) ∧
    (w.extractLsb' 0 4 = 0 → puts .holdc (s.modRegs fun g => { g with holdc := w })) ∧
    (w.extractLsb' 0 4 ≠ 0 → puts .holdc { s with
        act := { s.act with regs := { s.act.regs with holdc := w &&& ~~~(15 : Word) } },
        commands := s.commands ++ [{ dom := s.act.dom, core := s.core, word := w }] }) ∧
    (debugGrant s = none → ∀ (i : BitVec 3) (j : BitVec 2), puts (.bpa i) s ∧ puts (.wpa j) s ∧ puts (.wpm j) s) ∧
    (∀ x, debugGrant s = some x → ∀ (i : BitVec 3) (j : BitVec 2),
      let h := s.act.regs.holdc
      let c := (h >>> 52).toNat
      let grants := fun (y : Grant) => { s with grants := tabPut s.grants (h.toNat / 16 % 256) y }
      let size := (w.extractLsb' 0 6).toNat
      let slot := 4 * (if c < 1280 then c / 8 else 160 + (c - 1280) / 8) + j.toNat
      puts (.bpa i) (grants { x with bpa := tabPut x.bpa (8 * c + i.toNat) (w &&& 0x01FFFFFFFFFFFFFD) }) ∧
      puts (.wpa j) (grants { x with wpa := tabPut x.wpa slot (w &&& 0x01FFFFFFFFFFFFFF) }) ∧
      puts (.wpm j) (grants { x with wpm := tabPut x.wpm slot ((w &&& 0x300) ||| BitVec.ofNat 64 (if size ≤ 57 then size else 57)) }))

/-- Reading and writing every system register: each clause cites its rules. -/
def Obligations.SystemRegisters : Prop := Clauses.SystemReads ∧ Clauses.SystemWrites

/-- R226 R227 R228: TRAP and BKPT take their exceptions, with their codes in EVAL; ERET clears EDS and resumes at EPC with
EDS slots owed and then EBT (R187). -/
def Obligations.TrapsAndReturn : Prop :=
  ∀ (n : BitVec 13) (s : State),
    (Issues (.trap n) s → Traps (.trap n) s .trap (n.zeroExtend 64)) ∧
    (Issues (.bkpt n) s → Traps (.bkpt n) s .breakpoint (0x100 + n.zeroExtend 64)) ∧
    (Issues .eret s → Completes .eret s (s.modRegs fun g => { g with eds := 0 })
      (.resume s.act.regs.epc (s.act.regs.eds.extractLsb' 0 2).toNat s.act.regs.ebt) [])

/-- R208 R209 R210: the loads. Where the access is made (`u` is the state after it: a miss has filled the L1, R81), s[d] takes
the bytes, extended as the table gives; where it faults, the load traps with that cause and EVAL. -/
def Clauses.LoadResults : Prop :=
  ∀ (d a : SReg) (m : BitVec 13) (s : State),
    let ea := s.getS a + BitVec.signExtend 64 m
    let rule := fun (i : Instr) (n : Nat) (ext : Nat → Word) => Issues i s →
      (∀ v st u, loadBytes s ea n = .ok (v, st, u) → Completes i s (u.setS d (ext v)) .seq []) ∧
      (∀ c w k, loadBytes s ea n = .error (.fault c w k) → TrapsAfter i s k c w)
    rule (.ldB d a m) 1 (fun v => BitVec.signExtend 64 (BitVec.ofNat 8 v)) ∧
    rule (.ldH d a m) 2 (fun v => BitVec.signExtend 64 (BitVec.ofNat 16 v)) ∧
    rule (.ldW d a m) 4 (fun v => BitVec.signExtend 64 (BitVec.ofNat 32 v)) ∧
    rule (.ldD d a m) 8 (fun v => BitVec.ofNat 64 v) ∧
    rule (.ldBn d a m) 1 (fun v => BitVec.ofNat 64 v) ∧ rule (.ldHn d a m) 2 (fun v => BitVec.ofNat 64 v) ∧
    rule (.ldWn d a m) 4 (fun v => BitVec.ofNat 64 v)

/-- R81 R121: what a load that hits the L1 reads: the line's bytes, little-endian, and no state changes (whole accesses in
program order are the model's choice, log 4). -/
def Clauses.LoadHit : Prop :=
  ∀ (s : State) (va : Word) (n : Nat) (l : L1Line), HitsL1 s .load .load va n l → n ∈ [1, 2, 4, 8, 16] →
    ∃ v st, loadBytes s va n = .ok (v, st, s) ∧ v < 2 ^ (8 * n) ∧
      ∀ i, i < n → BitVec.ofNat 8 (v / 2 ^ (8 * i)) = lineByte l.data (va.toNat % 128 + i)

/-- R100 steps 1 to 3, R208 R94: what an access through the L1 faults on before anything is read or written, in its order: the high bits
of its address, its alignment, the recorded bits of a line that holds its bytes, a watchpoint (whose place is R208's). -/
def Clauses.HitFaults : Prop :=
  ∀ (s : State) (va : Word) (n x : Nat) (st : Option Stamp), n ∈ [1, 2, 4, 8, 16] →
    (2 ^ 57 ≤ va.toNat → loadBytes s va n = .error (.fault .pageAbsent (va &&& 0x01FFFFFFFFFFFFFF) s) ∧
      storeBytes s va n x st = .error (.fault .pageAbsent (va &&& 0x01FFFFFFFFFFFFFF) s)) ∧
    (va.toNat < 2 ^ 57 → va.toNat % n ≠ 0 → loadBytes s va n = .error (.fault .misaligned va s) ∧
      storeBytes s va n x st = .error (.fault .misaligned va s)) ∧
    (∀ l, va.toNat < 2 ^ 57 → va.toNat % n = 0 → findL1 s s.core s.act.dom (vlineOf va) = some l →
      l.valid &&& byteMask (va.toNat % 128) n = byteMask (va.toNat % 128) n →
      ((l.perms.r = false ∨ (l.perms.k = true ∧ s.act.kernel = false)) →
        loadBytes s va n = .error (.fault .pagePerm va s)) ∧
      ((l.perms.w = false ∨ (l.perms.k = true ∧ s.act.kernel = false)) →
        storeBytes s va n x st = .error (.fault .pagePerm va s)) ∧
      (l.perms.r = true → (l.perms.k = false ∨ s.act.kernel = true) → watchHit s .load va n = true →
        loadBytes s va n = .error (.fault .watchpoint va s)) ∧
      (l.perms.w = true → (l.perms.k = false ∨ s.act.kernel = true) → watchHit s .store va n = true →
        storeBytes s va n x st = .error (.fault .watchpoint va s)))

/-- R90 R91 R92 R93 R95 R96, R100 step 4, R110: one level of a walk. The table frame must be one that the domain's walk may read, else
FRAME_NOT_OWNED with its level in EVAL; its line must not be lost, nor held by an outside host; the entry's checks come in R92's order, with
PTE_RESERVED's EVAL of R100. A leaf gives its frame's address and its bits and is kept as one translation entry, of 64 KiB where R96's
whole group joins (an entry of the group with a reserved bit does not), and a non-leaf entry leads to the next level. -/
def Clauses.WalkLevels : Prop :=
  ∀ (s : State) (d meter n frame : Nat) (above : List Nat) (va : Word), n < 5 → va.toNat < 2 ^ 57 →
    let level := n + 1
    let idx := va.toNat / 2 ^ (12 + 9 * n) % 512
    let pl := (4096 * frame + 8 * idx) / 128
    let e := readPte s frame idx
    let f := getFrame s frame
    let next := fun (x : Word) => (x.extractLsb' 12 40).toNat
    let walk := walkFrom s d meter va above level frame
    let faults := fun (c : Cause) (v : Word) => ∃ t, walk = .error (.fault c v t) ∧ t = keepTraffic s t
    let mayRead : Prop := isDram (4096 * frame) = true ∧
      (((f.owner = d ∨ f.owner = kernelOf d) ∧ f.state ∈ [FrameState.owned, .lent, .recalling]) ∨
        (f.peer = d ∧ f.peer ≠ f.owner ∧ (f.state = .lent ∨ (f.state = .recalling ∧ f.closing = false ∧ s.time < f.deadline))))
    let leaf : Prop := level = 1 ∨ (level ≤ 3 ∧ e.getLsbD 7 = true)
    let malformed : Prop := (4 ≤ level ∧ e.getLsbD 7 = true) ∨ (¬ leaf ∧ e.extractLsb' 1 6 ≠ 0) ∨
      (leaf ∧ level ≠ 1 ∧ e.getLsbD 6 = true) ∨ (level = 3 ∧ leaf ∧ e.extractLsb' 12 18 ≠ 0) ∨
      (level = 2 ∧ leaf ∧ e.extractLsb' 12 9 ≠ 0) ∨ (leaf ∧ e.getLsbD 2 = true ∧ e.getLsbD 1 = false)
    let reserved := (va &&& 0x01FFFFFFFFFFFFF8) ||| BitVec.ofNat 64 level
    let perms : Perms := { r := e.getLsbD 1, w := e.getLsbD 2, x := e.getLsbD 3, k := e.getLsbD 4 }
    let pa := 4096 * next e + va.toNat % 2 ^ (12 + 9 * n)
    let ent := fun (i : Nat) => readPte s frame (idx / 16 * 16 + i)
    let joined : Prop := level = 1 ∧ next (ent 0) % 16 = 0 ∧ ∀ i, i < 16 → (ent i).extractLsb' 52 12 = 0 ∧ (ent i).getLsbD 0 = true ∧
      (ent i).getLsbD 6 = true ∧ (ent i).extractLsb' 1 5 = e.extractLsb' 1 5 ∧ next (ent i) = next (ent 0) + i ∧
      leafDenies s d ((ent i).getLsbD 4) (4096 * next (ent i)) = none
    (∀ l, tabFind s.l2 pl = some l → ∀ i, i < 8 → e.extractLsb' (8 * i) 8 = homeByte s pl (8 * idx % 128 + i)) ∧
    (tabFind s.l2 pl = none → ∀ i, i < 8 → e.extractLsb' (8 * i) 8 = lineByte (readSealed s f.keyid pl) (8 * idx % 128 + i)) ∧
    (¬ mayRead → walk = .error (.fault .frameNotOwned (va ||| BitVec.ofNat 64 (2 ^ 63 + level * 2 ^ 60)) s)) ∧
    (mayRead → tabFind s.ext pl ≠ none → walk = .error (.wait pl)) ∧
    (mayRead → tabFind s.ext pl = none → tabFind s.lost pl ≠ none → walk = .error (.fault .dataLost va s)) ∧
    (mayRead → tabFind s.ext pl = none → tabFind s.lost pl = none →
      (e.extractLsb' 52 12 ≠ 0 → faults .pteReserved reserved) ∧
      (e.extractLsb' 52 12 = 0 → e.getLsbD 0 = false → faults .pageAbsent va) ∧
      (e.extractLsb' 52 12 = 0 → e.getLsbD 0 = true → malformed → faults .pteReserved reserved) ∧
      (e.extractLsb' 52 12 = 0 → e.getLsbD 0 = true → ¬ malformed → leaf → ∃ u t, walk = .ok ({ pa := pa, perms := perms }, u) ∧
        u = { keepTraffic s u with free := u.free } ∧ u.walk = s.walk ∧ t ∈ u.tlb ∧ t.unit = unitOf d va ∧ t.dom = d ∧ t.perms = perms ∧
        t.g = e.getLsbD 5 ∧ t.vpn = va.toNat / 2 ^ t.log ∧ t.ppn * 2 ^ t.log + va.toNat % 2 ^ t.log = pa ∧ t.tables = frame :: above ∧
        (joined → t.log = 16) ∧ (¬ joined → t.log = 12 + 9 * n)) ∧
      (e.extractLsb' 52 12 = 0 → e.getLsbD 0 = true → ¬ malformed → ¬ leaf → ∃ u, walk = walkFrom u d meter va (frame :: above) n (next e) ∧
        u = keepTraffic s u ∧ u.tlb = s.tlb))

/-- R78 R94 R95 R102 R110, R100 steps 4 to 7: a translation. It begins at a translation entry that covers the address, else at the lowest table
of a walk cache, else at TROOT, whose EN must be set; a leaf that is found must allow the access in its mode, lie in a range that the
domain may map, and, in memory, in a frame whose state lets it; last come a poisoned-lost line, unless the access heals it, and a line that
an outside host holds. -/
def Clauses.LeafChecks : Prop :=
  ∀ (s : State) (d meter : Nat) (kernel heal : Bool) (need : Need) (va : Word), va.toNat < 2 ^ 57 →
    let root := (s.getDom d).troot
    let covers := fun (t : TEntry) => t.unit = unitOf d va ∧ t.dom = d ∧ t.vpn = va.toNat / 2 ^ t.log
    let cold : Prop := ∀ t ∈ s.tlb, ¬ covers t
    let found := findLeaf s d meter va
    let answer := translate s d meter kernel need va heal
    (∀ t r, s.tlb = t :: r → covers t → found = .ok ({ pa := t.ppn * 2 ^ t.log + va.toNat % 2 ^ t.log, perms := t.perms }, s)) ∧
    (cold → root.getLsbD 0 = false → answer = .error (.fault .pageAbsent va s)) ∧
    (cold → root.getLsbD 0 = true → (∀ w ∈ s.walk, w.dom ≠ d) → found = walkFrom s d meter va [] 5 (root.extractLsb' 12 40).toNat) ∧
    (∀ w, cold → root.getLsbD 0 = true → s.walk = [w] → w.dom = d → w.unit = unitOf d va → 1 ≤ w.level → w.level ≤ 4 →
      w.prefix_ = va.toNat / 2 ^ (12 + 9 * w.level) → found = walkFrom s d meter va w.tables w.level w.frame) ∧
    (∀ c v t, found = .error (.fault c v t) → answer = .error (.fault c v t)) ∧
    (∀ l u, found = .ok (l, u) →
      let bits : Prop := match need with
        | .load => l.perms.r = true
        | .store => l.perms.w = true
        | .both => l.perms.r = true ∧ l.perms.w = true
        | .fetch => l.perms.x = true
      let allowed : Prop := bits ∧ (l.perms.k = false ∨ kernel = true)
      let stops := fun (c : Cause) => answer = .error (.fault c va u)
      let lost : Prop := tabFind u.lost (l.pa / 128) ≠ none ∧ heal = false
      let passes : Prop := (lost → stops .dataLost) ∧
        (¬ lost → tabFind u.ext (l.pa / 128) ≠ none → answer = .error (.wait (l.pa / 128))) ∧
        (¬ lost → tabFind u.ext (l.pa / 128) = none → answer = .ok (l, u))
      let f := getFrame u (l.pa / 4096)
      let peer : Prop := f.peer = d ∧ f.peer ≠ f.owner
      let open_ : Prop := f.state = .lent ∨ (f.state = .recalling ∧ f.closing = false ∧ u.time < f.deadline)
      let yes : Prop := (f.owner = d ∧ f.state ∈ [FrameState.owned, .lent, .recalling]) ∨ (peer ∧ open_)
      let revoked : Prop := peer ∧ f.state ∈ [FrameState.owned, .recalling] ∧ ¬ open_
      let only := fun (may : Prop) => (may → passes) ∧ (¬ may → stops .frameNotOwned)
      (¬ allowed → stops .pagePerm) ∧
      (allowed → match regionOf l.pa with
        | .bonded | .second => (yes → passes) ∧ (revoked → stops .frameRevoked) ∧ (¬ yes → ¬ revoked → stops .frameNotOwned)
        | .hostWindow n => only (d = n + 1)
        | .cxl => only (d = 1)
        | .control _ => only (l.perms.k = true ∧ (d = 1 ∨ d = 2))
        | .coreWindow _ | .security | .unpopulated => stops .window))

/-- What an access faults on, in the order of R100: through the L1, in a walk, and at the leaf found: each clause cites its rules. -/
def Obligations.AccessFaults : Prop := Clauses.HitFaults ∧ Clauses.WalkLevels ∧ Clauses.LeafChecks

/-- R208 R211: the stores. Where the access is made the word completes in the state after it; where it faults, the store
traps with that cause and EVAL. -/
def Clauses.StoreResults : Prop :=
  ∀ (a b : SReg) (m : BitVec 13) (s : State),
    let ea := s.getS a + BitVec.signExtend 64 m
    let rule := fun (i : Instr) (n : Nat) => Issues i s →
      (∀ u, storeBytes s ea n ((s.getS b).toNat % 2 ^ (8 * n)) none = .ok u → Completes i s u .seq []) ∧
      (∀ c w k, storeBytes s ea n ((s.getS b).toNat % 2 ^ (8 * n)) none = .error (.fault c w k) → TrapsAfter i s k c w)
    rule (.stB a b m) 1 ∧ rule (.stH a b m) 2 ∧ rule (.stW a b m) 4 ∧ rule (.stD a b m) 8

/-- What loads and stores of each width do: each clause cites its rules. -/
def Obligations.LoadsAndStores : Prop := Clauses.LoadResults ∧ Clauses.StoreResults

/-- R81 R211 R114: what a store that hits the L1 writes, and its frame: the stored bytes of the line at the computed address,
valid and dirty, and the same bytes of the core's lines that hold the same physical line for the domain under another
address (log 79, the model's choice); every other byte of every L1, every byte at a home slice or in memory, and every scratchpad
as before, and no other state. -/
def Clauses.StoreHitFrame : Prop :=
  ∀ (s : State) (va : Word) (n x : Nat) (l : L1Line), HitsL1 s .store .store va n l → n ∈ [1, 2, 4, 8, 16] → x < 2 ^ (8 * n) →
    (∀ k, regionOf (128 * l.pl) ≠ .control k) →
    ∃ u, storeBytes s va n x none = .ok u ∧
      (∀ i, i < n → l1Byte u s.core s.act.dom (vlineOf va) (va.toNat % 128 + i) = some (BitVec.ofNat 8 (x / 2 ^ (8 * i)))) ∧
      (∀ vl k i, findL1 s s.core s.act.dom vl = some k → k.pl = l.pl → i < n → k.valid.getLsbD (va.toNat % 128 + i) = true →
        l1Byte u s.core s.act.dom vl (va.toNat % 128 + i) = some (BitVec.ofNat 8 (x / 2 ^ (8 * i)))) ∧
      (∀ c d vl j, (c ≠ s.core ∨ d ≠ s.act.dom ∨ (vl ≠ vlineOf va ∧ ∀ k, findL1 s c d vl = some k → k.pl ≠ l.pl) ∨
          j < va.toNat % 128 ∨ va.toNat % 128 + n ≤ j) →
        l1Byte u c d vl j = l1Byte s c d vl j) ∧
      (∀ pl i, homeByte u pl i = homeByte s pl i) ∧ (∀ c o, spadByte u c o = spadByte s c o) ∧
      u = { s with cores := u.cores } ∧ (∀ c, u.getCore c = { s.getCore c with l1 := (u.getCore c).l1 })

/-- R81 R85 R86 R208 R114: what an access through the L1 leaves alone when it misses. Scratchpads and the activation are untouched;
and where neither the L1 nor the line's set at its home slice must give up a line for it (01 R21 R25; which one leaves is open, log 5),
the line it fills, and the core's lines that hold the same physical line for the domain (log 79, the model's choice), are the only
lines of an L1 that change, dirty bytes there stay, and memory is untouched. -/
def Clauses.FillFrame : Prop :=
  ∀ (s u : State) (need : Need) (va : Word) (n : Nat) (l : L1Line),
    let d := s.act.dom
    let vl := vlineOf va
    let roomL1 : Prop := findL1 s s.core d vl ≠ none ∨ (s.getCore s.core).l1.length < (if 1280 ≤ s.core then 2048 else 12288)
    let roomL2 : Prop := isDram (128 * l.pl) = false ∨ tabFind s.l2 l.pl ≠ none ∨ wayMask s (homeOf d vl) d = 0 ∨
      ∃ w, w < 24 ∧ (wayMask s (homeOf d vl) d).getLsbD w = true ∧ ∀ k ∈ setWays s d vl, k.1 ≠ w
    lineFor s s.core s.act.dom s.act.kernel need va n = .ok (l, u) →
      u.act = s.act ∧ (∀ c o, spadByte u c o = spadByte s c o) ∧
      (roomL1 → roomL2 → u.mem = s.mem ∧
      (∀ c d vl i, (c ≠ s.core ∨ d ≠ s.act.dom ∨ (vl ≠ vlineOf va ∧ ∀ k, findL1 s c d vl = some k → k.pl ≠ l.pl)) →
        l1Byte u c d vl i = l1Byte s c d vl i) ∧
      (∀ k i, findL1 s s.core s.act.dom (vlineOf va) = some k → i < 128 → k.dirty.getLsbD i = true →
        lineByte l.data i = lineByte k.data i ∧ l.dirty.getLsbD i = true))

/-- An access that its core's L1 serves, and what filling a line leaves unchanged: each clause cites its rules. -/
def Obligations.CacheHits : Prop := Clauses.LoadHit ∧ Clauses.StoreHitFrame ∧ Clauses.FillFrame

/-- R217: scratchpad loads, from the core's own scratchpad; an offset that is no multiple of the width traps MISALIGNED, and
one whose last byte lies past the size WINDOW, with the offset in EVAL. -/
def Clauses.ScratchpadLoads : Prop :=
  ∀ (d a : SReg) (m : BitVec 13) (s : State),
    let ea := s.getS a + BitVec.signExtend 64 m
    let o := ea.toNat
    let b := fun i => spadByte s s.core (o + i)
    let rule := fun (i : Instr) (n : Nat) (v : Word) => Issues i s →
      (o % n = 0 → o + n ≤ spadSize s.core → Completes i s (s.setS d v) .seq []) ∧
      (o % n ≠ 0 → Traps i s .misaligned ea) ∧ (o % n = 0 → spadSize s.core < o + n → Traps i s .window ea)
    rule (.spldW d a m) 4 (BitVec.signExtend 64 (b 3 ++ b 2 ++ b 1 ++ b 0)) ∧
    rule (.spldD d a m) 8 (b 7 ++ b 6 ++ b 5 ++ b 4 ++ b 3 ++ b 2 ++ b 1 ++ b 0)

/-- R217: scratchpad stores and their frame: the stored bytes alone change, in the core's own scratchpad. -/
def Clauses.ScratchpadStores : Prop :=
  ∀ (a r : SReg) (m : BitVec 13) (s : State), MemoryOk s →
    let ea := s.getS a + BitVec.signExtend 64 m
    let o := ea.toNat
    let rule := fun (i : Instr) (n : Nat) => Issues i s →
      (o % n = 0 → o + n ≤ spadSize s.core → ∃ u, Completes i s u .seq [] ∧
        (∀ j, j < n → spadByte u s.core (o + j) = BitVec.ofNat 8 ((s.getS r).toNat / 2 ^ (8 * j))) ∧
        (∀ c q, (c ≠ s.core ∨ q < o ∨ o + n ≤ q) → spadByte u c q = spadByte s c q) ∧
        u = { s with cores := u.cores } ∧ (∀ c, u.getCore c = { s.getCore c with spad := (u.getCore c).spad })) ∧
      (o % n ≠ 0 → Traps i s .misaligned ea) ∧ (o % n = 0 → spadSize s.core < o + n → Traps i s .window ea)
    rule (.spstW a r m) 4 ∧ rule (.spstD a r m) 8

/-- Scratchpad loads and stores: each clause cites its rules. -/
def Obligations.Scratchpad : Prop := Clauses.ScratchpadLoads ∧ Clauses.ScratchpadStores

/-- R212 R213 R118 R128 R129: LDA and STL. LDA reads through the L1 at CORE scope and at the home slice at wider ones, then
makes its acquire and has the returned stamps checked (which router detects a miss is the model's choice, log 34); STL at CORE scope stores into the L1 with a stamp, at a wider one
makes its release and stores through to the home slice. -/
def Clauses.AcquireAndRelease : Prop :=
  ∀ (d a b : SReg) (wd : Width) (sc : Scope) (s : State),
    let n := match wd with | .b => 1 | .h => 2 | .w => 4 | .d => 8
    let x := (s.getS b).toNat % 2 ^ (8 * n)
    (Issues (.lda d a wd sc) s →
      (∀ v st pl u, acquireLoad s (s.getS a) n sc = .ok (v, st, pl, u) →
        Completes (.lda d a wd sc) s (checkStamps (acquire (u.setS d (BitVec.ofNat 64 v)) (u.setS d (BitVec.ofNat 64 v)).core
          (u.setS d (BitVec.ofNat 64 v)).act.dom sc) (decide (sc = .core) && ownLine s (s.getS a) n) sc pl (vlineOf (s.getS a)) st) .seq []) ∧
      (∀ c w k, acquireLoad s (s.getS a) n sc = .error (.fault c w k) → TrapsAfter (.lda d a wd sc) s k c w)) ∧
    (Issues (.stl a b wd sc) s →
      (∀ u, (if sc = .core then storeBytes s (s.getS a) n x (some { core := s.core, scope := .core })
          else storeThrough s (s.getS a) n x sc) = .ok u → Completes (.stl a b wd sc) s u .seq []) ∧
      (∀ c w k, (if sc = .core then storeBytes s (s.getS a) n x (some { core := s.core, scope := .core })
          else storeThrough s (s.getS a) n x sc) = .error (.fault c w k) → TrapsAfter (.stl a b wd sc) s k c w))

/-- R83: what an acquire and a release do to an L1. At CORE scope nothing; wider, an acquire leaves of the domain's lines
exactly the dirty bytes, and touches no other domain's line and no other core; a release leaves no dirty byte of the
domain in the core's L1. -/
def Clauses.AcquireReleaseScope : Prop :=
  ∀ (s : State) (c d : Nat) (sc : Scope),
    (acquire s c d .core = s ∧ release s c d .core = s) ∧
    (sc ≠ .core →
      (∀ l ∈ ((acquire s c d sc).getCore c).l1, l.dom = d → l.valid = l.dirty ∧ l.valid ≠ 0) ∧
      (∀ c' d' vl, (c' ≠ c ∨ d' ≠ d) → (∀ l ∈ (s.getCore c).l1, l.valid ≠ 0) →
        findL1 (acquire s c d sc) c' d' vl = findL1 s c' d' vl) ∧
      (∀ vl l, findL1 (release s c d sc) c d vl = some l → l.dirty = 0))

/-- R214 R215 R216: PREF and the words of the cache operations. A prefetch that every check passes joins the core's outstanding requests,
one that fails a check is dropped; the cache operations act on the physical line on every L1 within their scope, under whatever
address of the domain it is held (the model's choice, log 79). -/
def Clauses.CacheWords : Prop :=
  ∀ (k : PrefKind) (a : SReg) (m : BitVec 13) (sc : Scope) (s : State),
    let va := s.getS a + BitVec.signExtend 64 m
    (Issues (.pref k a m) s →
      (prefetchOk s va (if k = .write then .store else .load) = true →
        Completes (.pref k a m) s (s.modCore s.core fun c => { c with
          pending := c.pending ++ [{ da := none, pref := some (s.act.dom, va, s.act.kernel, k), walked := false, reads := [] }] }) .seq []) ∧
      (prefetchOk s va (if k = .write then .store else .load) = false → Completes (.pref k a m) s s .seq [])) ∧
    (∀ pl u, cacheOpLine s (s.getS a) = .ok (pl, u) →
      (Issues (.cinv a sc) s →
        Completes (.cinv a sc) s (onTargets u pl sc fun s c l => dropL1 s c l.dom l.vl) .seq []) ∧
      (Issues (.cclean a sc) s → (sc ≠ .system ∨ tabFind u.ext pl = none) →
        Completes (.cclean a sc) s (if sc = .system then cleanL2 (onTargets u pl sc cleanL1) pl else onTargets u pl sc cleanL1)
          .seq []) ∧
      (Issues (.cflush a sc) s → (sc ≠ .system ∨ tabFind u.ext pl = none) →
        Completes (.cflush a sc) s (if sc = .system ∧ tabFind (onTargets u pl sc flushL1).l2 pl ≠ none then
          dropL2 (onTargets u pl sc flushL1) pl else onTargets u pl sc flushL1) .seq [])) ∧
    (∀ c w z, cacheOpLine s (s.getS a) = .error (.fault c w z) →
      (Issues (.cinv a sc) s → TrapsAfter (.cinv a sc) s z c w) ∧ (Issues (.cclean a sc) s → TrapsAfter (.cclean a sc) s z c w) ∧
      (Issues (.cflush a sc) s → TrapsAfter (.cflush a sc) s z c w))

/-- R215: what the cache operations do to a physical line. The targets are the core's own L1 and those within the scope; there CINV
drops the domain's copies with their dirty bytes, CFLUSH drops them once those bytes are at the line's home slice, and CCLEAN keeps
them clean; no other domain's line, and no other physical line, is touched. At SYSTEM scope CCLEAN and CFLUSH also put a dirty L2 line
into memory, and CFLUSH drops it. (Copies under every address of the domain are the model's choice, log 79.) -/
def Clauses.CacheTargets : Prop :=
  ∀ (s : State) (pl : Nat) (sc : Scope),
    (s.cores.map fun x => x.1).Pairwise (· < ·) → (∀ x ∈ s.cores, (x.2.l1.map fun l => (l.dom, l.vl)).Nodup) →
    let d := s.act.dom
    let target := fun (c vl : Nat) (l : L1Line) => (c = s.core ∨ covers sc s.core c = true) ∧ findL1 s c d vl = some l ∧ l.pl = pl
    let inv := onTargets s pl sc fun s c l => dropL1 s c l.dom l.vl
    let clean := onTargets s pl sc cleanL1
    let flush := onTargets s pl sc flushL1
    (∀ t ∈ [inv, flush], ∀ c vl, ((∃ l, target c vl l) → findL1 t c d vl = none) ∧
      ((¬ ∃ l, target c vl l) → findL1 t c d vl = findL1 s c d vl)) ∧
    (∀ c vl, (∀ l, target c vl l → ∃ k, findL1 clean c d vl = some k ∧ k = { l with dirty := 0 }) ∧
      ((¬ ∃ l, target c vl l) → findL1 clean c d vl = findL1 s c d vl)) ∧
    (∀ t ∈ [inv, clean, flush], ∀ c e vl, e ≠ d → findL1 t c e vl = findL1 s c e vl) ∧
    inv = { s with cores := inv.cores } ∧
    (MemoryOk s → isDram (128 * pl) = true → ∀ t ∈ [clean, flush], (∀ q i, q ≠ pl → i < 128 → homeByte t q i = homeByte s q i) ∧
      ∀ c vl l i, target c vl l → i < 128 → l.dirty.getLsbD i = true →
        (∀ c' vl' l', target c' vl' l' → l'.dirty.getLsbD i = true → c' = c ∧ vl' = vl) → homeByte t pl i = lineByte l.data i) ∧
    (∀ l, tabFind s.l2 pl = some l → tabFind (cleanL2 s pl).l2 pl = some { l with dirty := false } ∧
      (l.dirty = true → s.mem.wf = true → ∀ i, i < 128 → memGet (cleanL2 s pl).mem (128 * pl + i) = lineByte l.data i) ∧
      (l.dirty = false → (cleanL2 s pl).mem = s.mem)) ∧
    ((s.l2.map fun x => x.1).Pairwise (· < ·) → tabFind (dropL2 s pl).l2 pl = none ∧
      ∀ l, tabFind s.l2 pl = some l → l.dirty = true → s.mem.wf = true → (∀ x ∈ s.cores, ∀ k ∈ x.2.l1, k.pl ≠ pl) →
        ∀ i, i < 128 → memGet (dropL2 s pl).mem (128 * pl + i) = lineByte l.data i)

/-- Prefetches and the cache operations: each clause cites its rules. -/
def Obligations.CacheOperations : Prop := Clauses.CacheWords ∧ Clauses.CacheTargets

/-- R230: the unit-stride and scratchpad vector accesses, 16 bytes. A load's register takes the loaded tag, with bits
[127:126] zero under C6; a store of a NONE register traps TAG_NONE. -/
def Clauses.VectorAccess : Prop :=
  ∀ (t : Tag) (vd : VNum) (a : SReg) (off : BitVec 9) (s : State),
    let ea := s.getS a + 16 * BitVec.signExtend 64 off
    let o := ea.toNat
    let bits := (s.getV vd).bits
    let as := fun (v : Nat) => ({ bits := BitVec.ofNat 128 v &&& (if t = .c6 then BitVec.ofNat 128 (2 ^ 126 - 1) else BitVec.allOnes 128), tag := t } : VReg)
    (Issues (.vld t vd a off) s →
      (∀ v st u, loadBytes s ea 16 = .ok (v, st, u) → Completes (.vld t vd a off) s (u.setV vd (as v)) .seq []) ∧
      (∀ c w k, loadBytes s ea 16 = .error (.fault c w k) → TrapsAfter (.vld t vd a off) s k c w)) ∧
    (Issues (.vst vd a off) s →
      ((s.getV vd).tag = .none → Traps (.vst vd a off) s .tagNone (vd.zeroExtend 64)) ∧
      ((s.getV vd).tag ≠ .none →
        (∀ u, storeBytes s ea 16 bits.toNat none = .ok u → Completes (.vst vd a off) s u .seq []) ∧
        (∀ c w k, storeBytes s ea 16 bits.toNat none = .error (.fault c w k) → TrapsAfter (.vst vd a off) s k c w))) ∧
    (Issues (.spvld t vd a off) s → o % 16 = 0 → o + 16 ≤ spadSize s.core →
      Completes (.spvld t vd a off) s (s.setV vd (as (leNat (memBytes (s.getCore s.core).spad o 16)))) .seq []) ∧
    (Issues (.spvst vd a off) s → (s.getV vd).tag ≠ .none → o % 16 = 0 → o + 16 ≤ spadSize s.core →
      Completes (.spvst vd a off) s
        (s.modCore s.core fun c => { c with spad := memPutBytes c.spad o (leBytes 16 bits.toNat) }) .seq [])

/-- R231: strided and indexed vector accesses. The enabled lanes alone are checked, in ascending order, before any of them is
read or written; the lanes' addresses are s[a] + i × s[b], or s[a] plus the index lane times the lane's bytes. (Where a word fails
several tests, their order is the model's choice, logs 27 and 31; here none fails.) -/
def Clauses.VectorLanesAccess : Prop :=
  ∀ (t : Tag) (p : PNum) (vd vb : VNum) (a b : SReg) (s : State),
    let lanes := fun (t : Tag) (ea : Nat → Word) =>
      ((List.range (tagLanes t)).filter fun i => (s.getP p).getLsbD i).map fun i => (i, ea i)
    let stride := fun (i : Nat) => s.getS a + BitVec.ofNat 64 i * s.getS b
    let index := fun (t : Tag) (i : Nat) => s.getS a + BitVec.ofInt 64
      (laneInt (s.getV vb).tag (lane (s.getV vb).tag (s.getV vb).bits i) * (tagWidth t / 8 : Nat))
    let loads := fun (i : Instr) (ea : Nat → Word) => Issues i s → t ≠ .c6 → t ≠ .c4 → (p = 0 ∨ (s.getV vd).tag = t) → t ≠ .none →
      ∀ u v vs, checkedLanes s .load .load (tagWidth t / 8) (lanes t ea) = .ok u →
        loadLanes u (tagWidth t / 8) (lanes t ea) = .ok (vs, v) →
        Completes i s (writeLanes v p vd t fun j => ((tabFind vs j).getD 0, 0)) .seq []
    let w := s.getV vd
    let stores := fun (i : Instr) (ea : Nat → Word) => Issues i s → w.tag ≠ .none → w.tag ≠ .c6 → w.tag ≠ .c4 →
      ∀ u v, checkedLanes s .store .store (tagWidth w.tag / 8) (lanes w.tag ea) = .ok u →
        storeLanes u (tagWidth w.tag / 8) (lane w.tag w.bits) (lanes w.tag ea) = .ok v → Completes i s v .seq []
    let indexOk := fun (t : Tag) => tagInt (s.getV vb).tag = true ∧ tagLanes (s.getV vb).tag = tagLanes t
    loads (.vlds t p vd a b) stride ∧ stores (.vsts p vd a b) stride ∧
    (indexOk t → loads (.vgath t p vd a vb) (index t)) ∧ (indexOk w.tag → stores (.vscat p vd a vb) (index w.tag))

/-- Vector loads and stores, whole registers and lanes: each clause cites its rules. -/
def Obligations.VectorMemory : Prop := Clauses.VectorAccess ∧ Clauses.VectorLanesAccess

/-- R258 R259: AMO and RED. `f` is the operation on the old value and s[b]'s low bits (FADD's value is the sum rounded to
nearest even, whatever FMODE holds, with no flag); `order` REL and ACQREL release at PACKAGE first and stamp the bytes, ACQ
and ACQREL acquire at PACKAGE after. AMO writes the old value zero-extended; RED returns nothing and its acquire is the
cache action only (that its bytes are stamped as AMO's is the model's choice, log 83, and so is the agent that detects a scope miss,
log 34). A fault of the access traps with its cause and EVAL. -/
def Clauses.AtomicResults : Prop :=
  ∀ (d a b : SReg) (wd : AWidth) (o : Order) (s : State),
    let n := match wd with | .w => 4 | .d => 8
    let ea := s.getS a
    let rel : Bool := decide (o = .rel ∨ o = .acqrel)
    let acq : Bool := decide (o = .acq ∨ o = .acqrel)
    let pre := fun s => if rel then release s s.core s.act.dom .package else s
    let stamp : Option Stamp := if rel then some { core := s.core, scope := .package } else none
    let y := (s.getS b).toNat % 2 ^ (8 * n)
    let at_ := fun (op : AmoOp) => atomicAccess s ea n pre fun old => (some (op.apply n old y, stamp), old)
    let amo := fun (i : Instr) (op : AmoOp) => Issues i s →
      (∀ old h u, at_ op = .ok (old, h, u) →
        let v := u.setS d (BitVec.ofNat 64 old)
        Completes i s (if acq then checkStamps (acquire v v.core v.act.dom .package) false .package h.pl h.vl h.stamps else v) .seq
          (homeTerms u h ea)) ∧
      (∀ c w k, at_ op = .error (.fault c w k) → TrapsAfter i s k c w)
    let red := fun (i : Instr) (op : AmoOp) => Issues i s →
      (∀ old h u, at_ op = .ok (old, h, u) →
        Completes i s (if acq then acquire u u.core u.act.dom .package else u) .seq (homeTerms u h ea)) ∧
      (∀ c w k, at_ op = .error (.fault c w k) → TrapsAfter i s k c w)
    amo (.amoAdd d a b wd o) .add ∧ amo (.amoAnd d a b wd o) .and ∧ amo (.amoOr d a b wd o) .or ∧
    amo (.amoXor d a b wd o) .xor ∧ amo (.amoMin d a b wd o) .min ∧ amo (.amoMax d a b wd o) .max ∧
    amo (.amoMinn d a b wd o) .minn ∧ amo (.amoMaxn d a b wd o) .maxn ∧ amo (.amoSwap d a b wd o) .swap ∧
    amo (.amoFadd d a b wd o) .fadd ∧
    red (.redAdd a b wd o) .add ∧ red (.redAnd a b wd o) .and ∧ red (.redOr a b wd o) .or ∧ red (.redXor a b wd o) .xor ∧
    red (.redMin a b wd o) .min ∧ red (.redMax a b wd o) .max ∧ red (.redMinn a b wd o) .minn ∧
    red (.redMaxn a b wd o) .maxn ∧ red (.redFadd a b wd o) .fadd

/-- R258: op(old, y) of AMO and RED on values of w = 8n bits, FADD apart. -/
def Clauses.AtomicOperations : Prop :=
  ∀ (n x y : Nat), (n = 4 ∨ n = 8) → x < 2 ^ (8 * n) → y < 2 ^ (8 * n) →
    let bx := BitVec.ofNat (8 * n) x
    let b_y := BitVec.ofNat (8 * n) y
    AmoOp.apply .add n x y = (bx + b_y).toNat ∧ AmoOp.apply .and n x y = (bx &&& b_y).toNat ∧
    AmoOp.apply .or n x y = (bx ||| b_y).toNat ∧ AmoOp.apply .xor n x y = (bx ^^^ b_y).toNat ∧
    AmoOp.apply .min n x y = (if b_y.toInt < bx.toInt then y else x) ∧
    AmoOp.apply .max n x y = (if bx.toInt < b_y.toInt then y else x) ∧
    AmoOp.apply .minn n x y = min x y ∧ AmoOp.apply .maxn n x y = max x y ∧ AmoOp.apply .swap n x y = y

/-- R260 R261: CAS and CHUNK. CAS releases, at the home slice stores s[b]'s low bits if the old value equals s[d]'s, writes the
old value zero-extended and acquires; CHUNK performs the step of R63 on 32 bytes, of which it writes NEXT, and writes start and count
(that NEXT's bytes then carry no stamps is the model's choice, log 37, and so is the agent that detects a scope miss, log 34). -/
def Obligations.CasAndChunk : Prop :=
  ∀ (d a b : SReg) (wd : AWidth) (s : State),
    let n := match wd with | .w => 4 | .d => 8
    let ea := s.getS a
    let pre := fun s : State => release s s.core s.act.dom .package
    let acq := fun (u : State) (h : HomeLine) => checkStamps (acquire u u.core u.act.dom .package) false .package h.pl h.vl h.stamps
    let swap := fun (old : Nat) => ((if old = (s.getS d).toNat % 2 ^ (8 * n) then
      some ((s.getS b).toNat % 2 ^ (8 * n), some ({ core := s.core, scope := .package } : Stamp)) else none), old)
    (Issues (.cas d a b wd) s →
      (∀ old h u, atomicAccess s ea n pre swap = .ok (old, h, u) →
        Completes (.cas d a b wd) s (acq (u.setS d (BitVec.ofNat 64 old)) h) .seq (homeTerms u h ea)) ∧
      (∀ c w k, atomicAccess s ea n pre swap = .error (.fault c w k) → TrapsAfter (.cas d a b wd) s k c w)) ∧
    (Issues (.chunk d a) s →
      (∀ start count h u, blockAccess s (some .both) ea 32 [(0, 8)] pre (fun x => (some ((chunkStep x).2.2, none), ((chunkStep x).1, (chunkStep x).2.1)))
          = .ok ((start, count), h, u) →
        Completes (.chunk d a) s (acq ((u.setS d (BitVec.ofNat 64 start)).setS (d + 1) (BitVec.ofNat 64 count)) h) .seq
          (homeTerms u h ea)) ∧
      (∀ c w k, blockAccess s (some .both) ea 32 [(0, 8)] pre (fun x => (some ((chunkStep x).2.2, none), ((chunkStep x).1, (chunkStep x).2.1)))
          = .error (.fault c w k) → TrapsAfter (.chunk d a) s k c w))

/-- R63: the step of a chunk block of four unsigned 64-bit words NEXT, END, MIN and DIVISOR: start, count, and the block after it. `up` is
ceil(rem / d). A count of 0 is exactly an exhausted block. -/
def Obligations.ChunkStep : Prop :=
  ∀ (next end_ mn dv : Nat), next < 2 ^ 64 → end_ < 2 ^ 64 → mn < 2 ^ 64 → dv < 2 ^ 64 →
    let block := fun (n : Nat) => n + 2 ^ 64 * end_ + 2 ^ 128 * mn + 2 ^ 192 * dv
    let rem := if next < end_ then end_ - next else 0
    let m := max mn 1
    let d := max dv 1
    ∀ up, rem ≤ up * d → (up = 0 ∨ (up - 1) * d < rem) →
      let count := min rem (max m up)
      chunkStep (block next) = (next, count, block (next + count)) ∧ (count = 0 ↔ end_ ≤ next)

/-- R86 R106 R123 R246: an atomic operation on a line that its home slice holds under the activation's own tag, that is in no L1
of its core, and whose frame is no loan past its deadline: the old bytes are read and the new ones stored there as one step; every other byte of every home slice, of
memory and of every L1 reads as before. -/
def Clauses.AtomicAtHome : Prop :=
  ∀ (s : State) (va : Word) (n : Nat) (pl : Nat) (l : L2Line) (f : Nat → Option (Nat × Option Stamp) × Nat) (x : Nat)
    (st : Option Stamp),
    n ∈ [4, 8, 32, 64] → va.toNat < 2 ^ 57 → va.toNat % n = 0 → findL1 s s.core s.act.dom (vlineOf va) = none →
    findL2 s s.act.dom (vlineOf va) = some (pl, l) → tabFind s.l2 pl = some l → l.perms.r = true → l.perms.w = true →
    (l.perms.k = false ∨ s.act.kernel = true) → tabFind s.ext pl = none → closedTo s s.act.dom pl = false → watchHit s .both va n = false →
    (∀ k ∈ (s.getCore s.core).l1, k.dom = s.act.dom → k.pl ≠ pl) →
    let old := (List.range n).foldr (fun i acc => (homeByte s pl (va.toNat % 128 + i)).toNat + 256 * acc) 0
    (f old).1 = some (x, st) → x < 2 ^ (8 * n) →
    ∃ h u, atomicAccess s va n (fun s => s) f = .ok ((f old).2, h, u) ∧ h.pl = pl ∧
      (∀ i, i < n → homeByte u pl (va.toNat % 128 + i) = BitVec.ofNat 8 (x / 2 ^ (8 * i))) ∧
      (∀ q i, (q ≠ pl ∨ i < va.toNat % 128 ∨ va.toNat % 128 + n ≤ i) → i < 128 → homeByte u q i = homeByte s q i) ∧
      (∀ c d vl i, l1Byte u c d vl i = l1Byte s c d vl i) ∧ u.mem = s.mem ∧ u.act = s.act

/-- The atomics: where they are performed, what they return and what they leave: each clause cites its rules. -/
def Obligations.Atomics : Prop := Clauses.AtomicResults ∧ Clauses.AtomicOperations ∧ Clauses.AtomicAtHome

/-- R262 R268 R132 R134: FENCE and ISYNC. A release FENCE writes back at its scope and widens the core's stamps, an acquire one
invalidates at its scope, FULL does the one and then the other; ISYNC releases and then empties the instruction cache of
every core within its scope (under whatever address, log 79, the model's choice). None traps. -/
def Clauses.Fences : Prop :=
  ∀ (sc : Scope) (s : State),
    let rel := widenStamps (release s s.core s.act.dom sc) s.core sc
    (Issues (.fenceRel sc) s → Completes (.fenceRel sc) s rel .seq []) ∧
    (Issues (.fenceAcq sc) s → Completes (.fenceAcq sc) s (acquire s s.core s.act.dom sc) .seq []) ∧
    (Issues (.fenceFull sc) s → ∃ u, Completes (.fenceFull sc) s u .seq [] ∧ u = acquire rel rel.core rel.act.dom sc) ∧
    (Issues (.isync sc) s → ∃ u, Completes (.isync sc) s u .seq [] ∧ u = { release s s.core s.act.dom sc with cores := u.cores } ∧
      (∀ c, covers sc s.core c = true → (u.getCore c).l1i = []) ∧
      (∀ c, covers sc s.core c = false → u.getCore c = (release s s.core s.act.dom sc).getCore c))

/-- Acquire loads, release stores and fences at each scope: each clause cites its rules. -/
def Obligations.AcquireRelease : Prop := Clauses.AcquireAndRelease ∧ Clauses.AcquireReleaseScope ∧ Clauses.Fences

/-- R263: the pass rule. With DEFER 0 it moves ARRIVED / EXPECT whole phases on (EXPECT 0 read as 1), so that ARRIVED is below
EXPECT after it; with a deferred arrival outstanding it changes nothing. Phase p has passed when (PHASE − p) mod 2^32 is 1 to
2^31. -/
def Clauses.BarrierRules : Prop :=
  ∀ (b p : Nat), b < 2 ^ 512 → p < 2 ^ 32 →
    let word := fun (x i : Nat) => x / 2 ^ (64 * i) % 2 ^ 64
    let expect := max (word b 0 % 2 ^ 32) 1
    let arrived := word b 1 % 2 ^ 32
    let phase := word b 2 % 2 ^ 32
    let defer := word b 3 % 2 ^ 32
    (defer ≠ 0 → passRule b = b) ∧
    (defer = 0 →
      word (passRule b) 1 % 2 ^ 32 = arrived % expect ∧ word (passRule b) 2 % 2 ^ 32 = (phase + arrived / expect) % 2 ^ 32 ∧
      word (passRule b) 0 = word b 0 ∧ ∀ i, 2 < i → word (passRule b) i = word b i) ∧
    (phasePassed b p = true ↔ 1 ≤ (phase + 2 ^ 32 - p) % 2 ^ 32 ∧ (phase + 2 ^ 32 - p) % 2 ^ 32 ≤ 2 ^ 31)

/-- R264 R265 R266 R267, 21 R305: the barrier and join instructions, each at the home slice of s[a], 64 bytes: BARINIT; BARRIVE and
BARRIVED (after a release at the block's SCOPE; `jobs` are the Reeve jobs the activation issued that have not landed, which
only BARRIVED waits for); BARTRY; BARWAIT past a phase that has passed, and its stall before that; JINIT, once its block passes its
check, on a valid entry of LEN at most 6, and its traps on another: on the trap endpoints 254 and 255 ENDPOINT (21 R305). What is
written of a block is BARINIT's words, the three counts, or JINIT's first two words. (A block whose SCOPE is 5 to 7 is taken as SYSTEM, the
model's choice, log 85.) -/
def Clauses.BarrierInstructions : Prop :=
  ∀ (d a b : SReg) (sc : Scope) (s : State),
    let ea := s.getS a
    let p := ((s.getS b).extractLsb' 0 32).toNat
    let here := fun s : State => s
    let read := fun (s : State) => atomicAccess s ea 64 here fun x => (none, barScope x)
    let poll := atomicAccess s ea 64 here fun x => (none, (phasePassed x p, barScope x))
    let arrives := fun (i : Instr) (jobs : List Nat) => Issues i s →
      ∀ k h1 s1 phase h s2, read s = .ok (k, h1, s1) →
        blockAccess s1 (some .both) ea 64 [(8, 4), (16, 4), (24, 4)] (fun s => release s s.core s.act.dom k) (fun x =>
          let y := blockSet32 x 8 (barArrived x + 1)
          (some (passRule (if jobs = [] then y else blockSet32 y 24 (barDefer y + 1)), none),
            barPhase x + barArrived x / barExpect x)) = .ok (phase, h, s2) →
        let s3 := s2.setS d (BitVec.ofNat 64 phase)
        Completes i s (if jobs = [] then s3 else { s3 with defers := s3.defers ++
          [{ dom := s.act.dom, core := s.core, kernel := s.act.kernel, block := ea, jobs := jobs }] }) .seq (homeTerms s2 h ea)
    arrives (.barrive d a) [] ∧ arrives (.barrived d a) (reeveUnlanded s) ∧
    (Issues (.barinit a b sc) s → ∀ x h u,
      blockAccess s (some .both) ea 64 [(0, 32)] here (fun x => (some (passRule (barBlock x p sc), none), ())) = .ok (x, h, u) →
        Completes (.barinit a b sc) s u .seq (homeTerms u h ea)) ∧
    (Issues (.bartry d a b) s → ∀ k h u,
      (poll = .ok ((true, k), h, u) → ∃ v, v = u.setS d 1 ∧
        Completes (.bartry d a b) s (checkStamps (acquire v v.core v.act.dom k) false k h.pl h.vl h.stamps) .seq (homeTerms u h ea)) ∧
      (poll = .ok ((false, k), h, u) → Completes (.bartry d a b) s (u.setS d 0) .seq (homeTerms u h ea))) ∧
    (Issues (.barwait a b) s → ∀ k h u,
      (poll = .ok ((true, k), h, u) → Completes (.barwait a b) s (checkStamps (acquire u u.core u.act.dom k) false k h.pl h.vl h.stamps) .seq (homeTerms u h ea)) ∧
      (poll = .ok ((false, k), h, u) → Stalls (.barwait a b) s u (.barrier ea (s.getS b)))) ∧
    (Issues (.jinit d a b) s → 
      let e := ((s.getS d).extractLsb' 0 8).toNat
      let ent := endpoint s s.core e
      ∀ t, atomicCheck s ea 64 = .ok t →
      (ent.getLsbD 63 = false ∨ 254 ≤ e → TrapsAfter (.jinit d a b) s t .endpoint (BitVec.ofNat 64 e)) ∧
      (ent.getLsbD 63 = true → e < 254 → 6 < epLen ent →
        TrapsAfter (.jinit d a b) s t .msgType (BitVec.ofNat 64 (e + 2 ^ 8 * epLen ent + 2 ^ 11 * 6))) ∧
      (ent.getLsbD 63 = true → e < 254 → epLen ent ≤ 6 → ∀ m h u,
        blockAccess t (some .both) ea 64 [(0, 16)] (fun s => release s s.core s.act.dom .package) (fun x =>
          (some (joinBlock x p e s.core s.act.dom, none), continuationOf (joinBlock x p e s.core s.act.dom) ea)) = .ok (m, h, u) →
        Completes (.jinit d a b) s (if p = 0 then continuationDue u m else u) .seq (homeTerms u h ea)))

/-- R264 R267: what BARINIT and JINIT leave in a block of eight 64-bit words: EXPECT, SCOPE, and ARRIVED, PHASE and DEFER 0; COUNT,
EP, ICORE and IDOM, with W0 to W5 as they were. (That the words beyond those named are left is the model's reading, log 78.) -/
def Clauses.BlockInit : Prop :=
  ∀ (x expect e core dom : Nat) (sc : Scope), x < 2 ^ 512 → expect < 2 ^ 32 → e < 256 → core < 4096 → dom < 256 →
    let word := fun (x i : Nat) => x / 2 ^ (64 * i) % 2 ^ 64
    let b := barBlock x expect sc
    let j := joinBlock x expect e core dom
    word b 0 % 2 ^ 32 = expect ∧ word b 0 / 2 ^ 32 % 8 = sc.code.toNat ∧ word b 1 % 2 ^ 32 = 0 ∧ word b 2 % 2 ^ 32 = 0 ∧
    word b 3 % 2 ^ 32 = 0 ∧ (∀ i, 3 < i → word b i = word x i) ∧
    word j 0 % 2 ^ 32 = expect ∧ word j 1 % 256 = e ∧ word j 1 / 2 ^ 8 % 4096 = core ∧ word j 1 / 2 ^ 20 % 256 = dom ∧
    (∀ i, 1 < i → word j i = word x i)

/-- The blocks of barriers and their instructions: each clause cites its rules. -/
def Obligations.Barriers : Prop := Clauses.BarrierRules ∧ Clauses.BarrierInstructions ∧ Clauses.BlockInit

/-- R269 R270 R271 R272: the rings (HEAD and TAIL that RINFO gives of an undefined handle are the model's choice, log 86). A descriptor that is not allowed, or a handle an engine job still names, an undefined
handle, a count above COUNT, too few filled or free slots trap RING with the handle in EVAL, or stall where R271 says so. -/
def Obligations.Rings : Prop :=
  ∀ (h : HNum) (n : BitVec 4) (b d : SReg) (s : State),
    let w := s.getS b
    let k := n.toNat + 1
    let handle := tabFind (s.getCore s.core).rings h.toNat
    let put := fun r : Ring => s.modCore s.core fun x => { x with rings := tabPut x.rings h.toNat r }
    let filled := fun r : Ring => (r.tail.toNat + 2 ^ 16 - r.head.toNat) % 2 ^ 16
    let count := fun r : Ring => (r.desc.extractLsb' 37 4).toNat + 1
    let ok : Prop := w.extractLsb' 41 23 = 0 ∧ w.extractLsb' 19 5 = 0 ∧ w.extractLsb' 0 6 = 0 ∧ w.extractLsb' 24 13 ≠ 0 ∧
      (w.extractLsb' 0 19).toNat + ((w.extractLsb' 37 4).toNat + 1) * ((w.extractLsb' 24 13).toNat * 64) ≤ spadSize s.core
    (Issues (.rdef h b) s →
      (ok → ringInUse s s.core h.toNat = false →
        Completes (.rdef h b) s (put { desc := w, head := 0, tail := 0, meta_ := List.replicate 16 0, born := s.issues }) .seq []) ∧
      (¬ ok ∨ ringInUse s s.core h.toNat = true → Traps (.rdef h b) s .ring (h.zeroExtend 64))) ∧
    (handle = none → ∀ i ∈ [Instr.rwaitf h n, .rwaite h n, .radvh h n, .radvt h n], Issues i s →
      Traps i s .ring (h.zeroExtend 64)) ∧
    (∀ r, handle = some r →
      (Issues (.rwaitf h n) s → (k ≤ count r → k ≤ filled r → Completes (.rwaitf h n) s s .seq []) ∧
        (k ≤ count r → filled r < k → Stalls (.rwaitf h n) s s (.ring false h.toNat k)) ∧
        (count r < k → Traps (.rwaitf h n) s .ring (h.zeroExtend 64))) ∧
      (Issues (.rwaite h n) s → (k ≤ count r → k + filled r ≤ count r → Completes (.rwaite h n) s s .seq []) ∧
        (k ≤ count r → count r < k + filled r → Stalls (.rwaite h n) s s (.ring true h.toNat k)) ∧
        (count r < k → Traps (.rwaite h n) s .ring (h.zeroExtend 64))) ∧
      (Issues (.radvh h n) s →
        (k ≤ filled r → Completes (.radvh h n) s (put { r with head := r.head + BitVec.ofNat 16 k }) .seq []) ∧
        (filled r < k → Traps (.radvh h n) s .ring (h.zeroExtend 64))) ∧
      (Issues (.radvt h n) s →
        (k + filled r ≤ count r → Completes (.radvt h n) s (put { r with tail := r.tail + BitVec.ofNat 16 k }) .seq []) ∧
        (count r < k + filled r → Traps (.radvt h n) s .ring (h.zeroExtend 64)))) ∧
    (Issues (.rinfo d h) s →
      (handle = none → Completes (.rinfo d h) s (s.setS d 0) .seq []) ∧
      (∀ r, handle = some r → Completes (.rinfo d h) s (s.setS d
        (BitVec.ofNat 64 (r.head.toNat + 2 ^ 16 * r.tail.toNat + 2 ^ 32 * (r.desc.extractLsb' 37 4).toNat + 2 ^ 36))) .seq []))

/-- R247 R40 R41 R45 R118: what a SEND places in the injection queue: `rel` is the state it is placed in, `u` the state after it:
one message, the header with the entry's SEQ, s[a] onward as the payload, and that SEQ advanced. -/
def Clauses.SendPlaced (e : BitVec 8) (a : SReg) (n : BitVec 3) (rel u : State) : Prop :=
  let now := endpoint rel rel.core e.toNat
  let words := (List.range n.toNat).map fun i => rel.getS (a + BitVec.ofNat 6 i)
  let hdr := BitVec.ofNat 64 (e.toNat * 2 ^ 43 + rel.act.dom % 256 * 2 ^ 35 + epSeq now * 2 ^ 19 + epLen now * 2 ^ 16
    + epTag now * 2 ^ 12 + rel.core % 4096)
  u = { rel with cores := u.cores } ∧
    (u.getCore rel.core).inj = (rel.getCore rel.core).inj ++ [{ pkg := epPkg now, msg :=
      { dom := epDom now, core := epCore now, actor := epActor now, tag := epTag now, hdr := hdr,
        words := words.take (epLen now), via := 0, src := 256 * rel.core + e.toNat, reached := false } }] ∧
    endpoint u rel.core e.toNat = epAdvance now ∧ epSeq (epAdvance now) = (epSeq now + 1) % 65536 ∧
    (∀ i, i ≠ e.toNat → endpoint u rel.core i = endpoint rel rel.core i)

/-- R247 R118, 21 R305, 29 R394: a SEND that has not waited. `rel` is the state after its release at the smallest scope that covers both cores (SYSTEM
for another package); with a valid entry of LEN n, an up link and room in the injection queue it places its message there; a full queue
stalls it. An invalid entry, one only the device may use (254 and 255, 21 R305), or one of a link that is not up (29 R394) traps
ENDPOINT, another LEN MSG_TYPE. -/
def Clauses.FreshSends : Prop :=
  ∀ (e : BitVec 8) (a : SReg) (n : BitVec 3) (s : State), Issues (.send e a n) s → (∀ x, s.act.wait ≠ some (.inject x)) →
    let ent := endpoint s s.core e.toNat
    let trap := fun (c : Cause) (v : Word) => Traps (.send e a n) s c v
    let down : Prop := epPkg ent ≠ 0 ∧ (s.getPort (epPkg ent - 1)).lstate ≠ .up
    (e.toNat < 254 → ent.getLsbD 63 = true → ¬ down → epLen ent = n.toNat →
      let rel := release s s.core s.act.dom (sendScope s.core ent)
      (16 ≤ (rel.getCore s.core).inj.length → Stalls (.send e a n) s rel (.inject ent)) ∧
      ((rel.getCore s.core).inj.length < 16 → ∃ u ts, Completes (.send e a n) s u .seq ts ∧ Clauses.SendPlaced e a n rel u)) ∧
    (254 ≤ e.toNat ∨ ent.getLsbD 63 = false ∨ down → trap .endpoint (e.zeroExtend 64)) ∧
    (e.toNat < 254 → ent.getLsbD 63 = true → ¬ down → epLen ent ≠ n.toNat →
      trap .msgType (BitVec.ofNat 64 (e.toNat + 2 ^ 8 * epLen ent + 2 ^ 11 * n.toNat)))

/-- R247, 29 R394: a SEND that waits for room. It goes on waiting while the injection queue is full; then its retirement step reads the entry
again: one that is revoked, or changed beyond its SEQ, or whose link is down, traps ENDPOINT, any other takes the message. -/
def Clauses.WaitingSends : Prop :=
  ∀ (e : BitVec 8) (a : SReg) (n : BitVec 3) (s : State) (first : Word), Issues (.send e a n) s → s.act.wait = some (.inject first) →
    let ent := endpoint s s.core e.toNat
    let down : Prop := epPkg ent ≠ 0 ∧ (s.getPort (epPkg ent - 1)).lstate ≠ .up
    let same : Prop := ent.extractLsb' 16 48 = first.extractLsb' 16 48
    (16 ≤ (s.getCore s.core).inj.length → Stalls (.send e a n) s s (.inject first)) ∧
    ((s.getCore s.core).inj.length < 16 →
      (ent.getLsbD 63 = false ∨ ¬ same ∨ down → Traps (.send e a n) s .endpoint (e.zeroExtend 64)) ∧
      (ent.getLsbD 63 = true → same → ¬ down → ∃ u ts, Completes (.send e a n) s u .seq ts ∧ Clauses.SendPlaced e a n s u))

/-- SEND, when it first executes and when it has waited: each clause cites its rules. -/
def Obligations.SendMessages : Prop := Clauses.FreshSends ∧ Clauses.WaitingSends

/-- R248 R249 R118: MPOP and MPEEK. `first` is the message taken: the first of the tag reserved to this activation, else the first
of the tag's queue reserved to none. MPOP takes it and acquires, MPEEK only writes it; s[d] is the header and s[d+1] onward
the payload, zeros beyond. With none MPOP stalls and MPEEK writes all ones and zeros; no tag traps MPOP_TAG. (The scope of that
acquire is the model's reading, log 14.) -/
def Obligations.MpopMpeek : Prop :=
  ∀ (d : SReg) (t : TagNum) (s : State), 1 ≤ d.toNat → d.toNat ≤ 56 →
    let store := (s.getCore s.core).store
    let mine := fun (i : Nat) (m : Stored) => decide (m.slot = some s.slot ∧ m.msg.actor = i ∧ m.msg.tag = t.toNat)
    let free := fun (i : Nat) (m : Stored) =>
      decide (m.slot = none ∧ m.msg.dom = s.act.dom ∧ m.msg.actor = i ∧ m.msg.tag = t.toNat)
    let first := fun (i : Nat) => (store.find? (mine i)).or (store.find? (free i))
    let holds := fun (u : State) (h : Word) (ws : List Word) =>
      u.getS d = h ∧ (∀ j, j < 7 → u.getS (d + BitVec.ofNat 6 (j + 1)) = ws.getD j 0) ∧
      (∀ r, (r.toNat < d.toNat ∨ d.toNat + 7 < r.toNat) → u.getS r = s.getS r)
    (∀ i, (∀ x, s.act.actor = some i → findTag s s.core i t.toNat = some x →
      (∀ m, first i = some m →
        (Issues (.mpop d t) s → ∃ u, Completes (.mpop d t) s u .seq [] ∧ holds u m.msg.hdr m.msg.words ∧
          (u.getCore s.core).store.length + 1 = store.length ∧ (∀ k ∈ (u.getCore s.core).store, k ∈ store) ∧
          u.mem = s.mem ∧ (∀ c o, spadByte u c o = spadByte s c o)) ∧
        (Issues (.mpeek d t) s → ∃ u, Completes (.mpeek d t) s u .seq [] ∧ holds u m.msg.hdr m.msg.words ∧ u.cores = s.cores)) ∧
      (first i = none →
        (Issues (.mpop d t) s → Stalls (.mpop d t) s s (.mpop t.toNat)) ∧
        (Issues (.mpeek d t) s → ∃ u, Completes (.mpeek d t) s u .seq [] ∧ holds u (BitVec.allOnes 64) [])))) ∧
    ((s.act.actor = none ∨ ∃ i, s.act.actor = some i ∧ findTag s s.core i t.toNat = none) →
      (Issues (.mpop d t) s → Traps (.mpop d t) s .mpopTag (t.zeroExtend 64)) ∧
      (Issues (.mpeek d t) s → Traps (.mpeek d t) s .mpopTag (t.zeroExtend 64)))

/-- R251 R252: TAGEN and TAGDIS set and clear the enable bit of a tag of the activation's own actor, tag 15 apart; TAGPEND counts
the tag's messages in its spill ring, the overflow buffer, the arrival store (unreserved and reserved), with NET, BOUND,
EN and P. No tag traps MPOP_TAG. (That NET shows messages that wait at the core, and not those still on their way, is the model's
choice, log 24; so is that a message reserved to a stalled MPOP counts as reserved, log 45.) -/
def Obligations.TagControl : Prop :=
  ∀ (d : SReg) (t : TagNum) (i : Nat) (e : TagEnt) (s : State),
    let own := s.act.actor = some i ∧ findTag s s.core i t.toNat = some e
    let none_ : Prop := s.act.actor = none ∨ ∃ i, s.act.actor = some i ∧ findTag s s.core i t.toNat = none
    let x := s.getCore s.core
    let is := fun (m : Msg) => m.actor = i ∧ m.tag = t.toNat
    let ring := e.tail - e.head
    let ovf := x.ovf.countP fun m => decide (is m.msg)
    let st := x.store.countP fun m => decide (m.slot = none ∧ m.msg.dom = s.act.dom ∧ is m.msg)
    let rsv := x.store.countP fun m => decide (m.slot ≠ none ∧ is m.msg)
    let net := decide (∃ m ∈ s.flight, m.reached = true ∧ m.core = s.core ∧ some m.dom = x.dom ∧ is m)
    (own → t ≠ 15 → Issues (.tagen t) s → Completes (.tagen t) s (putTag s s.core i t.toNat { e with en := true }) .seq []) ∧
    (own → t ≠ 15 → Issues (.tagdis t) s → Completes (.tagdis t) s (putTag s s.core i t.toNat { e with en := false }) .seq []) ∧
    (own → Issues (.tagpend d t) s → ∃ v : Word, Completes (.tagpend d t) s (s.setS d v) .seq [] ∧
      (ring < 2 ^ 17 → ovf < 2 ^ 4 → st < 2 ^ 9 → rsv < 2 ^ 9 →
        v.extractLsb' 48 16 = 0 ∧ (v.extractLsb' 31 17).toNat = ring ∧ (v.extractLsb' 27 4).toNat = ovf ∧
        (v.extractLsb' 18 9).toNat = st ∧ v.extractLsb' 13 5 = 0 ∧ (v.extractLsb' 4 9).toNat = rsv ∧ v.getLsbD 3 = net ∧
        v.getLsbD 2 = decide (e.entry ≠ 0) ∧ v.getLsbD 1 = e.en ∧
        v.getLsbD 0 = (decide (ring ≠ 0 ∨ ovf ≠ 0 ∨ st ≠ 0) || net))) ∧
    (none_ ∨ t = 15 → ∀ j ∈ [Instr.tagen t, .tagdis t], Issues j s → Traps j s .mpopTag (t.zeroExtend 64)) ∧
    (none_ → Issues (.tagpend d t) s → Traps (.tagpend d t) s .mpopTag (t.zeroExtend 64))

/-- R253 R254 R66 R70 R59 R60 R368: ENDH and ENDJ, outside a save routine and unstepped: the slot is free. ENDJ first decrements COUNT at the home
slice (four bytes of the block), unwatched, after a release at PACKAGE; with COUNT 0 it raises JOB_ERROR, and COUNT reaching 0 makes the continuation due. -/
def Clauses.Endings : Prop :=
  ∀ (a : SReg) (s : State), s.live = true → s.act.saving = none → s.act.halt ≠ .step →
    let ea := s.getS a
    let freed := fun (t : State) => t.live = false ∧ t.act = Act.blank ∧ t.core = s.core ∧ t.slot = s.slot
    (Issues .endh s → ∃ t, Steps .endh s t ∧ freed t ∧ (grantOf s s.act.dom = none → t.mem = s.mem)) ∧
    (Issues (.endj a) s → ∀ b h u,
      let step := fun (x : Nat) => (if x % 2 ^ 32 = 0 then none else some (blockSet32 x 0 (x % 2 ^ 32 - 1)), x)
      blockAccess s none ea 64 [(0, 4)] (fun s => release s s.core s.act.dom .package) (fun x => ((step x).1.map fun y => (y, none), x)) = .ok (b, h, u) →
      let n := b % 2 ^ 32
      ∃ v t, v = (if n = 0 then joinError u u.act.dom ea else if n = 1 then continuationDue u (continuationOf b ea) else u) ∧
        Steps (.endj a) s t ∧ t = endAct (chargeAct v (retireTerms (Instr.endj a).word ++ homeTerms u h ea)) v.core v.slot
          (chargeAct v (retireTerms (Instr.endj a).word ++ homeTerms u h ea)).act v.act.pc) ∧
    (∀ c w k, blockAccess s none ea 64 [(0, 4)] (fun s => release s s.core s.act.dom .package) (fun x => ((none : Option (Nat × Option Stamp)), x))
      = .error (.fault c w k) → Issues (.endj a) s → TrapsAfter (.endj a) s k c w)

/-- R255 R56 R57: FORK pushes one task record (ARG5 at 0x38 is the model's choice, log 88) at the bottom of the core's deque after a
release at the STEAL scope of the runtime actor; a full deque first moves its oldest records to the ring, 32 or as many as fit, and a ring that
cannot be written leaves both as before; a bad entry or join address, and a deque and ring both full, trap with nothing pushed. -/
def Clauses.Forks : Prop :=
  ∀ (a b : SReg) (s : State), Issues (.fork a b) s →
    let x := s.getS a
    let y := s.getS b
    let good := x.toNat < 2 ^ 57 ∧ x.toNat % 4 = 0 ∧ (y = 0 ∨ (y.toNat < 2 ^ 57 ∧ y.toNat % 64 = 0))
    let record : List Word := [BitVec.ofNat 64 ((if s.act.kernel then 1 else 0) * 2 ^ 59 + s.act.prio % 4 * 2 ^ 57 + x.toNat), y,
      s.getS 8, s.getS 9, s.getS 10, s.getS 11, s.getS 12, s.getS 13]
    (good → s.act.prio < 4 → (s.getCore s.core).deque.length < 64 → ∃ u rel, Completes (.fork a b) s u .seq [] ∧
      rel = release s s.core s.act.dom (forkScope s) ∧ u = { rel with cores := u.cores } ∧
      (u.getCore s.core).deque = (rel.getCore s.core).deque ++ [record]) ∧
    (good → 64 ≤ (s.getCore s.core).deque.length → ringCap s s.core ≤ ringCount (s.getCore s.core) →
      Traps (.fork a b) s .ring 0xFFFF) ∧
    (good → s.act.prio < 4 → 64 ≤ (s.getCore s.core).deque.length → ringCount (s.getCore s.core) < ringCap s s.core →
      let moved := dequeToRing (release s s.core s.act.dom (forkScope s)) s.core s.act.dom
        (min 32 (ringCap s s.core - ringCount (s.getCore s.core)))
      (∀ w, moved = .ok w → ∃ u, Completes (.fork a b) s u .seq [] ∧ u = { w with cores := u.cores } ∧
        (u.getCore w.core).deque = (w.getCore w.core).deque ++ [record]) ∧
      (∀ c v w, moved = .error (.fault c v w) → ∃ k, TrapsAfter (.fork a b) s k c v ∧ k.act = s.act ∧ k.cores = s.cores ∧
        k.mem = s.mem ∧ k.l2 = s.l2)) ∧
    (2 ^ 57 ≤ x.toNat → Traps (.fork a b) s .pageAbsent x) ∧
    (x.toNat < 2 ^ 57 → x.toNat % 4 ≠ 0 → Traps (.fork a b) s .misaligned x) ∧
    (x.toNat < 2 ^ 57 → x.toNat % 4 = 0 → y ≠ 0 → (2 ^ 57 ≤ y.toNat ∨ y.toNat % 64 ≠ 0) → Traps (.fork a b) s .misaligned y)

/-- The ends of handlers and tasks, and FORK: each clause cites its rules. -/
def Obligations.ForkJoin : Prop := Clauses.Endings ∧ Clauses.Forks

/-- What the end of an activation in slot `k` of core `c` leaves of a state `w` that holds its record (03 R52, 21 R319): its first seven reserved
messages stay reserved to it; the others, back in their queues, may go to MPOPs stalled on that core (17 R248), and nothing else changes
but the activation itself. -/
def Clauses.RecordKept (w t : State) (c k : Nat) : Prop :=
  t = { w with cores := t.cores, act := t.act, acts := t.acts } ∧ (∀ e, e ≠ c → t.getCore e = w.getCore e) ∧
  t.getCore c = { w.getCore c with store := (t.getCore c).store } ∧
  ((t.getCore c).store.map fun m => (m.msg, m.arrived)) = ((w.getCore c).store.map fun m => (m.msg, m.arrived)) ∧
  reservedOf (t.getCore c) k = (reservedOf (w.getCore c) k).take 7 ∧
  (∀ e j y, j < 64 → ¬ (e = c ∧ j = k) → w.findAct e j = some y → (e = c → ∀ g, y.wait ≠ some (.mpop g)) → t.findAct e j = some y)

/-- What a hardware dump of activation `a` leaves (03 R72 R73, 21 R313 R319): `t` has its record at its address, the reserved messages among
it, the activation saved there, and the record of its end if it is traced (27 R375) and the report of a step not taken (27 R373); a
record that cannot be written halts the domain. (The address a trace record of a dump shows is open: log 18; DUE and the halt it keeps:
logs 36, 90; HOLDC: log 19; messages past seven: log 44.) -/
def Clauses.DumpLeaves (s t : State) (c k : Nat) (a : Act) : Prop :=
  (recordAddr s c k = none → t = haltAt s c k a.dom 2) ∧
  (∀ va, recordAddr s c k = some va →
    let parked := decide (a.status = .parked)
    let due : Bool := match a.preempt with | some p => decide (p.why = .quota) && !(s.getDom a.dom).held | none => false
    let r := recordWriteAll s a.dom (clusterOf c) c va 32
      (recordBytes a parked (if due then BitVec.ofNat 64 (2 ^ 9) else 0) (0, 0) (reservedOf (s.getCore c) k))
    (∀ line, r = .error (.wait line) → t = askBack s line) ∧
    (∀ x v z, r = .error (.fault x v z) → t = haltAt (keepTraffic s z) c k a.dom 2) ∧
    (∀ u, r = .ok u → FormOk s → k < 64 →
      let v := if a.halt = .step then unstepped u c k a else u
      let w := traceRecord { v with free := v.free + 1 } a c k true (Config.openValue v.free)
      t.findAct c k = some { a with
        status := .saved true parked, preempt := none, wait := none, decided := false,
        regs := { Regs.start with holdc := a.regs.holdc, eval := if a.halt = .hit .breakpoint then a.regs.eval else 0 },
        due := if due then some s.time else none, halt := if a.halt = .step then .group else a.halt } ∧
      Clauses.RecordKept w t c k))

/-- R256 R257 R69 R70 R319: SAFEPT does nothing without a pending pre-emption request, and inside a save routine. With one, in hardware
mode for the activation save, or where no safe point is named or its table cannot be read, the activation is dumped after the word; in host-assisted mode the device
writes the descriptor, and the save routine begins in the same slot with s7 the record's address (that it counts from the routine's first
word is the model's choice, log 77). PSAVED outside one traps ILLEGAL, and inside one, its record written complete, with the messages left
reserved to it (03 R52) and with DUE where a quota request found it due, leaves the activation saved at its safe point. A stepped word
completes before the dump (27 R371). A record that cannot be written halts the domain (21 R313, log 36). -/
def Obligations.SafePoints : Prop :=
  ∀ (n : BitVec 8) (s : State),
    let ends := fun (i : Instr) (t : State) => Steps i s (if s.act.halt = .step then stepOver s t else t)
    (Issues (.safept n) s → (s.act.preempt = none ∨ s.act.saving ≠ none) → Completes (.safept n) s s .seq []) ∧
    (Issues (.safept n) s → s.act.preempt ≠ none → s.act.saving = none →
      let dumped := fun (u : State) =>
        (s.act.halt = .step → Completes (.safept n) s u .seq []) ∧
        (s.act.halt ≠ .step → ∃ r t, Retires u .seq r ∧ Steps (.safept n) s t ∧ Clauses.DumpLeaves r t r.core r.slot r.act)
      (s.act.modes.getLsbD 0 = false → dumped s) ∧
      (s.act.modes.getLsbD 0 = true →
        (∀ s1, safePoint s s.core s.act n.toNat = .ok (none, s1) → dumped s1) ∧
        (∀ c v k, safePoint s s.core s.act n.toNat = .error (.fault c v k) → dumped (keepTraffic s k)) ∧
        (∀ line, safePoint s s.core s.act n.toNat = .error (.wait line) → Stalls (.safept n) s (askBack s line) (.line line)) ∧
        (∀ x s1, safePoint s s.core s.act n.toNat = .ok (some x, s1) → recordAddr s s.core s.slot = none → dumped s1) ∧
        (∀ save rest s1 va, safePoint s s.core s.act n.toNat = .ok (some (save, rest), s1) → recordAddr s s.core s.slot = some va →
          let r := writePieces s1 s1.act.dom s1.core va (safeRecord s1 s1.core s1.slot s1.act n.toNat false)
          (∀ s2, r = .ok s2 → ∃ u, Retires (s2.setS 7 va) .seq u ∧ ends (.safept n) { u with act := { u.act with
            pc := save, restore := rest, saving := some { addr := u.act.pc, n := n.toNat, retired := 0 } } }) ∧
          (∀ line, r = .error (.wait line) → Stalls (.safept n) s (askBack s line) (.line line)) ∧
          (∀ c v z, r = .error (.fault c v z) → ends (.safept n) (haltAt (keepTraffic s z) s.core s.slot s.act.dom 2))))) ∧
    (Issues .psaved s → s.act.saving = none → Traps .psaved s .illegal (Instr.psaved.word.zeroExtend 64)) ∧
    (∀ run va, Issues .psaved s → s.act.saving = some run → recordAddr s s.core s.slot = some va →
      let msgs := (reservedOf (s.getCore s.core) s.slot).take 7
      let due : Bool := match s.act.preempt with | some p => decide (p.why = .quota) && !(s.getDom s.act.dom).held | none => false
      let r := writePieces s s.act.dom s.core va ((0, wordBytes [recordDesc s.act 1 true false run.n msgs.length
        ||| (if due then 0x200 else 0)]) ::
        ((List.range msgs.length).map fun j => (0x500 + 64 * j, ((msgs[j]?).map fun m => msgBytes m.msg.hdr m.msg.words).getD [])))
      (∀ u, r = .ok u → FormOk s → ∃ v t, v = chargeAct u (retireTerms Instr.psaved.word) ∧ ends .psaved t ∧
        t.findAct s.core s.slot = some { v.act with
          status := .saved false false, preempt := none, wait := none, ended := false,
          saving := none, regs := Regs.start, pc := run.addr, owed := 0, btarget := 0, due := if due then some s.time else none,
          decided := false, halt := .none, noBreak := false, skip := false } ∧
        Clauses.RecordKept (traceRecord v v.act s.core s.slot true v.act.pc) t s.core s.slot) ∧
      (∀ line, r = .error (.wait line) → Stalls .psaved s (askBack s line) (.line line)) ∧
      (∀ c v z, r = .error (.fault c v z) → ends .psaved (haltAt (keepTraffic s z) s.core s.slot s.act.dom 2)))

/-- R179 R175 R142: what a predicated lane write leaves: enabled lanes hold the results, disabled lanes the bits vd had, vd carries
the result's tag, bits above its lanes are zero, each enabled lane's flags are added to FSTAT, and no other register,
line or byte changes. -/
def Clauses.VectorLaneWrites : Prop :=
  ∀ (s : State) (p : PNum) (vd : VNum) (t : Tag) (f : Nat → Nat × Nat),
    let u := writeLanes s p vd t f
    let on := fun (j : Nat) => (s.getP p).getLsbD j
    (u.getV vd).tag = t ∧ (u.getV vd).bits.toNat < 2 ^ (tagWidth t * tagLanes t) ∧
    (∀ j, j < tagLanes t → lane t (u.getV vd).bits j = if on j then (f j).1 % 2 ^ tagWidth t else lane t (s.getV vd).bits j) ∧
    (∀ k, k < 64 → (u.act.regs.fstat.getLsbD k = true ↔
      s.act.regs.fstat.getLsbD k = true ∨ ∃ j, j < tagLanes t ∧ on j = true ∧ (f j).2.testBit k = true)) ∧
    (∀ r, r ≠ vd → u.getV r = s.getV r) ∧ (∀ r, u.getS r = s.getS r) ∧ (∀ r, u.getP r = s.getP r) ∧
    u = { s with act := u.act } ∧ u.act = { s.act with regs := u.act.regs } ∧
    u.act.regs = { s.act.regs with v := u.act.regs.v, fstat := u.act.regs.fstat }

/-- R178 R179 R229: the tag tests of the two-source operations, in their order: a NONE source in the order va, vb, then vd under a
predicate; unequal tags; a tag that is neither INT nor FLT. Nothing is written. (Which of several failing tests traps, and what
EVAL shows of vd, are the model's choices: logs 27, 28, 29.) -/
def Clauses.VectorTagTraps : Prop :=
  ∀ (p : PNum) (vd va vb : VNum) (s : State),
    let t := (s.getV va).tag
    let u := (s.getV vb).tag
    let d := (s.getV vd).tag
    let two := fun (x y : Tag) => BitVec.ofNat 64 (x.code.toNat + 16 * y.code.toNat)
    ∀ i ∈ [Instr.vadd p vd va vb, .vsub p vd va vb, .vmul p vd va vb, .vmin p vd va vb, .vmax p vd va vb, .vdif p vd va vb,
        .vand p vd va vb, .vor p vd va vb, .vxor p vd va vb, .vandn p vd va vb, .vdiv p vd va vb], Issues i s →
      (t = .none → Traps i s .tagNone (va.zeroExtend 64)) ∧
      (t ≠ .none → u = .none → Traps i s .tagNone (vb.zeroExtend 64)) ∧
      (t ≠ .none → u ≠ .none → p ≠ 0 → d = .none → Traps i s .tagNone (vd.zeroExtend 64)) ∧
      (t ≠ .none → u ≠ .none → (p = 0 ∨ d ≠ .none) → t ≠ u → Traps i s .tagMismatch (two t u)) ∧
      (t ≠ .none → u = t → p ≠ 0 → d ≠ .none → d ≠ t → Traps i s .tagMismatch (two t d)) ∧
      (t ∈ [Tag.c8, .c6, .c4] → u = t → (p = 0 ∨ d = t) → Traps i s .tagMismatch (t.code.zeroExtend 64))

/-- Which lanes a predicated word writes, and the traps of tags: each clause cites its rules. -/
def Obligations.VectorLanes : Prop := Clauses.VectorLaneWrites ∧ Clauses.VectorTagTraps

/-- R232 R233 R234 R235 R136 R137: vector operations on integer lanes. x, y and z are the lanes of va, vb and vd as integers (signed under
I tags), xb and yb their bits; a result wraps to the lane's width unless it saturates, which raises SAT. A shift count of the
width or more gives 0 or the sign; a shift by an immediate of that size traps SHIFT_RANGE. -/
def Obligations.VectorIntegers : Prop :=
  ∀ (p : PNum) (vd va vb : VNum) (k : BitVec 6) (s : State),
    let t := (s.getV va).tag
    let w := tagWidth t
    let sg : Bool := decide (t ∈ [Tag.i8, .i16, .i32, .i64])
    let xb := fun (j : Nat) => lane t (s.getV va).bits j
    let yb := fun (j : Nat) => lane t (s.getV vb).bits j
    let int := fun (b : Nat) => if sg && decide (2 ^ (w - 1) ≤ b) then (b : Int) - 2 ^ w else (b : Int)
    let x := fun j => int (xb j)
    let y := fun j => int (yb j)
    let z := fun j => int (lane t (s.getV vd).bits j)
    let lo : Int := if sg then -(2 ^ (w - 1)) else 0
    let hi : Int := if sg then 2 ^ (w - 1) - 1 else 2 ^ w - 1
    let writes := fun (i : Instr) (f : Nat → Nat × Nat) => Issues i s → Completes i s (writeLanes s p vd t f) .seq []
    let wraps := fun (i : Instr) (f : Nat → Int) => writes i fun j => ((f j % 2 ^ w).toNat, 0)
    let sats := fun (i : Instr) (f : Nat → Int) => writes i fun j =>
      ((max lo (min hi (f j)) % 2 ^ w).toNat, if lo ≤ f j ∧ f j ≤ hi then 0 else 32)
    let bits := fun (i : Instr) (f : Nat → Nat) => writes i fun j => (f j, 0)
    let sra := fun (b n : Nat) => (((if 2 ^ (w - 1) ≤ b then (b : Int) - 2 ^ w else (b : Int)) / 2 ^ min n w) % 2 ^ w).toNat
    t ∈ [Tag.i8, .i16, .i32, .i64, .n8, .n16, .n32, .n64] → (p = 0 ∨ (s.getV vd).tag = t) →
    (wraps (.vabs p vd va) (fun j => |x j|) ∧ wraps (.vneg p vd va) (fun j => -x j) ∧
      bits (.vnot p vd va) (fun j => 2 ^ w - 1 - xb j) ∧
      (k.toNat < w → bits (.vshli p vd va k) (fun j => xb j * 2 ^ k.toNat % 2 ^ w) ∧
        bits (.vshri p vd va k) (fun j => xb j / 2 ^ k.toNat) ∧ bits (.vsrai p vd va k) (fun j => sra (xb j) k.toNat)) ∧
      (w ≤ k.toNat → ∀ i ∈ [Instr.vshli p vd va k, .vshri p vd va k, .vsrai p vd va k], Issues i s →
        Traps i s .shiftRange (k.zeroExtend 64))) ∧
    ((s.getV vb).tag = t →
      wraps (.vadd p vd va vb) (fun j => x j + y j) ∧ wraps (.vsub p vd va vb) (fun j => x j - y j) ∧
      wraps (.vmul p vd va vb) (fun j => x j * y j) ∧ wraps (.vmulh p vd va vb) (fun j => x j * y j / 2 ^ w) ∧
      wraps (.vmin p vd va vb) (fun j => min (x j) (y j)) ∧ wraps (.vmax p vd va vb) (fun j => max (x j) (y j)) ∧
      sats (.vadds p vd va vb) (fun j => x j + y j) ∧ sats (.vsubs p vd va vb) (fun j => x j - y j) ∧
      wraps (.vavg p vd va vb) (fun j => (x j + y j + 1) / 2) ∧ wraps (.vdif p vd va vb) (fun j => |x j - y j|) ∧
      bits (.vand p vd va vb) (fun j => xb j &&& yb j) ∧ bits (.vor p vd va vb) (fun j => xb j ||| yb j) ∧
      bits (.vxor p vd va vb) (fun j => xb j ^^^ yb j) ∧ bits (.vandn p vd va vb) (fun j => xb j &&& (2 ^ w - 1 - yb j)) ∧
      bits (.vshl p vd va vb) (fun j => xb j * 2 ^ yb j % 2 ^ w) ∧ bits (.vshr p vd va vb) (fun j => xb j / 2 ^ yb j) ∧
      bits (.vsra p vd va vb) (fun j => sra (xb j) (yb j)) ∧
      (∀ f : Nat → Nat, (∀ j b, f j < 2 ^ w ∧ (b < w → (f j).testBit b = (xb j).testBit ((b + yb j) % w))) →
        bits (.vrot p vd va vb) f) ∧
      ((s.getV vd).tag = t → wraps (.vfma p vd va vb) (fun j => z j + x j * y j) ∧
        wraps (.vfms p vd va vb) (fun j => z j - x j * y j)) ∧
      wraps (.vdiv p vd va vb) (fun j => if y j = 0 then -1 else (x j).tdiv (y j)))

/-- R232 R234 R235 R138 R139 R140 R161 R162: vector operations on floating lanes: each lane's value and flags, under FMODE's rounding mode.
VABS, VNEG and the logic act on the bits and raise nothing; the special functions trap ILLEGAL under F64. (How VEXP2 and VLOG2 are
computed, and the value where the computation leaves two candidates, are the model's choice: log 9.) -/
def Clauses.VectorFloats : Prop :=
  ∀ (p : PNum) (vd va vb : VNum) (m : RndArg) (s : State),
    let t := (s.getV va).tag
    let f := tagFmt t
    let md := rmodeOf s.act.regs.fmode
    let xb := fun (j : Nat) => lane t (s.getV va).bits j
    let yb := fun (j : Nat) => lane t (s.getV vb).bits j
    let x := fun j => unpackF f (xb j)
    let y := fun j => unpackF f (yb j)
    let z := fun j => unpackF f (lane t (s.getV vd).bits j)
    let writes := fun (i : Instr) (r : Nat → Nat × Nat) => Issues i s → Completes i s (writeLanes s p vd t r) .seq []
    let cls := match t with | .f32 => Tag.n32 | .f64 => .n64 | _ => .n16
    t ∈ [Tag.f16, .bf16, .f32, .f64] →
    ((p = 0 ∨ (s.getV vd).tag = t) →
      writes (.vabs p vd va) (fun j => (xb j % f.signBit, 0)) ∧ writes (.vneg p vd va) (fun j => (xb j ^^^ f.signBit, 0)) ∧
      writes (.vnot p vd va) (fun j => (2 ^ tagWidth t - 1 - xb j, 0)) ∧ writes (.vsqrt p vd va) (fun j => fpSqrt f md (x j)) ∧
      (t ≠ .f64 → writes (.vrcp p vd va) (fun j => fpDiv f md (.fin false 1 0) (x j)) ∧
        writes (.vrsq p vd va) (fun j => fpRsq f md (x j)) ∧ writes (.vexp2 p vd va) (fun j => fpExp2 f md (xb j) (x j)) ∧
        writes (.vlog2 p vd va) (fun j => fpLog2 f md (xb j) (x j))) ∧
      (t = .f64 → ∀ i ∈ [Instr.vrcp p vd va, .vrsq p vd va, .vexp2 p vd va, .vlog2 p vd va], Issues i s →
        Traps i s .illegal (i.word.zeroExtend 64)) ∧
      writes (.vrnd p vd va m) (fun j => fpIntegral f
        (match m with | .rne => .rne | .rtz => .rtz | .rdn => .rdn | .rup => .rup | .fmode => md) (x j)) ∧
      ((s.getV vb).tag = t →
        writes (.vadd p vd va vb) (fun j => fpAdd f md (x j) (y j)) ∧ writes (.vsub p vd va vb) (fun j => fpAdd f md (x j) (fpNeg (y j))) ∧
        writes (.vmul p vd va vb) (fun j => fpMul f md (x j) (y j)) ∧ writes (.vdiv p vd va vb) (fun j => fpDiv f md (x j) (y j)) ∧
        writes (.vmin p vd va vb) (fun j => fpMinMax f false (xb j) (yb j)) ∧
        writes (.vmax p vd va vb) (fun j => fpMinMax f true (xb j) (yb j)) ∧
        writes (.vand p vd va vb) (fun j => (xb j &&& yb j, 0)) ∧ writes (.vor p vd va vb) (fun j => (xb j ||| yb j, 0)) ∧
        writes (.vxor p vd va vb) (fun j => (xb j ^^^ yb j, 0)) ∧
        writes (.vandn p vd va vb) (fun j => (xb j &&& (2 ^ tagWidth t - 1 - yb j), 0)) ∧
        ((s.getV vd).tag = t → writes (.vfma p vd va vb) (fun j => fpFma f md (z j) (x j) (y j)) ∧
          writes (.vfms p vd va vb) (fun j => fpFma f md (z j) (fpNeg (x j)) (y j))) ∧
        (∀ r : Nat → Nat × Nat, (∀ j, r j = let q := fpAdd f md (x j) (fpNeg (y j))
            match x j, y j with
            | .fin a b e, .fin c d g => roundF f md false false (dyAdd (signedMant a b) e (-(signedMant c d)) g).1.natAbs (min e g)
            | _, _ => (if q.1 = f.nan then q.1 else q.1 % f.signBit, q.2)) → writes (.vdif p vd va vb) r))) ∧
    ((p = 0 ∨ (s.getV vd).tag = cls) → Issues (.vclass p vd va) s →
      Completes (.vclass p vd va) s (writeLanes s p vd cls fun j => (match x j with
        | .nan q => if q then 256 else 512
        | .inf n => if n then 1 else 128
        | .fin n m e => if m = 0 then (if n then 8 else 16) else if m < 2 ^ f.fb then (if n then 4 else 32)
            else (if n then 2 else 64), 0)) .seq [])

/-- R141: rounding a magnitude m / 2^k with a sign to an integer. The answer is the floor or the ceiling, exact only for an integer; to
nearest it is nearest and even on a tie, toward zero the floor, down and up the floor or ceiling by the sign. -/
def Clauses.RoundingModes : Prop :=
  ∀ (neg : Bool) (m k : Nat),
    let n := fun (md : RMode) => (roundShift md neg m k).1
    let floor := m / 2 ^ k
    let whole : Prop := 2 ^ k ∣ m
    (∀ md, ((roundShift md neg m k).2 = true ↔ whole) ∧ (whole → n md = floor) ∧ (n md = floor ∨ n md = floor + 1)) ∧
    n .rtz = floor ∧ (¬ whole → n .rdn = (if neg then floor + 1 else floor) ∧ n .rup = (if neg then floor else floor + 1)) ∧
    (∀ q : Nat, |(m : Int) - 2 ^ k * (n .rne : Int)| ≤ |(m : Int) - 2 ^ k * (q : Int)|) ∧
    (2 * (m % 2 ^ k) = 2 ^ k → n .rne % 2 = 0)

/-- R138 R139 R141 R142: what one rounding of an exact magnitude v > 0 with a sign to a format gives, bits and flags. The magnitude bits n
name the values g n, in rising order; the result is the one below or above v that the mode chooses, v itself where it is a value. A
rounded magnitude past the largest finite value is infinity with OF and NX; an inexact result raises NX, and UF where v, rounded to the
format's precision with no least exponent, is still below the least normal number. -/
def Clauses.RoundedOnce (f : Fmt) (md : RMode) (neg : Bool) (v : ℝ) (r : Nat × Nat) : Prop :=
  let g := fun (n : Nat) => if n < 2 ^ f.fb then (n : ℝ) * (2 : ℝ) ^ f.qmin
    else ((2 ^ f.fb + n % 2 ^ f.fb : Nat) : ℝ) * (2 : ℝ) ^ (f.qmin + ((n / 2 ^ f.fb : Nat) : Int) - 1)
  let normal := g (2 ^ f.fb)
  let step := (2 : ℝ) ^ (f.qmin - 1)
  let reaches : Prop := match md with
    | .rne => normal - step / 2 ≤ v
    | .rtz => False
    | .rdn => neg = true ∧ normal - step < v
    | .rup => neg = false ∧ normal - step < v
  let tiny : Prop := v < normal ∧ ¬ reaches
  ∃ n, r.1 = f.signed neg n ∧ (g f.infBits ≤ v → n = f.infBits) ∧
    (∀ lo, lo < f.infBits → g lo ≤ v → v < g (lo + 1) → (v = g lo → n = lo) ∧
      (v ≠ g lo → match md with
        | .rne => (2 * v < g lo + g (lo + 1) → n = lo) ∧ (g lo + g (lo + 1) < 2 * v → n = lo + 1) ∧
            (2 * v = g lo + g (lo + 1) → n = lo + lo % 2)
        | .rtz => n = lo
        | .rdn => n = if neg then lo + 1 else lo
        | .rup => n = if neg then lo else lo + 1)) ∧
    (n = f.infBits → r.2 = 20) ∧
    (n ≠ f.infBits → (v = g n → r.2 = 0) ∧ (v ≠ g n → tiny → r.2 = 24) ∧ (v ≠ g n → ¬ tiny → r.2 = 16))

/-- R139 R140 R161: the sum, product, fused product-sum, quotient and square root of finite values are the exact result rounded once, an exact
zero having its sign by R139 (of two zeros of one sign, the model's reading, log 30); a quotient by zero is an infinity with DZ; zero by
zero, infinity by infinity, zero times infinity, infinity less infinity, and the root of a negative number are the canonical NaN with NV; a NaN operand
gives the canonical NaN, with NV where one is signalling; every other infinite operand gives its infinity or zero exactly. -/
def Clauses.FloatResults : Prop :=
  ∀ (f : Fmt) (md : RMode) (a b c : Bool) (m n p : Nat) (e g h : Int) (x y z : Fp), f ∈ [fmtF16, fmtBF16, fmtF32, fmtF64] →
    let val := fun (s : Bool) (m : Nat) (e : Int) => (if s then -1 else 1 : ℝ) * m * (2 : ℝ) ^ e
    let rounds := fun (v : ℝ) (r : Nat × Nat) => (0 < v → Clauses.RoundedOnce f md false v r) ∧ (v < 0 → Clauses.RoundedOnce f md true (-v) r)
    let zero := fun (s : Bool) => ((f.signed s 0, 0) : Nat × Nat)
    let inf := fun (s : Bool) => ((f.signed s f.infBits, 0) : Nat × Nat)
    let bad : Nat × Nat := (f.nan, 1)
    let opposite := fun (s t : Bool) => zero (if s = t then s else decide (md = .rdn))
    let u : Fp := .fin a m e
    let v : Fp := .fin b n g
    let w : Fp := .fin c p h
    let nan := fun (l : List Fp) => (∃ s, Fp.nan s ∈ l)
    let flags := fun (l : List Fp) (r : Nat × Nat) => r.1 = f.nan ∧ (Fp.nan true ∈ l → r.2 = 1) ∧ (Fp.nan true ∉ l → r.2 = 0)
    (rounds (val a m e + val b n g) (fpAdd f md u v) ∧ (val a m e + val b n g = 0 → fpAdd f md u v = opposite a b)) ∧
    (rounds (val a m e * val b n g) (fpMul f md u v) ∧ (val a m e * val b n g = 0 → fpMul f md u v = zero (a != b))) ∧
    (rounds (val c p h + val a m e * val b n g) (fpFma f md w u v) ∧
      (val c p h + val a m e * val b n g = 0 → fpFma f md w u v = opposite (a != b) c)) ∧
    (n ≠ 0 → rounds (val a m e / val b n g) (fpDiv f md u v) ∧ (m = 0 → fpDiv f md u v = zero (a != b))) ∧
    (m ≠ 0 → fpDiv f md u (.fin b 0 g) = (f.signed (a != b) f.infBits, 2)) ∧ fpDiv f md (.fin a 0 e) (.fin b 0 g) = bad ∧
    (∀ r : ℝ, 0 < r → r * r = val false m e → Clauses.RoundedOnce f md false r (fpSqrt f md (.fin false m e))) ∧
    (fpSqrt f md (.fin a 0 e) = zero a ∧ (m ≠ 0 → fpSqrt f md (.fin true m e) = bad) ∧ fpSqrt f md (.inf true) = bad ∧ fpSqrt f md (.inf false) = inf false) ∧
    (fpAdd f md (.inf a) (.inf b) = (if a = b then inf a else bad) ∧ fpAdd f md (.inf a) v = inf a ∧ fpAdd f md u (.inf b) = inf b) ∧
    (fpMul f md (.inf a) (.inf b) = inf (a != b) ∧ fpMul f md (.inf a) v = (if n = 0 then bad else inf (a != b)) ∧
      fpMul f md u (.inf b) = (if m = 0 then bad else inf (a != b))) ∧
    (fpDiv f md (.inf a) (.inf b) = bad ∧ fpDiv f md (.inf a) v = inf (a != b) ∧ fpDiv f md u (.inf b) = zero (a != b)) ∧
    (fpFma f md (.inf c) u v = inf c ∧ (n = 0 → fpFma f md w (.inf a) v = bad ∧ fpFma f md (.inf c) (.inf a) v = bad) ∧
      (m = 0 → fpFma f md w u (.inf b) = bad ∧ fpFma f md (.inf c) u (.inf b) = bad) ∧
      (n ≠ 0 → fpFma f md w (.inf a) v = inf (a != b) ∧ fpFma f md (.inf c) (.inf a) v = if c = (a != b) then inf c else bad) ∧
      (m ≠ 0 → fpFma f md w u (.inf b) = inf (a != b) ∧ fpFma f md (.inf c) u (.inf b) = if c = (a != b) then inf c else bad) ∧
      fpFma f md w (.inf a) (.inf b) = inf (a != b) ∧ fpFma f md (.inf c) (.inf a) (.inf b) = if c = (a != b) then inf c else bad) ∧
    (nan [x, y] → flags [x, y] (fpAdd f md x y) ∧ flags [x, y] (fpMul f md x y) ∧ flags [x, y] (fpDiv f md x y)) ∧
    (nan [x] → flags [x] (fpSqrt f md x)) ∧ (nan [x, y] → flags [x, y, z] (fpFma f md z x y)) ∧
    (nan [z] → ¬ nan [x, y] → (fpFma f md z x y).1 = f.nan)

/-- Floating-point lanes, the rounding modes, and the arithmetic as exact results rounded once: each clause cites its rules. -/
def Obligations.VectorFloating : Prop := Clauses.VectorFloats ∧ Clauses.RoundingModes ∧ Clauses.FloatResults

/-- R236 R140: compares and VSEL. Bit j of pd is the comparison of lane j where the predicate enables it, and 0 elsewhere; floats
compare false against a NaN but for VCNE, and a signalling NaN in an enabled lane raises NV. VSEL selects by the predicate and
writes vd whole. -/
def Clauses.VectorCompares : Prop :=
  ∀ (p pd : PNum) (vd va vb : VNum) (s : State),
    let t := (s.getV va).tag
    let xb := fun (j : Nat) => lane t (s.getV va).bits j
    let yb := fun (j : Nat) => lane t (s.getV vb).bits j
    let on := fun (j : Nat) => decide (j < tagLanes t) && (s.getP p).getLsbD j
    let x := fun j => unpackF (tagFmt t) (xb j)
    let y := fun j => unpackF (tagFmt t) (yb j)
    let nan := fun j => fpIsNan (x j) || fpIsNan (y j)
    let int : Prop := t ∈ [Tag.i8, .i16, .i32, .i64, .n8, .n16, .n32, .n64]
    let flt : Prop := t ∈ [Tag.f16, .bf16, .f32, .f64]
    let rule := fun (i : Instr) (fi : Int → Int → Bool) (ff : Fp → Fp → Bool) (un : Bool) => Issues i s → ∀ v : BitVec 32,
      (int → (∀ j, j < 32 → v.getLsbD j = (on j && fi (laneInt t (xb j)) (laneInt t (yb j)))) →
        Completes i s (s.setP pd v) .seq []) ∧
      (flt → (∀ j, j < 32 → v.getLsbD j = (on j && if nan j then un else ff (x j) (y j))) →
        ((∀ j, on j = true → x j ≠ .nan true ∧ y j ≠ .nan true) → Completes i s (s.setP pd v) .seq []) ∧
        ((∃ j, on j = true ∧ (x j = .nan true ∨ y j = .nan true)) →
          Completes i s ((s.setP pd v).modRegs fun r => { r with fstat := r.fstat ||| 1 }) .seq []))
    (s.getV vb).tag = t →
    rule (.vceq p pd va vb) (fun a b => decide (a = b)) fpEqual false ∧
    rule (.vcne p pd va vb) (fun a b => decide (a ≠ b)) (fun a b => !fpEqual a b) true ∧
    rule (.vclt p pd va vb) (fun a b => decide (a < b)) (fpLess false) false ∧
    rule (.vcle p pd va vb) (fun a b => decide (a ≤ b)) (fun a b => fpLess false a b || fpEqual a b) false ∧
    ((int ∨ flt) → Issues (.vsel p vd va vb) s → Completes (.vsel p vd va vb) s
      (writeLanes s 0 vd t fun j => (if (s.getP p).getLsbD j then xb j else yb j, 0)) .seq [])

/-- R237 R239 R245: permutes, moves and retagging, on every tag but NONE. VSLD slides over va and the register after it; a lane
number beyond the tag's lanes traps RESERVED_FIELD with the word. -/
def Clauses.VectorMoves : Prop :=
  ∀ (p : PNum) (vd va vb : VNum) (a d : SReg) (l : BitVec 5) (k : BitVec 4) (n : BitVec 6) (u : Tag) (s : State),
    let t := (s.getV va).tag
    let xb := fun (j : Nat) => lane t (s.getV va).bits j
    let yb := fun (j : Nat) => lane t (s.getV vb).bits j
    let td := (s.getV vd).tag
    let count := tagLanes t
    let half := (count + 1) / 2
    let puts := fun (i : Instr) (u : Tag) (f : Nat → Nat) => Issues i s →
      Completes i s (writeLanes s p vd u fun j => (f j, 0)) .seq []
    (t ≠ .none → (p = 0 ∨ td = t) →
      ((s.getV vb).tag = t →
        puts (.vshuf p vd va vb) t (fun j => if yb j < count then xb (yb j) else 0) ∧
        puts (.vzip p vd va vb) t (fun j => if j % 2 = 0 then xb (j / 2) else yb (j / 2)) ∧
        puts (.vuzp p vd va vb) t (fun j => if j < half then xb (2 * j) else yb (2 * (j - half)))) ∧
      ((s.getV (va + 1)).tag = t → puts (.vsld p vd va k) t fun j =>
        lane t (((s.getV (va + 1)).bits ++ (s.getV va).bits).extractLsb' (8 * k.toNat) 128) j) ∧
      (l.toNat < count → puts (.vbcast p vd va l) t fun _ => xb l.toNat) ∧
      (count ≤ l.toNat → Issues (.vbcast p vd va l) s →
        Traps (.vbcast p vd va l) s .reservedField ((Instr.vbcast p vd va l).word.zeroExtend 64))) ∧
    (td ≠ .none → l.toNat < tagLanes td → puts (.vins p vd a l) td fun j =>
      if j = l.toNat then (s.getS a).toNat else lane td (s.getV vd).bits j) ∧
    (t ≠ .none → l.toNat < count → Issues (.vext d va l) s →
      Completes (.vext d va l) s (s.setS d (BitVec.ofInt 64 (laneInt t (xb l.toNat)))) .seq []) ∧
    (t ≠ .none → Issues (.vmov 0 vd va) s → Completes (.vmov 0 vd va) s
      (s.setV vd { bits := if t = .c6 then (s.getV va).bits &&& (2 ^ 126 - 1) else (s.getV va).bits, tag := t }) .seq []) ∧
    (t ≠ .none → p ≠ 0 → td = t → puts (.vmov p vd va) t xb) ∧
    (Issues (.vzero vd u) s → Completes (.vzero vd u) s (s.setV vd { bits := 0, tag := u }) .seq []) ∧
    (u ∈ [Tag.i8, .i16, .i32, .i64, .n8, .n16, .n32, .n64] → (p = 0 ∨ td = u) → puts (.vsplati p vd n u) u fun _ =>
      (n.toInt % 2 ^ tagWidth u).toNat) ∧
    (u ∈ [Tag.f16, .bf16, .f32, .f64] → (p = 0 ∨ td = u) → puts (.vsplati p vd n u) u fun _ =>
      (roundF (tagFmt u) .rne true (decide (n.toInt < 0)) n.toInt.natAbs 0).1) ∧
    (t ≠ .none → Issues (.vretag 0 vd va u) s → Completes (.vretag 0 vd va u) s
      (s.setV vd { bits := if u = .c6 then (s.getV va).bits &&& (2 ^ 126 - 1) else (s.getV va).bits, tag := u }) .seq []) ∧
    (t ≠ .none → p ≠ 0 → td ≠ .none → td = u → puts (.vretag p vd va u) u fun j => lane u (s.getV va).bits j) ∧
    (Issues (.vtag vd u) s → Completes (.vtag vd u) s
      (s.setV vd { bits := if u = .c6 then (s.getV vd).bits &&& (2 ^ 126 - 1) else (s.getV vd).bits, tag := u }) .seq [])

/-- Vector compares and moves: each clause cites its rules. -/
def Obligations.VectorCompareMove : Prop := Clauses.VectorCompares ∧ Clauses.VectorMoves

/-- R238 R159 R160: reductions and dot products. Lane 0 of vd takes the result, the rest is zero; a disabled lane contributes 0, or the
least or greatest value. An integer sum wraps and a float is combined in the tree of R159; VDOT's integer lanes take four
products each, exactly. (The sign of a zero sum is the model's reading, log 30.) -/
def Clauses.VectorReductions : Prop :=
  ∀ (p : PNum) (vd va vb : VNum) (s : State),
    let t := (s.getV va).tag
    let w := tagWidth t
    let on := fun (j : Nat) => (s.getP p).getLsbD j
    let xb := fun (j : Nat) => lane t (s.getV va).bits j
    let x := fun j => laneInt t (xb j)
    let y := fun j => laneInt t (lane t (s.getV vb).bits j)
    let md := rmodeOf s.act.regs.fmode
    let f := tagFmt t
    let lanes := List.range (tagLanes t)
    let puts := fun (i : Instr) (v : Nat) (fl : Nat) => Issues i s →
      Completes i s (raiseFlags (s.setV vd { bits := BitVec.ofNat 128 v, tag := t }) fl) .seq []
    let ident := fun (up : Bool) => f.infBits + if up then f.signBit else 0
    let tree := fun (op : Nat → Nat → Nat × Nat) (z : Nat) => reduceTree op 4 (lanes.map fun j => if on j then xb j else z)
    let u := dotTag t
    (t ∈ [Tag.i8, .i16, .i32, .i64, .n8, .n16, .n32, .n64] →
      puts (.vredadd p vd va) (((lanes.filter fun j => on j).map x).sum % 2 ^ w).toNat 0 ∧
      (∀ v : Int, tagMin t ≤ v → v ≤ tagMax t → (∀ j ∈ lanes, on j = true → x j ≤ v) →
        (v = tagMin t ∨ ∃ j ∈ lanes, on j = true ∧ x j = v) → puts (.vredmax p vd va) (v % 2 ^ w).toNat 0) ∧
      (∀ v : Int, tagMin t ≤ v → v ≤ tagMax t → (∀ j ∈ lanes, on j = true → v ≤ x j) →
        (v = tagMax t ∨ ∃ j ∈ lanes, on j = true ∧ x j = v) → puts (.vredmin p vd va) (v % 2 ^ w).toNat 0)) ∧
    (t ∈ [Tag.f16, .bf16, .f32, .f64] →
      (∀ r, r = tree (fun a b => fpAdd f md (unpackF f a) (unpackF f b)) f.signBit → puts (.vredadd p vd va) (r.1 % 2 ^ w) r.2) ∧
      (∀ r, r = tree (fpMinMax f true) (ident true) → puts (.vredmax p vd va) (r.1 % 2 ^ w) r.2) ∧
      (∀ r, r = tree (fpMinMax f false) (ident false) → puts (.vredmin p vd va) (r.1 % 2 ^ w) r.2)) ∧
    (u ≠ .none → (s.getV vb).tag = t → (s.getV vd).tag = u → Issues (.vdot p vd va vb) s →
      (t ∈ [Tag.i8, .i16, .n8, .n16] → Completes (.vdot p vd va vb) s (writeLanes s p vd u fun j =>
        ((laneInt u (lane u (s.getV vd).bits j) + x (4 * j) * y (4 * j) + x (4 * j + 1) * y (4 * j + 1)
          + x (4 * j + 2) * y (4 * j + 2) + x (4 * j + 3) * y (4 * j + 3)) % 2 ^ tagWidth u |>.toNat, 0)) .seq []) ∧
      (t ∈ [Tag.f16, .bf16] → Completes (.vdot p vd va vb) s (writeLanes s p vd .f32 fun j =>
        fpDot md (unpackF fmtF32 (lane .f32 (s.getV vd).bits j))
          [(unpackF f (xb (2 * j)), unpackF f (lane t (s.getV vb).bits (2 * j))),
           (unpackF f (xb (2 * j + 1)), unpackF f (lane t (s.getV vb).bits (2 * j + 1)))]) .seq []))

/-- R239 R240 R143 R144 R145: conversions. An integer saturates into an integer tag, rounds into a float; a float rounds into an integer by
FMODE and clamps with NV, a NaN giving 0; a float that overflows a narrower format gives its largest finite value. Lanes the
source has not are 0; VPACK and the unpacks place the halves. -/
def Clauses.VectorConversions : Prop :=
  ∀ (p : PNum) (vd va vb : VNum) (u : Tag) (s : State),
    let ints := [Tag.i8, .i16, .i32, .i64, .n8, .n16, .n32, .n64]
    let flts := [Tag.f16, .bf16, .f32, .f64]
    let t := (s.getV va).tag
    let md := rmodeOf s.act.regs.fmode
    let wide := fun (t u : Tag) => decide (t = u ∨ (t, u) ∈ [(Tag.f16, Tag.f32), (.f16, .f64), (.bf16, .f32), (.bf16, .f64), (.f32, .f64)])
    let conv := fun (t u : Tag) (b : Nat) =>
      if t ∈ ints then
        (if u ∈ ints then
          (let y := max (tagMin u) (min (tagMax u) (laneInt t b))
           ((y % 2 ^ tagWidth u).toNat, if y = laneInt t b then 0 else 32))
        else roundF (tagFmt u) md true (decide (laneInt t b < 0)) (laneInt t b).natAbs 0)
      else match unpackF (tagFmt t) b with
        | .nan q => if u ∈ ints then (0, 1) else ((tagFmt u).nan, if q then 1 else 0)
        | .inf n => if u ∈ ints then (((if n then tagMin u else tagMax u) % 2 ^ tagWidth u).toNat, 1)
            else if wide t u then ((tagFmt u).infBits + (if n then (tagFmt u).signBit else 0), 0)
            else ((tagFmt u).infBits - 1 + (if n then (tagFmt u).signBit else 0), 20)
        | .fin n m e => if u ∈ ints then
            (let r := roundAt md n m e 0
             let v : Int := if n then -(r.1 : Int) else (r.1 : Int)
             let y := max (tagMin u) (min (tagMax u) v)
             ((y % 2 ^ tagWidth u).toNat, if y ≠ v then 1 else if r.2 then 0 else 16))
            else roundF (tagFmt u) md true n m e
    let puts := fun (i : Instr) (u : Tag) (f : Nat → Nat × Nat) => (p = 0 ∨ (s.getV vd).tag = u) → Issues i s →
      Completes i s (writeLanes s p vd u f) .seq []
    let xb := fun (j : Nat) => lane t (s.getV va).bits j
    let yb := fun (j : Nat) => lane t (s.getV vb).bits j
    (t ∈ ints ++ flts → u ∈ ints ++ flts →
      puts (.vcvt p vd va u) u fun j => if j < tagLanes t ∧ j < tagLanes u then conv t u (xb j) else (0, 0)) ∧
    (∀ x ∈ [(Tag.i16, Tag.i8), (.n16, .n8), (.i32, .i16), (.n32, .n16), (.i64, .i32), (.n64, .n32), (.f32, .f16), (.f64, .f32)],
      t = x.1 → (s.getV vb).tag = t → puts (.vpack p vd va vb) x.2 fun j =>
        conv t x.2 (if j < tagLanes t then xb j else yb (j - tagLanes t))) ∧
    (∀ x ∈ [(Tag.i8, Tag.i16), (.n8, .n16), (.i16, .i32), (.n16, .n32), (.i32, .i64), (.n32, .n64), (.f16, .f32), (.bf16, .f32),
        (.f32, .f64)],
      t = x.1 → puts (.vunpkl p vd va) x.2 (fun j => conv t x.2 (xb j)) ∧
        puts (.vunpkh p vd va) x.2 (fun j => conv t x.2 (xb (j + tagLanes x.2))))

/-- Reductions and conversions: each clause cites its rules. -/
def Obligations.VectorReduceConvert : Prop := Clauses.VectorReductions ∧ Clauses.VectorConversions

/-- R241 R242 R243 R148 R151 R153: codes and code tables. VENC encodes each enabled lane, raises its flags and keeps the codes it does not write and every other register, VDEC
decodes into F32 without a flag; CTLDI loads a built-in table; CTLD loads an image that is accepted and traps TABLE on one
that is not, CTST stores the image, CTINFO reads the header. (Which watchpoints an image's access matches, log 84, no clause here says.) -/
def Clauses.CodeTables : Prop :=
  ∀ (p : PNum) (vd va : VNum) (k : SlotNum) (q : BitVec 3) (a d : SReg) (n : BitVec 6) (cw : CodeWidth) (s : State),
    let t := (s.getV va).tag
    let tab := codeSlot s k
    let c := tab.tag
    let fresh := tabFind (s.getCore s.core).code k.toNat = none
    let part := fun (i : Nat) => (i, s.getS a + BitVec.ofNat 64 (16 * i))
    let parts := (List.range 65).map part
    (t ∈ [Tag.f16, .bf16, .f32] → tab.valid = true → tab.enc = true → (s.getV vd).tag = c → q.toNat * tagLanes t < tagLanes c →
      Issues (.venc p vd va k q) s → ∃ u, Completes (.venc p vd va k q) s u .seq [] ∧ (u.getV vd).tag = c ∧
        (u.getV vd).bits.toNat < 2 ^ (tagWidth c * tagLanes c) ∧ (∀ r, r ≠ vd → u.getV r = s.getV r) ∧ u = { s with act := u.act } ∧
        u.act = { s.act with regs := { s.act.regs with v := u.act.regs.v, fstat := u.act.regs.fstat } } ∧
        (∀ b, b < 64 → (u.act.regs.fstat.getLsbD b = true ↔ s.act.regs.fstat.getLsbD b = true ∨ ∃ j, j < tagLanes t ∧
          (s.getP p).getLsbD j = true ∧ q.toNat * tagLanes t + j < tagLanes c ∧
          (tab.encode (unpackF (tagFmt t) (lane t (s.getV va).bits j))).2.testBit b = true)) ∧
        ∀ j, j < tagLanes c → lane c (u.getV vd).bits j =
          if q.toNat * tagLanes t ≤ j ∧ j < (q.toNat + 1) * tagLanes t ∧ (s.getP p).getLsbD (j - q.toNat * tagLanes t) = true
          then (tab.encode (unpackF (tagFmt t) (lane t (s.getV va).bits (j - q.toNat * tagLanes t)))).1 % 2 ^ tagWidth c
          else lane c (s.getV vd).bits j) ∧
    (t = c → tab.valid = true → (p = 0 ∨ (s.getV vd).tag = .f32) → 4 * q.toNat < tagLanes c →
      Issues (.vdec p vd va k q) s → Completes (.vdec p vd va k q) s (writeLanes s p vd .f32 fun j =>
        (if 4 * q.toNat + j < tagLanes c then tab.decode (lane c (s.getV va).bits (4 * q.toNat + j)) * 2 ^ 13 else 0, 0)) .seq []) ∧
    (∀ i ∈ [Instr.venc p vd va k q, .vdec p vd va k q], fresh → p = 0 → (s.getV vd).tag ≠ .none →
      ((i = .venc p vd va k q ∧ t ∈ [Tag.f16, .bf16, .f32]) ∨ (i = .vdec p vd va k q ∧ t ∈ [Tag.c8, .c6, .c4])) →
      Issues i s → Traps i s .table (k.zeroExtend 64)) ∧
    (Issues (.ctldi k n cw) s →
      (n.toNat < 6 → ∃ x, builtin n.toNat cw = some x ∧ Completes (.ctldi k n cw) s (s.modCore s.core fun c =>
        { c with code := tabPut c.code k.toNat x }) .seq []) ∧
      (6 ≤ n.toNat → Traps (.ctldi k n cw) s .table (n.zeroExtend 64))) ∧
    (∀ u vs v, Issues (.ctld k a) s → checkImage s .load .load (s.getS a) = .ok u → loadLanes u 16 parts = .ok (vs, v) →
      let bytes := vs.flatMap fun x => leBytes 16 x.2
      (∀ x, slotOfImage bytes = some x → Completes (.ctld k a) s
        (v.modCore v.core fun c => { c with code := tabPut c.code k.toNat x }) .seq []) ∧
      (slotOfImage bytes = none → Traps (.ctld k a) s .table (k.zeroExtend 64))) ∧
    (∀ u v, Issues (.ctst k a) s → checkImage s .store .store (s.getS a) = .ok u →
      storeLanes u 16 (fun i => leNat (((imageOfSlot tab).drop (16 * i)).take 16)) parts = .ok v → Completes (.ctst k a) s v .seq []) ∧
    (Issues (.ctinfo d k) s → Completes (.ctinfo d k) s (s.setS d (tab.hdr.zeroExtend 64)) .seq [])

/-- R148 R149 R150 R151 R152 R153: what a code table means. A code at a NaN code or a NaN entry decodes to the canonical NaN, any other to its
entry. Encoding gives the nearest entry up to the last code below the NaN codes, the even one of two, NX where it is not the value; a value
outside them gives the end, OF and NX, a NaN the first NaN code, or the code of +0, and NV. CTLD accepts an image by R150 and finds it encodable
or not; the built-in tables hold R153's values. -/
def Clauses.CodeValues : Prop :=
  (∀ (t : CodeSlot) (neg : Bool) (m : Nat) (x : Int),
    let h : Nat := match (t.hdr.extractLsb' 0 2).toNat with | 0 => 128 | 1 => 32 | _ => 8
    let first := (t.hdr.extractLsb' 8 8).toNat
    let nans : Bool := t.hdr.getLsbD 7
    let mag : Bool := t.hdr.getLsbD 4
    let atNan := fun (k : Nat) => nans = true ∧ ((first ≤ k ∧ k < if mag then h else 2 * h) ∨ (mag = true ∧ first + h ≤ k ∧ k < 2 * h))
    let last := if nans then first - 1 else if mag then h - 1 else 2 * h - 1
    let word := fun (k : Nat) => (t.ents.getD k 0).toNat % 2 ^ 19
    let e := fun (k : Nat) => unpackF fmtN19 (word k)
    let real : Fp → ℝ := fun v => match v with | .fin n m e => (if n then -1 else 1 : ℝ) * m * (2 : ℝ) ^ e | _ => 0
    let finite := fun (k : Nat) => ∃ n m e', e k = .fin n m e'
    let rises : Prop := (∀ k, k ≤ last → finite k) ∧ ∀ k, k < last → real (e k) < real (e (k + 1))
    let sign := fun (n : Bool) (k : Nat) => if mag && n then k + h else k
    let a : ℝ := if mag then real (.fin false m x) else real (.fin neg m x)
    (∀ k, (atNan k ∨ ∃ n, e k = .nan n) → t.decode k = 0x3FE00) ∧
    (∀ k, ¬ atNan k → (∀ n, e k ≠ .nan n) → t.decode k = word k) ∧
    (rises → (a < real (e 0) → t.encode (.fin neg m x) = (sign neg 0, 20)) ∧
      (real (e last) < a → t.encode (.fin neg m x) = (sign neg last, 20)) ∧
      (real (e 0) ≤ a → a ≤ real (e last) → ∃ k, k ≤ last ∧ t.encode (.fin neg m x) = (sign neg k, if real (e k) = a then 0 else 16) ∧
        ∀ j, j ≤ last → |a - real (e k)| ≤ |a - real (e j)| ∧ (j ≠ k → |a - real (e k)| = |a - real (e j)| → k % 2 = 0)) ∧
      t.encode (.inf neg) = (if mag then (sign neg last, 20) else if neg then (0, 20) else (last, 20))) ∧
    (∀ n, t.encode (.nan n) = (if nans then first else (t.encode (.fin false 0 0)).1, 1)) ∧
    (t.encodable = true ↔ (∀ k, k < 2 * h → atNan k → ∃ n, e k = .nan n) ∧ rises ∧
      (mag = true → word 0 = 0 ∧ ∀ k, k < h → word (k + h) = word k ^^^ 2 ^ 18))) ∧
  (∀ (bs : List Byte),
    let hdr : BitVec 32 := BitVec.ofNat 32 (leNat (bs.take 4))
    let entry := fun (k : Nat) => leNat ((bs.drop (16 + 4 * k)).take 4)
    let h : Nat := match (hdr.extractLsb' 0 2).toNat with | 0 => 128 | 1 => 32 | _ => 8
    let first := (hdr.extractLsb' 8 8).toNat
    let accepted : Prop := hdr.extractLsb' 16 16 = 0 ∧ hdr.extractLsb' 2 2 = 0 ∧ hdr.extractLsb' 0 2 ≠ 3 ∧ leNat ((bs.drop 4).take 12) = 0 ∧
      (hdr.getLsbD 7 = true → first ≠ 0 ∧ first < if hdr.getLsbD 4 then h else 2 * h) ∧ ∀ k, k < 2 * h → entry k < 2 ^ 19
    (¬ accepted → slotOfImage bs = none) ∧
    (accepted → ∃ t, slotOfImage bs = some t ∧ t.valid = true ∧ t.enc = t.encodable ∧ t.hdr &&& 0xFFFFFF9F = hdr &&& 0xFFFFFF9F ∧
      ∀ k, k < 256 → t.ents.getD k 0 = BitVec.ofNat 32 (entry k))) ∧
  (∀ (w : CodeWidth), ∀ x ∈ [(0, 128, 3, (7 : Int), 127), (1, 128, 2, 15, 124), (2, 32, 2, 3, 32), (3, 32, 3, 1, 32), (4, 8, 1, 1, 8)],
    let h : Nat := x.2.1
    let fb : Nat := x.2.2.1
    let first : Nat := x.2.2.2.2
    ∃ t, builtin x.1 w = some t ∧ t.valid = true ∧ t.enc = true ∧ t.hdr.getLsbD 4 = true ∧ t.half = h ∧ t.hdr.getLsbD 7 = decide (first < h) ∧
      (first < h → (t.hdr.extractLsb' 8 8).toNat = first) ∧ (∀ k, first ≤ k → k < h → t.entry k = 0x3FE00 ∧ t.entry (k + h) = 0x7FE00) ∧
      ∀ k, k < first → t.entry (k + h) = t.entry k + 2 ^ 18 ∧ ∃ m e, t.value k = .fin false m e ∧
        (m : ℝ) * (2 : ℝ) ^ e = if k < 2 ^ fb then (k : ℝ) * (2 : ℝ) ^ (1 - x.2.2.2.1 - fb)
          else ((2 ^ fb + k % 2 ^ fb : Nat) : ℝ) * (2 : ℝ) ^ (((k / 2 ^ fb : Nat) : Int) - x.2.2.2.1 - fb)) ∧
  (∀ (w : CodeWidth), ∃ t, builtin 5 w = some t ∧ t.valid = true ∧ t.enc = true ∧ t.hdr.getLsbD 4 = false ∧ t.hdr.getLsbD 7 = false ∧
    t.half = (match w with | .c8 => 128 | .c6 => 32 | .c4 => 8) ∧ ∀ k, k < 2 * t.half → ∃ n m e, t.value k = .fin n m e ∧
      (if n then -1 else 1 : ℝ) * m * (2 : ℝ) ^ e = (k : ℝ) - t.half)

/-- R244: the predicate operations. p0 reads as all ones and is never written. -/
def Clauses.Predicates : Prop :=
  ∀ (pd pa pb : PNum) (d a : SReg) (n : BitVec 6) (s : State),
    let x := s.getP pa
    let y := s.getP pb
    let p := fun (i : Instr) (v : BitVec 32) => Issues i s → Completes i s (s.setP pd v) .seq []
    let g := fun (i : Instr) (v : Word) => Issues i s → Completes i s (s.setS d v) .seq []
    p (.pand pd pa pb) (x &&& y) ∧ p (.por pd pa pb) (x ||| y) ∧ p (.pxor pd pa pb) (x ^^^ y) ∧ p (.pnot pd pa) (~~~x) ∧
    (∀ v : BitVec 32, (∀ j, j < 32 → v.getLsbD j = decide (j < n.toNat)) → p (.pseti pd n) v) ∧
    p (.pfrom pd a) ((s.getS a).extractLsb' 0 32) ∧ g (.pto d pa) (x.zeroExtend 64) ∧
    g (.pcnt d pa) (BitVec.ofNat 64 ((List.range 32).countP fun i => x.getLsbD i)) ∧
    (∀ k, k ≤ 32 → (∀ j, j < k → x.getLsbD j = false) → (k < 32 → x.getLsbD k = true) → g (.pfirst d pa) (BitVec.ofNat 64 k)) ∧
    s.getP 0 = BitVec.allOnes 32 ∧ (∀ v, s.setP 0 v = s) ∧ (pd ≠ 0 → ∀ v, (s.setP pd v).getP pd = v)

/-- Code tables and predicate registers: each clause cites its rules. -/
def Obligations.TablesAndPredicates : Prop := Clauses.CodeTables ∧ Clauses.CodeValues ∧ Clauses.Predicates

/-- R280 R281 R305 R394: MCTX. A word whose fields are allowed, whose code formats name loaded slots of their width, and whose completion
entry takes two words through no port whose link is down becomes the core's format context; the first test that fails traps, in the order of R281. -/
def Clauses.SpliceContexts : Prop :=
  ∀ (a : SReg) (s : State), Issues (.mctx a) s →
    let w := s.getS a
    let f := fun (lo n : Nat) => (w.extractLsb' lo n).toNat
    let fa := f 0 5
    let fb := f 8 5
    let flt := fun (c : Nat) => 1 ≤ c ∧ c ≤ 6
    let int := fun (c : Nat) => 16 ≤ c ∧ c ≤ 31
    let clear : Prop := f 5 3 = 0 ∧ f 13 3 = 0 ∧ f 20 2 = 0 ∧ f 32 32 = 0
    let known : Prop := (flt fa ∨ int fa) ∧ (flt fb ∨ int fb)
    let oneClass : Prop := (flt fa ↔ flt fb) ∧ (w.getLsbD 22 = true ↔ int fa)
    let loaded := fun (c slot : Nat) => c ∈ [4, 5, 6] →
      (codeSlot s (BitVec.ofNat 2 slot)).valid = true ∧ (codeSlot s (BitVec.ofNat 2 slot)).width = (if c = 4 then 8 else if c = 5 then 6 else 4)
    let ep := f 24 8
    let notify : Prop := w.getLsbD 23 = true
    let down : Prop := epPkg (endpoint s s.core ep) ≠ 0 ∧ (s.getPort (epPkg (endpoint s s.core ep) - 1)).lstate ≠ .up
    (clear → known → oneClass → loaded fa (f 16 2) → loaded fb (f 18 2) →
      (notify → ep < 254 ∧ (endpoint s s.core ep).getLsbD 63 = true ∧ ¬ down ∧ epLen (endpoint s s.core ep) = 2) →
      ∃ c, c.word = w ∧ (fa ∈ [4, 5, 6] → c.atab = some (codeSlot s (BitVec.ofNat 2 (f 16 2)))) ∧
        (fb ∈ [4, 5, 6] → c.btab = some (codeSlot s (BitVec.ofNat 2 (f 18 2)))) ∧
        Completes (.mctx a) s (s.modCore s.core fun x => { x with splice := some c }) .seq []) ∧
    (¬ clear → Traps (.mctx a) s .engineOperand 4) ∧
    (clear → ¬ known → Traps (.mctx a) s .engineOperand 5) ∧
    (clear → known → ¬ oneClass → Traps (.mctx a) s .engineOperand 6) ∧
    (clear → known → oneClass → ¬ loaded fa (f 16 2) → Traps (.mctx a) s .table (BitVec.ofNat 64 (f 16 2))) ∧
    (clear → known → oneClass → loaded fa (f 16 2) → ¬ loaded fb (f 18 2) → Traps (.mctx a) s .table (BitVec.ofNat 64 (f 18 2))) ∧
    (clear → known → oneClass → loaded fa (f 16 2) → loaded fb (f 18 2) → notify →
      (254 ≤ ep ∨ (endpoint s s.core ep).getLsbD 63 = false ∨ down → Traps (.mctx a) s .endpoint (BitVec.ofNat 64 ep)) ∧
      (ep < 254 → (endpoint s s.core ep).getLsbD 63 = true → ¬ down → epLen (endpoint s s.core ep) ≠ 2 →
        Traps (.mctx a) s .msgType (BitVec.ofNat 64 (ep + 2 ^ 8 * epLen (endpoint s s.core ep) + 2 ^ 11 * 2))))

/-- R18 R273 R274 R282 R285 R286 R287 R394: the job-starting Splice instructions. Past their tests, with room in the engine's queue and no other
core's instruction before it in turn, the job joins it, its id is written to s[d] and reads STATE 1, and the turn passes on from its
core; with 16 jobs queued, out of turn, or behind jobs of a restored context (logs 56 and 82, the model's choices), the instruction
waits at its port. An undefined handle traps RING, no context ENGINE_OPERAND 1, one handle for both operands 2, a slot too small 3; then a completion entry
that names a port whose link is down ENDPOINT (its place in the order is the model's choice, log 114). -/
def Clauses.SpliceJobs : Prop :=
  ∀ (d : SReg) (ha hb : HNum) (t : AccTarget) (s : State),
    let g := clusterOf s.core
    let x := s.getCore s.core
    let id := s.core % 8 * 8192 + x.spliceTab.seq % 8192
    let slot := fun (r : Ring) => 64 * (r.desc.extractLsb' 24 13).toNat
    let need := fun (c : SpliceCtx) (lo : Nat) =>
      let f := (c.word.extractLsb' lo 5).toNat
      2048 * (if f = 1 ∨ f = 2 then 16 else if f = 3 then 19 else if f = 4 then 8 else if f = 5 then 6 else if f = 6 then 4 else f % 8 + 1)
    let ep := fun (c : SpliceCtx) => (c.word.extractLsb' 24 8).toNat
    let down := fun (c : SpliceCtx) => c.word.getLsbD 23 = true ∧ epPkg (endpoint s s.core (ep c)) ≠ 0 ∧
      (s.getPort (epPkg (endpoint s s.core (ep c)) - 1)).lstate ≠ .up
    let starts := fun (i : Instr) (op : SpliceOp) (c : SpliceCtx) =>
      (down c → Traps i s .endpoint (BitVec.ofNat 64 (ep c))) ∧
      (¬ down c → 16 ≤ (s.getCluster g).splice.length ∨ (s.getCluster g).spliceBack ≠ [] ∨ portTurn s true = false → Stalls i s s (.port true)) ∧
      (¬ down c → (s.getCluster g).splice.length < 16 → (s.getCluster g).spliceBack = [] → portTurn s true = true → ∃ u j, Completes i s u .seq [] ∧
        (d ≠ 0 → u.getS d = BitVec.ofNat 64 id) ∧ (∀ r, r ≠ d → u.getS r = s.getS r) ∧
        (u.getCluster g).splice = (s.getCluster g).splice ++ [j] ∧ j.id = id ∧ j.op = op ∧ j.ctx = c ∧ j.running = false ∧
        (u.getCluster g).lastSplice = s.core % 8 ∧
        (u.getCore s.core).spliceTab.seq = (x.spliceTab.seq + 1) % 8192 ∧ jobStatus u s.core true (BitVec.ofNat 64 id) = 1 ∧
        u.mem = s.mem ∧ (∀ c o, spadByte u c o = spadByte s c o))
    let matrix := fun (i : Instr) (op : SpliceOp) => Issues i s →
      (∀ ra rb c, tabFind x.rings ha.toNat = some ra → tabFind x.rings hb.toNat = some rb → x.splice = some c → ha ≠ hb →
        (need c 0 ≤ slot ra → need c 8 ≤ slot rb → starts i op c) ∧
        (slot ra < need c 0 ∨ slot rb < need c 8 → Traps i s .engineOperand 3)) ∧
      (tabFind x.rings ha.toNat = none → Traps i s .ring (ha.zeroExtend 64)) ∧
      (tabFind x.rings ha.toNat ≠ none → tabFind x.rings hb.toNat = none → Traps i s .ring (hb.zeroExtend 64)) ∧
      (tabFind x.rings ha.toNat ≠ none → tabFind x.rings hb.toNat ≠ none →
        (x.splice = none → Traps i s .engineOperand 1) ∧ (x.splice ≠ none → ha = hb → Traps i s .engineOperand 2))
    let table : Option CodeSlot := match t with | .code k => some (codeSlot s k) | _ => none
    let rows : Nat := match t with
      | .f32 | .i32 => 512 | .bf16 | .f16 => 256 | .i8 => 128
      | .code k => if (codeSlot s k).width = 8 then 128 else if (codeSlot s k).width = 6 then 112 else 64
    matrix (.mma d ha hb) (.mma ha.toNat hb.toNat) ∧ matrix (.mmar d ha hb) (.mmar ha.toNat hb.toNat) ∧
    matrix (.mmarLast d ha hb) (.mmarLast ha.toNat hb.toNat) ∧
    (Issues (.mzero d) s → (x.splice = none → Traps (.mzero d) s .engineOperand 1) ∧ (∀ c, x.splice = some c → starts (.mzero d) .mzero c)) ∧
    (Issues (.mrdacc d ha t) s →
      (tabFind x.rings ha.toNat = none → Traps (.mrdacc d ha t) s .ring (ha.zeroExtend 64)) ∧
      (∀ r, tabFind x.rings ha.toNat = some r → (x.splice = none → Traps (.mrdacc d ha t) s .engineOperand 1) ∧
        (∀ c, x.splice = some c →
          (∀ k, t = .code k → (codeSlot s k).valid = false ∨ (codeSlot s k).enc = false → Traps (.mrdacc d ha t) s .table (k.zeroExtend 64)) ∧
          ((∀ k, t = .code k → (codeSlot s k).valid = true ∧ (codeSlot s k).enc = true) →
            (slot r < 128 * rows → Traps (.mrdacc d ha t) s .engineOperand 3) ∧
            (128 * rows ≤ slot r → starts (.mrdacc d ha t) (.mrdacc ha.toNat t table) c)))))

/-- MCTX and the job-starting Splice words: each clause cites its rules. -/
def Obligations.SpliceIssue : Prop := Clauses.SpliceContexts ∧ Clauses.SpliceJobs

/-- R275 R287: the status reads. A register that names no job of the core reads 0; MWAIT and CWAIT wait while STATE is 1 or 2; a read
that reports an end acquires at the job's scope: CORE for Splice, which changes no cache, and for Reeve the one recorded at its issue. -/
def Clauses.JobStatus : Prop :=
  ∀ (d a : SReg) (s : State),
    let r := s.getS a
    let id := r.toNat % 2 ^ 16
    let known := fun (tab : JobTable) => r.toNat < 2 ^ 16 ∧ id / 8192 = s.core % 8 ∧ ∃ w, (id, w) ∈ tab.jobs
    let x := s.getCore s.core
    let ends := fun (w : Word) => w.extractLsb' 0 3 = 3 ∨ w.extractLsb' 0 3 = 4
    let runs := fun (w : Word) => w.extractLsb' 0 3 = 1 ∨ w.extractLsb' 0 3 = 2
    let reads := fun (i wait : Instr) (splice : Bool) (tab : JobTable) =>
      (¬ known tab → jobStatus s s.core splice r = 0) ∧
      (∀ w, r.toNat < 2 ^ 16 → id / 8192 = s.core % 8 → (tab.jobs.find? fun j => decide (j.1 = id)) = some (id, w) →
        jobStatus s s.core splice r = w) ∧
      (∀ w, jobStatus s s.core splice r = w → ∀ u, u = s.setS d w →
        (Issues i s → (¬ ends w ∨ splice = true → Completes i s u .seq []) ∧
          (ends w → splice = false → Completes i s (acquire u s.core s.act.dom (tabGet .package x.reeveScopes id)) .seq [])) ∧
        (Issues wait s → (runs w → Stalls wait s s (.job splice id)) ∧
          (¬ runs w → (¬ ends w ∨ splice = true) → Completes wait s u .seq []) ∧
          (ends w → splice = false → Completes wait s (acquire u s.core s.act.dom (tabGet .package x.reeveScopes id)) .seq [])))
    reads (.mpoll d a) (.mwait d a) true x.spliceTab ∧ reads (.cpoll d a) (.cwait d a) false x.reeveTab

/-- R18 R273 R274 R289 R290 R294 R305 R394: the job-starting Reeve instructions. The four operand words are s[4g] to s[4g+3]. Past its tests, with room in
the queue and in its turn, a job is accepted after a release at its SCOPE (at CLUSTER where that is CORE, the model's reading of R118,
log 109), which is recorded for its observers, runs at once unless it fills a ring, and its id is written to s[d]; with 16 jobs queued, out of turn, or behind jobs of a restored context (logs 56 and 82, the model's choices), the instruction waits.
Reserved bits trap ENGINE_OPERAND 4, undefined kinds 5, lengths 7, combinations 8 (which of these an operand falls under is in
part the model's choice, logs 39 and 40); then ENDPOINT and MSG_TYPE of NEP, ENDPOINT of MEP (a link that is down counts as an invalid
entry, log 41), RING, WINDOW and ENGINE_OPERAND 3, in that order. -/
def Obligations.ReeveJobs : Prop :=
  ∀ (d : SReg) (g : BitVec 4) (s : State),
    let reg := fun (k : Nat) => s.getS (BitVec.ofNat 6 (4 * g.toNat + k))
    let src := reg 0
    let dst := reg 1
    let shape := reg 2
    let ctl := reg 3
    let x := s.getCore s.core
    let cl := clusterOf s.core
    let f := fun (lo n : Nat) => (ctl.extractLsb' lo n).toNat
    let ring : Bool := decide (f 37 2 = 3)
    let id := s.core % 8 * 8192 + x.reeveTab.seq % 8192
    let sc : Scope := match f 52 3 with | 0 | 1 => .cluster | 2 => .die | 3 => .package | _ => .system
    let ep := fun (n : Nat) => endpoint s s.core n
    let nep := f 56 8
    let mep := f 40 8
    let notify : Prop := ctl.getLsbD 55 = true
    let msg : Prop := ctl.getLsbD 39 = true
    let down := fun (n : Nat) => epPkg (ep n) ≠ 0 ∧ (s.getPort (epPkg (ep n) - 1)).lstate ≠ .up
    let nepOk := fun (len : Nat) => nep < 254 ∧ (notify → (ep nep).getLsbD 63 = true ∧ ¬ down nep ∧ epLen (ep nep) = len)
    let mepOk : Prop := mep < 254 ∧ (msg → (ep mep).getLsbD 63 = true ∧ ¬ down mep)
    let ringOk : Prop := ring = true → tabFind x.rings (f 48 4) ≠ none
    let srcOk := fun (form : ReeveForm) => f 35 2 = 1 → form ≠ .cpyfill → (copySpans form shape ctl).1 ≠ 0 →
      src.toNat + (copySpans form shape ctl).1 ≤ spadSize s.core
    let dstOk := fun (form : ReeveForm) => f 37 2 = 1 → (copySpans form shape ctl).2 ≠ 0 → dst.toNat + (copySpans form shape ctl).2 ≤ spadSize s.core
    let fits := fun (form : ReeveForm) => ∀ r, ring = true → tabFind x.rings (f 48 4) = some r →
      copySize form shape ctl ≤ 64 * (r.desc.extractLsb' 24 13).toNat
    let rule := fun (i : Instr) (form : ReeveForm) (len : Nat) => Issues i s →
      (copyReserved form shape ctl = true → Traps i s .engineOperand 4) ∧
      (copyReserved form shape ctl = false → copyUndefined form ctl = true → Traps i s .engineOperand 5) ∧
      (copyReserved form shape ctl = false → copyUndefined form ctl = false →
        (copyLength form shape ctl = true → Traps i s .engineOperand 7) ∧
        (copyLength form shape ctl = false → copyKinds form dst ctl = true → Traps i s .engineOperand 8) ∧
        (copyLength form shape ctl = false → copyKinds form dst ctl = false →
          (254 ≤ nep ∨ (notify ∧ ((ep nep).getLsbD 63 = false ∨ down nep)) → Traps i s .endpoint (BitVec.ofNat 64 nep)) ∧
          (nep < 254 → notify → (ep nep).getLsbD 63 = true → ¬ down nep → epLen (ep nep) ≠ len →
            Traps i s .msgType (BitVec.ofNat 64 (nep + 2 ^ 8 * epLen (ep nep) + 2 ^ 11 * len))) ∧
          (nepOk len → 254 ≤ mep ∨ (msg ∧ ((ep mep).getLsbD 63 = false ∨ down mep)) → Traps i s .endpoint (BitVec.ofNat 64 mep)) ∧
          (nepOk len → mepOk → ring = true → tabFind x.rings (f 48 4) = none → Traps i s .ring (BitVec.ofNat 64 (f 48 4))) ∧
          (nepOk len → mepOk → ringOk → ¬ srcOk form → Traps i s .window src) ∧
          (nepOk len → mepOk → ringOk → srcOk form → ¬ dstOk form → Traps i s .window dst) ∧
          (nepOk len → mepOk → ringOk → srcOk form → dstOk form → ¬ fits form → Traps i s .engineOperand 3)) ∧
        (copyLength form shape ctl = false → copyKinds form dst ctl = false → nepOk len → mepOk → ringOk → srcOk form → dstOk form → fits form →
          (16 ≤ (s.getCluster cl).reeve.length ∨ (s.getCluster cl).reeveBack ≠ [] ∨ portTurn s false = false → Stalls i s s (.port false)) ∧
          ((s.getCluster cl).reeve.length < 16 → (s.getCluster cl).reeveBack = [] → portTurn s false = true → ∃ u j rel, rel = release s s.core s.act.dom sc ∧ Completes i s u .seq [] ∧
            (d ≠ 0 → u.getS d = BitVec.ofNat 64 id) ∧ (∀ r, r ≠ d → u.getS r = s.getS r) ∧
            (u.getCluster cl).reeve = (rel.getCluster cl).reeve ++ [j] ∧ j.id = id ∧ j.form = form ∧ j.src = src ∧ j.dst = dst ∧
            j.shape = shape ∧ j.ctl = ctl ∧ j.running = !ring ∧ j.dom = s.act.dom ∧ j.core = s.core ∧ u.mem = rel.mem ∧ tabGet .package (u.getCore s.core).reeveScopes id = sc ∧ (u.getCluster cl).lastReeve = s.core % 8 ∧
            jobStatus u s.core false (BitVec.ofNat 64 id) = if ring then 1 else 2)))
    rule (.cpy d g) .cpy 2 ∧ rule (.cpy2 d g) .cpy2 2 ∧ rule (.cpypl d g) .cpypl 2 ∧ rule (.cpyrd d g) .cpyrd 4 ∧
    rule (.cpyfill d g) .cpyfill 2 ∧
    (copyReserved .cpy shape ctl = false ↔ f 0 35 = 0 ∧ shape.extractLsb' 40 24 = 0) ∧
    (copyUndefined .cpy ctl = false ↔ f 52 3 < 5 ∧ f 35 2 < 3) ∧
    (copyLength .cpy shape ctl = false ↔ (ctl.getLsbD 39 = true → (shape.extractLsb' 0 40).toNat % 64 = 0)) ∧
    (copyKinds .cpy dst ctl = false ↔ (ctl.getLsbD 39 = true → f 37 2 = 0 ∧ dst.toNat % 64 = 0)) ∧
    copySize .cpy shape ctl = (shape.extractLsb' 0 40).toNat ∧
    copySize .cpy2 shape ctl = (shape.extractLsb' 16 16).toNat * (shape.extractLsb' 0 16).toNat

/-- R282 R284: a Splice job starts when it is the oldest of its core, its slots are there and the engine runs none; it keeps the slots it
then takes, and its tests are made (that one job runs at a time, and that its result is written at its end, is the model's choice, log 38).
MZERO clears the accumulators at its end (R285); a matrix job whose tests passed leaves every accumulator at its sum over the 128 k-steps
(R156 in F32 mode, R157 in I32 mode) of the tiles in those slots, HEAD of both handles advanced, and ends DONE with PROGRESS 128, with SAT
where an element saturated; one whose tests failed ends FAILED with ENGINE_OPERAND, the bank as it was. MRDACC writes its row-major tile
and the metadata into the slot it took and advances TAIL (R279 R286; how it converts an I32 bank is the model's reading, log 15). -/
def Clauses.SpliceEngine : Prop :=
  ∀ (eng id : Nat) (j : SpliceJob) (s : State), findSplice s eng id = some j → j.id = id →
    (∀ k ∈ (s.getCluster eng).spliceBack, k.id ≠ id) →
    let x := s.getCore j.core
    let at_ := fun (b : Tab (BitVec 32)) (n : Nat) => (tabFind b n).getD 0
    let alone : Prop := ∀ k ∈ (s.getCluster eng).splice, k.running = false
    let on : Prop := (s.getDie (dieOf j.core)).stopped = false
    let quiet : Prop := groupHeld s j.dom (clusterOf j.core) = false ∧ j.ctx.word.getLsbD 23 = false
    let known : Prop := clusterOf j.core = eng ∧ id / 8192 = j.core % 8 ∧ id < 2 ^ 16 ∧ ∃ w, (id, w) ∈ x.spliceTab.jobs
    let gone := fun (t : State) => ∀ k ∈ (t.getCluster eng).splice, k.id ≠ id
    let state := fun (t : State) => jobStatus t j.core true (BitVec.ofNat 64 id)
    let ends := fun (t : State) (w : Word) => ∃ u, t = jobEnded u {
      splice := true, core := j.core, id := id, dom := j.dom, status := w,
      notify := j.ctx.word.getLsbD 23, ep := (j.ctx.word.extractLsb' 24 8).toNat, words := [BitVec.ofNat 64 id, w] }
    let done := fun (t : State) (sat : Prop) =>
      (sat → ends t (BitVec.ofNat 64 (128 * 2 ^ 24 + 256 + 3))) ∧ (¬ sat → ends t (BitVec.ofNat 64 (128 * 2 ^ 24 + 3))) ∧ (quiet → known →
      (sat → state t = BitVec.ofNat 64 (128 * 2 ^ 24 + 256 + 3)) ∧ (¬ sat → state t = BitVec.ofNat 64 (128 * 2 ^ 24 + 3)))
    let fills := fun (h : Nat) (r : Ring) => r.free ≠ 0 ∧ (∀ k ∈ ringFillers s j.core h, j.serial ≤ k) ∧ portFills s j.core h = false
    let takes := fun (k : SpliceJob) => (∀ a b ra rb, j.op = .mma a b ∨ j.op = .mmarLast a b ∨ j.op = .mmar a b →
        tabFind x.rings a = some ra → tabFind x.rings b = some rb →
        k.ta = { slot := ra.slotOf ra.head, meta_ := slotMeta ra ra.head } ∧ k.tb = { slot := rb.slotOf rb.head, meta_ := slotMeta rb rb.head }) ∧
      (∀ h v tab r, j.op = .mrdacc h v tab → tabFind x.rings h = some r → k.ta.slot = r.slotOf r.tail)
    (∀ h v tab r, j.op = .mrdacc h v tab → tabFind x.rings h = some r → (spliceReady s j = true ↔ fills h r)) ∧
    (∀ a b ra rb, j.op = .mma a b ∨ j.op = .mmarLast a b → tabFind x.rings a = some ra → tabFind x.rings b = some rb →
      (spliceReady s j = true ↔ ra.filled ≠ 0 ∧ rb.filled ≠ 0)) ∧
    (alone → on → x.evict = none → ((s.getCluster eng).splice.find? fun k => decide (k.core = j.core)) = some j →
      spliceReady s j = true → ∃ t, Steps (.spliceJobStart eng id) s t ∧ (known → state t = 2) ∧
        ∀ k ∈ (t.getCluster eng).splice, k.id = id → k.running = true ∧ takes k ∧
          (∀ a b, j.op = .mma a b ∨ j.op = .mmarLast a b → (k.passed = true ↔ matrixBad s j a b false = false)) ∧
          (∀ a b, j.op = .mmar a b → (k.passed = true ↔ matrixBad s j a b true = false))) ∧
    (j.running = true → on → j.op = .mzero → ∃ t, Steps (.spliceJobEnd eng id) s t ∧ (t.getCore j.core).bank = [] ∧ gone t ∧
      ends t 3 ∧ (quiet → known → state t = 3)) ∧
    (j.running = true → on → ∀ a b, a ≠ b → ∀ ra rb, tabFind x.rings a = some ra → tabFind x.rings b = some rb →
      (j.op = .mma a b ∨ j.op = .mmarLast a b ∨ j.op = .mmar a b → j.passed = false → ∃ t, Steps (.spliceJobEnd eng id) s t ∧ gone t ∧
        (t.getCore j.core).bank = x.bank ∧ (t.getCore j.core).rings = x.rings ∧ ends t 0x240004 ∧ (quiet → known → state t = 0x240004)) ∧
      (j.op = .mmar a b → j.passed = true → (j.westTail = false ∨ j.northTail = false) → Steps (.spliceJobEnd eng id) s s) ∧
      (j.op = .mma a b ∨ j.op = .mmarLast a b ∨ (j.op = .mmar a b ∧ j.westTail = true ∧ j.northTail = true) → j.passed = true →
        let fa := ctxA j.ctx.word
        let fb := ctxB j.ctx.word
        let ea := fun (i n : Nat) => planeBits x.spad (slotBase ra j.ta.slot) (fmtWidth fa) n i
        let eb := fun (k n : Nat) => planeBits x.spad (slotBase rb j.tb.slot) (fmtWidth fb) n k
        let scale := metaScale j.ta.meta_ + metaScale j.tb.meta_
        let int : Prop := j.ctx.word.getLsbD 22 = true
        let sum := fun (i k : Nat) => accInt (fun n => intElem fa (ea i n)) (fun n => intElem fb (eb k n)) scale (at_ x.bank (128 * i + k))
        ∃ t, Steps (.spliceJobEnd eng id) s t ∧ gone t ∧
          (∃ q, tabFind (t.getCore j.core).rings a = some q ∧ q.head = ra.head + 1 ∧ q.tail = ra.tail) ∧
          (∃ q, tabFind (t.getCore j.core).rings b = some q ∧ q.head = rb.head + 1 ∧ q.tail = rb.tail) ∧
          (int → ∀ i k, i < 128 → k < 128 → at_ (t.getCore j.core).bank (128 * i + k) = (sum i k).1) ∧
          (¬ int → ∀ i k, i < 128 → k < 128 → at_ (t.getCore j.core).bank (128 * i + k) = accFloat
            (fun n => floatElem fa j.ctx.atab (ea i n)) (fun n => floatElem fb j.ctx.btab (eb k n)) scale (at_ x.bank (128 * i + k))) ∧
          done t (int ∧ ∃ i k, i < 128 ∧ k < 128 ∧ (sum i k).2 = true) ∧ (∀ c o, spadByte t c o = spadByte s c o))) ∧
    (j.running = true → on → ∀ h v tab, j.op = .mrdacc h v tab →
      (∀ r, tabFind x.rings h = some r → ∃ t, Steps (.spliceJobEnd eng id) s t ∧ gone t ∧ (t.getCore j.core).bank = x.bank ∧
        (let el := fun (i k : Nat) => accConvert (j.ctx.word.getLsbD 22) v tab (at_ x.bank (128 * i + k))
         let width := (tab.map fun y => y.width).getD 8
         let fmt := match v with | .bf16 => 1 | .f16 => 2 | .f32 => 7 | .i32 => 8 | .i8 => 9 | .code _ => if width = 8 then 4 else if width = 6 then 5 else 6
         let row := match v with | .f32 | .i32 => 512 | .bf16 | .f16 => 256 | .i8 => 128 | .code _ => if width = 8 then 128 else if width = 6 then 112 else 64
         let o := fun (i : Nat) => slotBase r j.ta.slot + i * row
         let num := fun (p n : Nat) => leNat (memBytes (t.getCore j.core).spad p n)
         (∃ q, tabFind (t.getCore j.core).rings h = some q ∧ q.tail = r.tail + 1 ∧ q.head = r.head ∧ q.desc = r.desc ∧
          (j.ta.slot < r.meta_.length → q.meta_.getD j.ta.slot 0 = BitVec.ofNat 64 (fmt + 128)) ∧ ∀ n, n ≠ j.ta.slot → q.meta_.getD n 0 = r.meta_.getD n 0) ∧
         (MemoryOk s → ∀ i k, i < 128 → k < 128 →
          (row = 512 → num (o i + 4 * k) 4 = (el i k).1 % 2 ^ 32) ∧ (row = 256 → num (o i + 2 * k) 2 = (el i k).1 % 2 ^ 16) ∧
          (row = 128 → num (o i + k) 1 = (el i k).1 % 2 ^ 8) ∧ (row = 112 → num (o i + 16 * (k / 21)) 16 / 2 ^ (6 * (k % 21)) % 64 = (el i k).1 % 64) ∧
          (row = 64 → num (o i + k / 2) 1 / 2 ^ (4 * (k % 2)) % 16 = (el i k).1 % 16)) ∧
         (MemoryOk s → ∀ c p, (c ≠ j.core ∨ p < o 0 ∨ o 128 ≤ p) → spadByte t c p = spadByte s c p) ∧
         done t (∃ i k, i < 128 ∧ k < 128 ∧ (el i k).2 = true))) ∧
      (tabFind x.rings h = none → ∃ t, Steps (.spliceJobEnd eng id) s t ∧ gone t ∧ ends t 0x240004 ∧ (quiet → known → state t = 0x240004)))

/-- R276 R287 R372: the end of a job of either engine, whose id, status, NOTIFY bit and entry `u` holds. Under a debug hold of its group it
is kept unseen; else its status stands in the table, a completion message goes out through its entry where NOTIFY is set and the entry, as it
stands, is valid and of the message's length, and one JOB_ERROR goes to the kernel where the job FAILED or its message was not sent. -/
def Clauses.JobEnds : Prop :=
  ∀ (u : Unseen) (s : State),
    let t := jobEnded s u
    let e := endpoint s u.core u.ep
    let sends : Prop := u.notify = true ∧ e.getLsbD 63 = true ∧ epLen e = u.words.length ∧ (epPkg e = 0 ∨ (s.getPort (epPkg e - 1)).lstate = .up)
    let failed : Prop := u.status.extractLsb' 0 3 = 4
    let unsent : Prop := u.notify = true ∧ ¬ sends
    let known : Prop := ∃ w, (u.id, w) ∈ (if u.splice then (s.getCore u.core).spliceTab.jobs else (s.getCore u.core).reeveTab.jobs)
    let score := if u.splice then 4092 else 4091
    (groupHeld s u.dom (clusterOf u.core) = true → t = s.modCluster (clusterOf u.core) fun g => { g with unseen := g.unseen ++ [(u, e)] }) ∧
    (groupHeld s u.dom (clusterOf u.core) = false →
      (known → u.id < 2 ^ 16 → u.id / 8192 = u.core % 8 → jobStatus t u.core u.splice (BitVec.ofNat 64 u.id) = u.status) ∧
      (¬ sends → ¬ failed → ¬ unsent → t = setStatus s u.core u.splice u.id u.status) ∧
      (¬ sends → failed ∨ unsent → ∀ k, (k = if u.notify then 1 else 0) → t = notice (setStatus s u.core u.splice u.id u.status) (kernelOf u.dom) score
        [6, if u.splice then 1 else 2, BitVec.ofNat 64 u.id, BitVec.ofNat 64 u.core, u.status, BitVec.ofNat 64 u.dom, k]) ∧
      (sends → epPkg e = 0 → epCore e < 1312 → (s.getCore u.core).inj = [] → ∃ v m, v.flight = s.flight ++ [m] ∧ m.dom = epDom e ∧ m.core = epCore e ∧
        m.actor = epActor e ∧ m.tag = epTag e ∧ m.words = u.words ∧ m.hdr = mkHeader u.ep u.dom (epSeq e) (epLen e) (epTag e) score ∧
        endpoint v u.core u.ep = epAdvance e ∧ v.mem = s.mem ∧ (¬ failed → t = v) ∧
        (failed → t = notice v (kernelOf u.dom) score
          [6, if u.splice then 1 else 2, BitVec.ofNat 64 u.id, BitVec.ofNat 64 u.core, u.status, BitVec.ofNat 64 u.dom, 0])))

/-- R283: MMAR's tiles, those of the slots it took at its start, are forwarded, west from ha and north from hb, into the neighbours' rings of the
same handles: the bytes and the metadata land in the slot at TAIL, then TAIL advances; a tile whose ring the neighbour has lost since the job's tests passed lands
nowhere, and the job goes on (the model's choice, log 38); while the die's clocks stand still nothing is forwarded (31 R405). -/
def Clauses.TileForwarding : Prop :=
  ∀ (eng id a b : Nat) (west : Bool) (j : SpliceJob) (s : State), findSplice s eng id = some j → j.id = id → j.op = .mmar a b →
    j.running = true → j.passed = true → (if west then j.westTail else j.northTail) = false →
    let on : Prop := (s.getDie (dieOf j.core)).stopped = false
    let h := if west then a else b
    let took := if west then j.ta else j.tb
    let to_ := neighbourCore j.core west
    let bytes := planeBytes (if west then ctxA j.ctx.word else ctxB j.ctx.word)
    let landed := fun (t : State) => ∀ k ∈ (t.getCluster eng).splice, k.id = id → (if west then k.westTail else k.northTail) = true
    (¬ on → Steps (.mmarForwardLanded eng id west) s s) ∧
    (∀ r n, on → tabFind (s.getCore j.core).rings h = some r → tabFind (s.getCore to_).rings h = some n → (s.getCore to_).dom = some j.dom →
      bytes ≤ 64 * (n.desc.extractLsb' 24 13).toNat → ∃ t q, Steps (.mmarForwardLanded eng id west) s t ∧ landed t ∧
        tabFind (t.getCore to_).rings h = some q ∧ q.tail = n.tail + 1 ∧ q.head = n.head ∧
        (n.meta_.length = 16 → slotMeta q n.tail = took.meta_) ∧
        (MemoryOk s → ∀ o, o < bytes → spadByte t to_ (slotBase n (n.slotOf n.tail) + o) = spadByte s j.core (slotBase r took.slot + o)) ∧
        (MemoryOk s → ∀ c o, (c ≠ to_ ∨ o < slotBase n (n.slotOf n.tail) ∨ slotBase n (n.slotOf n.tail) + bytes ≤ o) → spadByte t c o = spadByte s c o)) ∧
    (on → forwardBad s j west h bytes = true → ∃ t, Steps (.mmarForwardLanded eng id west) s t ∧ landed t ∧ t = { s with clusters := t.clusters })

/-- R157: an accumulator element in I32 mode. Where no partial sum leaves the range it is the exact sum, each product times 2^e
rounded down, and SAT stays clear; every step's result lies in the range, and a step that leaves it sets SAT. -/
def Clauses.IntegerAccumulation : Prop :=
  ∀ (a b : Nat → Int) (e : Nat) (acc : BitVec 32),
    let part := fun (n : Nat) => acc.toInt + ((List.range n).map fun k => a k * b k * 2 ^ e).sum
    let down := fun (n : Nat) => acc.toInt + ((List.range n).map fun k => a k * b k / 2 ^ e).sum
    ((∀ n, n ≤ 128 → -(2 ^ 31) ≤ part n ∧ part n < 2 ^ 31) → (accInt a b e acc).1.toInt = part 128 ∧ (accInt a b e acc).2 = false) ∧
    ((∀ n, n ≤ 128 → -(2 ^ 31) ≤ down n ∧ down n < 2 ^ 31) →
      (accInt a b (-e) acc).1.toInt = down 128 ∧ (accInt a b (-e) acc).2 = false) ∧
    ((∃ n, n < 128 ∧ (∀ k, k < n → a k * b k = 0) ∧ ¬ (-(2 ^ 31) ≤ part (n + 1) ∧ part (n + 1) < 2 ^ 31)) → (accInt a b e acc).2 = true)

/-- What the Splice engine does with its jobs: each clause cites its rules. -/
def Obligations.SpliceEngineRuns : Prop := Clauses.SpliceEngine ∧ Clauses.JobEnds ∧ Clauses.TileForwarding ∧ Clauses.IntegerAccumulation

/-- R286 R291: a Reeve job that fills a ring gets the slot at TAIL, and its status becomes 2, when of the jobs of its core that fill the
ring, of either engine, it was accepted first (that one job at a time does is the model's choice, log 38), a slot is free, and no port's
bytes are landing in the ring; till then, and while its die's clocks stand still (31 R405), it waits. -/
def Clauses.ReeveSlots : Prop :=
  ∀ (eng id : Nat) (j : ReeveJob) (r : Ring) (s : State), findReeve s eng id = some j → j.id = id → ctlDk j.ctl = 3 →
    tabFind (s.getCore j.core).rings (ctlRh j.ctl) = some r →
    let landing : Prop := ∃ p ∈ s.ports, ∃ l, p.2.landing = some l ∧ l.ring = some (j.core, ctlRh j.ctl) ∧ l.reason ≠ 1 ∧ l.reason ≠ 3
    let g := s.getCluster (clusterOf j.core)
    let oldest : Prop := (∀ k ∈ g.reeve ++ g.reeveBack, k.core = j.core → ctlDk k.ctl = 3 → ctlRh k.ctl = ctlRh j.ctl → j.serial ≤ k.serial) ∧
      (∀ k ∈ g.splice ++ g.spliceBack, ∀ h v tab, k.op = .mrdacc h v tab → k.core = j.core → h = ctlRh j.ctl → j.serial ≤ k.serial)
    let known : Prop := clusterOf j.core = eng ∧ id / 8192 = j.core % 8 ∧ id < 2 ^ 16 ∧ ∃ w, (id, w) ∈ (s.getCore j.core).reeveTab.jobs
    (j.running = false → (s.getDie (dieOf j.core)).stopped = false → (s.getCore j.core).evict = none → oldest → ¬ landing → r.free ≠ 0 → ∃ t, Steps (.reeveRingSlot eng id) s t ∧
      (∀ k ∈ (t.getCluster eng).reeve, k.id = id → k.running = true ∧ k.slot = some (r.slotOf r.tail)) ∧
      (known → jobStatus t j.core false (BitVec.ofNat 64 id) = 2) ∧ (∀ c, (t.getCore c).rings = (s.getCore c).rings) ∧
      (∀ c o, spadByte t c o = spadByte s c o)) ∧
    (j.running = true ∨ (s.getDie (dieOf j.core)).stopped = true ∨ landing ∨ r.free = 0 ∨ ¬ oldest → Steps (.reeveRingSlot eng id) s s)

/-- R289 R290 R292 R274-R276: a fill into the scratchpad lands every byte of its range, in the width of its pattern, and no other, and
ends DONE with PROGRESS its size. A job that has no slot yet, is held at a translation unit, waits for its units' acknowledgement, or stands
on a die whose clocks stand still does not end; one whose port told its end meanwhile ends when they run (31 R405). -/
def Clauses.ReeveFill : Prop :=
  ∀ (eng id : Nat) (j : ReeveJob) (s : State), findReeve s eng id = some j → j.id = id → (∀ k ∈ (s.getCluster eng).reeveBack, k.id ≠ id) →
    (j.running = false ∨ j.held = true ∨ (s.getDie (dieOf j.core)).stopped = true ∨ (j.sent = true ∧ j.ending = none) → Steps (.reeveJobEnd eng id) s s) ∧
    (∀ c, j.running = true → j.held = false → (s.getDie (dieOf j.core)).stopped = false → j.sent = true → j.ending = some c →
      Steps (.reeveJobEnd eng id) s (reeveFinish s eng j j.acked c false)) ∧
    (j.running = true → j.held = false → j.sent = false → j.killed = false → j.done = 0 → (s.getDie (dieOf j.core)).stopped = false →
      j.form = .cpyfill → ctlMsg j.ctl = false → ctlDk j.ctl = 1 → clusterOf j.core = eng → MemoryOk s → j.dst.toNat % optFill j.ctl = 0 →
      j.dst.toNat < 2 ^ 63 →
      let n := (j.shape.extractLsb' 0 40).toNat
      ∃ t, Steps (.reeveJobEnd eng id) s t ∧ (∀ k ∈ (t.getCluster eng).reeve, k.id ≠ id) ∧
        (∀ i, i < n → spadByte t j.core (j.dst.toNat + i) = j.src.extractLsb' (8 * (i % optFill j.ctl)) 8) ∧
        (∀ o, (o < j.dst.toNat ∨ j.dst.toNat + n ≤ o) → spadByte t j.core o = spadByte s j.core o) ∧
        (∀ c o, c ≠ j.core → spadByte t c o = spadByte s c o) ∧ t.mem = s.mem ∧
        (groupHeld s j.dom eng = false → ctlNotify j.ctl = false → id < 2 ^ 16 → id / 8192 = j.core % 8 →
          (∃ w, (id, w) ∈ (s.getCore j.core).reeveTab.jobs) → jobStatus t j.core false (BitVec.ofNat 64 id) = BitVec.ofNat 64 (n * 2 ^ 24 + 3)))

/-- R289 R290 R291 R292 R293 R294 R276: what the copying jobs land, into their own scratchpad or the ring slot they got, from the scratchpad or
from a line that its home slice holds under the domain's tag, and from the scratchpad into such a line; no other byte of a scratchpad
changes. CPY2 lands row by row by its strides, CPYPL a plane tile in its orientation, with SAT where an integer clamped. They end DONE with
PROGRESS the bytes landed, a filled slot with its metadata and TAIL advanced. A job that meets a fault at byte p ends FAILED with its cause
and PROGRESS p, TAIL as it was, or is held where an absent entry holds it (R99); a fill at a misaligned destination FAILED, MISALIGNED, at 0, or, where it
is a virtual one above bit 56, PAGE_ABSENT (R100).
(How a job's bytes are read and landed piece by piece is the model's choice, log 12.) -/
def Clauses.ReeveCopies : Prop :=
  ∀ (eng id : Nat) (j : ReeveJob) (s : State), findReeve s eng id = some j → j.id = id → (∀ k ∈ (s.getCluster eng).reeveBack, k.id ≠ id) →
    j.running = true → j.held = false → j.sent = false → j.killed = false → j.done = 0 → (s.getDie (dieOf j.core)).stopped = false →
    ctlMsg j.ctl = false → clusterOf j.core = eng → MemoryOk s →
    let src := j.src.toNat
    let n := (j.shape.extractLsb' 0 40).toNat
    let sh := fun (i : Nat) => (j.shape.extractLsb' (16 * i) 16).toNat
    let kinds := fun (a b : Nat) => ctlSk j.ctl = a ∧ ctlDk j.ctl = b
    let dest := fun (da : Nat) => (ctlDk j.ctl = 1 ∧ da = j.dst.toNat) ∨ (ctlDk j.ctl = 3 ∧ ∃ r k, findRing s j.core (ctlRh j.ctl) = some r ∧
      j.slot = some k ∧ da = slotBase r k)
    let ends := fun (t : State) (w : Word) => (∀ k ∈ (t.getCluster eng).reeve, k.id ≠ id) ∧ ∃ u, t = jobEnded u {
      splice := false, core := j.core, id := id, dom := j.dom, status := w, notify := j.ctl.getLsbD 55, ep := (j.ctl.extractLsb' 56 8).toNat,
      words := if j.form = .cpyrd then [BitVec.ofNat 64 id, w, j.src, j.dst] else [BitVec.ofNat 64 id, w] }
    let done := fun (t : State) (n : Nat) (m : Word) => ends t (BitVec.ofNat 64 (n * 2 ^ 24) ||| m) ∧
      (ctlDk j.ctl = 3 → ∀ r k, findRing s j.core (ctlRh j.ctl) = some r → j.slot = some k → ∃ q, findRing t j.core (ctlRh j.ctl) = some q ∧
        q.tail = r.tail + 1 ∧ q.head = r.head ∧ q.desc = r.desc ∧ (k < r.meta_.length → q.meta_.getD k 0 = if j.form = .cpypl then
          BitVec.ofNat 64 ((j.ctl.extractLsb' 0 5).toNat + 64 * (if j.ctl.getLsbD 6 then 1 else 0) + 2 ^ 8 * (j.ctl.extractLsb' 8 8).toNat) else 0))
    let failed := fun (t : State) (p : Nat) (c : Cause) => ends t (BitVec.ofNat 64 (p * 2 ^ 24 + c.code * 2 ^ 16 + 4)) ∧
      ∀ c' h, findRing t c' h = findRing s c' h
    let others := fun (t : State) (mine : Nat → Prop) => ∀ c o, (c ≠ j.core ∨ ¬ mine o) → spadByte t c o = spadByte s c o
    let linear : Prop := j.form = .cpy ∨ j.form = .cpyrd
    let held := fun (va : Word) (pl : Nat) (l : L2Line) => va.toNat < 2 ^ 57 ∧ findL2 s j.dom (vlineOf va) = some (pl, l) ∧ tabFind s.l2 pl = some l ∧
      (l.perms.k = false ∨ j.kernel = true) ∧ tabFind s.ext pl = none ∧ closedTo s j.dom pl = false
    let steps := fun (t : State) => Steps (.reeveJobEnd eng id) s t
    (∀ da, linear → ctlSk j.ctl = 1 → dest da → src + n < 2 ^ 63 → da + n < 2 ^ 63 → (src + n ≤ da ∨ da + n ≤ src) → ∃ t, steps t ∧ done t n 3 ∧
      (∀ i, i < n → spadByte t j.core (da + i) = spadByte s j.core (src + i)) ∧ others t (fun o => da ≤ o ∧ o < da + n)) ∧
    (∀ da pl l, linear → ctlSk j.ctl = 0 → dest da → da + n < 2 ^ 63 → held j.src pl l → l.perms.r = true → src % 128 + n ≤ 128 → ∃ t, steps t ∧ done t n 3 ∧
      (∀ i, i < n → spadByte t j.core (da + i) = homeByte s pl (src % 128 + i)) ∧ others t (fun o => da ≤ o ∧ o < da + n)) ∧
    (∀ pl l, linear → kinds 1 0 → src + n < 2 ^ 63 → held j.dst pl l → l.perms.w = true → j.dst.toNat % 128 + n ≤ 128 → ∃ t, steps t ∧ done t n 3 ∧
      (∀ i, i < n → homeByte t pl (j.dst.toNat % 128 + i) = spadByte s j.core (src + i)) ∧ others t (fun _ => False) ∧
      (∀ q i, i < 128 → (q ≠ pl ∨ i < j.dst.toNat % 128 ∨ j.dst.toNat % 128 + n ≤ i) → homeByte t q i = homeByte s q i)) ∧
    (j.form = .cpy2 → kinds 1 1 →
      let width := sh 0
      let rows := sh 1
      let at_ := fun (r c : Nat) => j.dst.toNat + r * sh 3 + c
      width ≤ sh 3 ∨ rows = 1 → src + rows * sh 2 + width < 2 ^ 63 → at_ rows width < 2 ^ 63 →
      (∀ r c r' c', r < rows → c < width → r' < rows → c' < width → at_ r c ≠ src + r' * sh 2 + c') → ∃ t, steps t ∧ done t (rows * width) 3 ∧
        (∀ r c, r < rows → c < width → spadByte t j.core (at_ r c) = spadByte s j.core (src + r * sh 2 + c)) ∧
        others t (fun o => ∃ r c, r < rows ∧ c < width ∧ o = at_ r c)) ∧
    (∀ da, j.form = .cpypl → ctlSk j.ctl = 1 → dest da → src < 2 ^ 62 → da < 2 ^ 62 →
      let f := (j.ctl.extractLsb' 0 5).toNat
      let w := fmtWidth f
      let num := fun (r o k : Nat) => leNat (memBytes (s.getCore j.core).spad (src + r * (j.shape.extractLsb' 0 24).toNat + o) k)
      let int := fun (b : Nat) => if 0x18 ≤ f ∧ 128 ≤ b then (b : Int) - 256 else (b : Int)
      let lo : Int := if 0x18 ≤ f then -(2 ^ (w - 1)) else 0
      let hi : Int := if 0x18 ≤ f then 2 ^ (w - 1) - 1 else 2 ^ w - 1
      let goal := if f = 1 then fmtBF16 else if f = 2 then fmtF16 else fmtN19
      let el := fun (r c : Nat) => if f ∈ [1, 2, 3] then (if j.ctl.getLsbD 5 then (fpConv goal .rne false (unpackF fmtF32 (num r (4 * c) 4))).1 else num r (2 * c) 2)
        else if f = 4 then num r c 1 else if f = 5 then num r (16 * (c / 21)) 16 / 2 ^ (6 * (c % 21)) % 64
        else if f = 6 then num r (c / 2) 1 / 16 ^ (c % 2) % 16 else (max lo (min hi (int (num r c 1))) % 2 ^ w).toNat
      f ∈ [1, 2, 3, 4, 5, 6] ∨ (0x10 ≤ f ∧ f < 0x20) → (f = 3 → j.ctl.getLsbD 5 = true) → ∃ t, steps t ∧
        (∀ r c, r < 128 → c < 128 → planeBits (t.getCore j.core).spad da w (if j.ctl.getLsbD 6 then r else c) (if j.ctl.getLsbD 6 then c else r) =
          el r c % 2 ^ w) ∧
        others t (fun o => da ≤ o ∧ o < da + 2048 * w) ∧
        (let clamps : Prop := 0x10 ≤ f ∧ ∃ r c, r < 128 ∧ c < 128 ∧ ¬ (lo ≤ int (num r c 1) ∧ int (num r c 1) ≤ hi)
         (clamps → done t (2048 * w) (256 + 3)) ∧ (¬ clamps → done t (2048 * w) 3))) ∧
    (∀ p c v z u, let dk := (jobDest s j).1
      j.form ≠ .cpypl → ¬ (j.form = .cpyfill ∧ (jobDest s j).2.toNat % optFill j.ctl ≠ 0) → copyLoop s j dk (jobDest s j).2 (copySize j.form j.shape j.ctl)
        (copySize j.form j.shape j.ctl + 1) 0 s = (p, some (.fault c v z), u) →
      let holds : Prop := j.modes.getLsbD 2 = true ∧ c = .pageAbsent ∧ v.toNat < 2 ^ 57 ∧ (u.getDom j.dom).troot.getLsbD 0 = true
      (¬ holds → ∃ t, steps t ∧ failed t p c) ∧
      (holds → (u.getDom j.dom).halted = true → ∃ t, steps t ∧ t = putReeve u eng { j with held := true, done := p })) ∧
    (∀ da, linear → ctlSk j.ctl = 0 → dest da → 0 < n → 2 ^ 57 ≤ src → ∃ t, steps t ∧ failed t 0 .pageAbsent ∧
      others t (fun o => da ≤ o ∧ o < da + 4096)) ∧
    (∀ da, j.form = .cpyfill → dest da → da < 2 ^ 63 → da % 2 ^ (j.ctl.extractLsb' 0 2).toNat ≠ 0 → ∃ t, steps t ∧ failed t 0 .misaligned) ∧
    (j.form = .cpyfill → ctlDk j.ctl = 0 → j.dst.toNat % 2 ^ (j.ctl.extractLsb' 0 2).toNat ≠ 0 → ∃ t, steps t ∧
      failed t 0 (if j.dst.toNat < 2 ^ 57 then .misaligned else .pageAbsent))

/-- R265 R254: a deferred arrival whose jobs have landed is counted down at its block, where the block passes its check, else JOB_ERROR
goes to the kernel; one that still waits for a job stays. A continuation kept at its home slice goes out once its context holds the
core. (What a failed access of the device leaves is the model's choice, log 80.) -/
def Clauses.DeferredCompletions : Prop :=
  (∀ (i : Nat) (d : Defer) (s : State), s.defers[i]? = some d →
    let r : State := { s with defers := s.defers.eraseIdx i }
    let error := fun (u : State) => notice u (kernelOf d.dom) 4090 [6, 3, d.block, BitVec.ofNat 64 d.core, 0, BitVec.ofNat 64 d.dom, 0]
    let access := atHome r d.core d.dom (clusterOf d.core) d.kernel .both d.block (fun h =>
      let b := lineNat h.data (d.block.toNat % 128) 64
      (lineOf (d.block.toNat % 128) 64 (passRule (blockSet32 b 24 (barDefer b - 1))), fieldMask [(8, 4), (16, 4), (24, 4)] (d.block.toNat % 128), (fun _ => none), ()))
    (d.jobs ≠ [] → Steps (.barrierDeferLand i) s s) ∧
    (d.jobs = [] → (2 ^ 57 ≤ d.block.toNat ∨ d.block.toNat % 64 ≠ 0) → Steps (.barrierDeferLand i) s (error r)) ∧
    (d.jobs = [] → d.block.toNat < 2 ^ 57 → d.block.toNat % 64 = 0 →
      (∀ h t, access = .ok ((), h, t) → Steps (.barrierDeferLand i) s t) ∧
      (∀ c v t, access = .error (.fault c v t) → Steps (.barrierDeferLand i) s (error (keepTraffic r t))))) ∧
  (∀ (i : Nat) (m : Msg) (s : State), s.conts[i]? = some m →
    ((s.getCore m.core).dom = some m.dom → Steps (.continuationDeferredSend i) s (continuationDue { s with conts := s.conts.eraseIdx i } m)) ∧
    ((s.getCore m.core).dom ≠ some m.dom → Steps (.continuationDeferredSend i) s s))

/-- R18 R273: an instruction that waits at the port of either engine, not issued, is fetched and issued anew once there is room and its
core's turn has come (log 82, the model's choice where the turn starts), and does what it does when it issues; without room, out of
turn, while its die's clocks stand still (31 R405), or with a budget that has ended (03 R73), nothing happens. A fetch that faults traps. -/
def Clauses.PortAcceptance : Prop :=
  ∀ (splice : Bool) (s : State), s.live = true → s.act.wait = some (.port splice) → s.act.status = .running → s.act.halt = .none →
    let g := s.getCluster (clusterOf s.core)
    let room : Prop := if splice then g.splice.length < 16 ∧ g.spliceBack = [] else g.reeve.length < 16 ∧ g.reeveBack = []
    let fetch := fetchLine s s.core s.act.dom s.act.kernel s.act.pc
    let on : Prop := (s.getDie (dieOf s.core)).stopped = false ∧ budgetOver s s.core s.act s.time = false
    (¬ room ∨ portTurn s splice = false ∨ ¬ on → Steps (.jobAccept s.core s.slot) s s) ∧
    (room → portTurn s splice = true → on → (∀ c v u, fetch = .error (.fault c v u) → Steps (.jobAccept s.core s.slot) s (takeTrap u c v)) ∧
      ∀ l u, fetch = .ok (l, u) → ∀ (d : SReg) (a b : HNum) (v : AccTarget) (q : BitVec 4),
        ∀ i ∈ [Instr.mma d a b, .mmar d a b, .mmarLast d a b, .mzero d, .mrdacc d a v, .cpy d q, .cpy2 d q, .cpypl d q, .cpyrd d q, .cpyfill d q],
          decodeMain (wordAt l s.act.pc) = .ok i → ∃ t, Steps (.jobAccept s.core s.slot) s t ∧ Steps i u t)

/-- The Reeve engine's own steps, the completions that wait for them, and the acceptance of a waiting instruction by either engine:
each clause cites its rules. -/
def Obligations.ReeveEngine : Prop := Clauses.ReeveSlots ∧ Clauses.ReeveFill ∧ Clauses.ReeveCopies ∧ Clauses.DeferredCompletions ∧ Clauses.PortAcceptance

/-- R299 R332 R341 R376: MTRD, MTCLS and PDLY. MTRD reads QBAL after every charge of the core's meter has reached the store; MTCLS a class's cost
with the scale in force; PDLY a delay accumulator, 0 from index 49 up. -/
def Clauses.MeterReads : Prop :=
  ∀ (d : SReg) (c : BitVec 4) (n : BitVec 6) (s : State),
    let g := s.getCluster (clusterOf s.core)
    let scale := if s.act.modes.getLsbD 5 then g.hscale else g.cscale
    (Issues (.mtrd d) s → ∃ u, Completes (.mtrd d) s (u.setS d (u.getDom s.act.dom).qbal) .seq [] ∧ u = flushMeter s (clusterOf s.core)) ∧
    (Issues (.mtrd d) s → (∀ q ∈ s.charges, q.meter ≠ clusterOf s.core) →
      Completes (.mtrd d) s (s.setS d (s.getDom s.act.dom).qbal) .seq []) ∧
    (Issues (.mtcls d c) s → costOf s c.toNat < 2 ^ 16 → scale < 2 ^ 16 →
      Completes (.mtcls d c) s (s.setS d (BitVec.ofNat 64 (costOf s c.toNat + 2 ^ 16 * scale))) .seq []) ∧
    (Issues (.pdly d n) s →
      (n.toNat < 49 → Completes (.pdly d n) s (s.setS d (BitVec.ofNat 64 (tabGet 0 (s.getCore s.core).da n.toNat))) .seq []) ∧
      (49 ≤ n.toNat → Completes (.pdly d n) s (s.setS d 0) .seq []))

/-- Reading and waiting for a job's status, and the meters: each clause cites its rules. -/
def Obligations.JobsAndMeters : Prop := Clauses.JobStatus ∧ Clauses.MeterReads

/-- R103 R297: what each transaction makes of a frame's entry. A frame that FACCEPT finds FREE becomes the acceptor's; FOFFER to 255
frees it; FRECALL starts the deadline of R105; FRELEASE returns a lent frame, and acknowledges a closing. Where the issuer is
not the party the transaction needs the answer is AUTHORITY, tested before STATE; where OWNED needs PEER = OWNER and BUSY is given
is the model's reading (log 50). -/
def Clauses.FrameTable : Prop :=
  ∀ (s : State) (q : FrameReq) (f : Frame),
    let next := frameNext s q f
    let home := f.state = .owned ∧ f.peer = f.owner
    let who := q.for_
    let party := fun (p : Nat) => p ≠ who → next = .error .authority
    (q.op = .accept →
      (f.state = .free → next = .ok { f with state := .owned, owner := who, peer := who, keyid := who, late := 0 }) ∧
      (f.state = .offered → f.peer = who → next = .ok { f with state := .owned, owner := f.peer }) ∧
      (f.state ≠ .free → party f.peer) ∧ (f.peer = who → f.state ≠ .free → f.state ≠ .offered → next = .error .state)) ∧
    (q.op = .offer → party f.owner ∧ (f.owner = who →
      (home → q.peer = 255 → next = .ok { f with state := .free, owner := 255, peer := 255 }) ∧
      (home → q.peer ≠ 255 → next = .ok { f with state := .offered, peer := q.peer }) ∧ (¬ home → next = .error .state))) ∧
    (q.op = .decline → party f.peer ∧ (f.peer = who →
      (f.state = .offered → next = .ok { f with state := .owned, peer := f.owner }) ∧ (f.state ≠ .offered → next = .error .state))) ∧
    (q.op = .withdraw → party f.owner ∧ (f.owner = who →
      (f.state = .offered → next = .ok { f with state := .owned, peer := f.owner }) ∧ (f.state ≠ .offered → next = .error .state))) ∧
    (q.op = .lend → party f.owner ∧ (f.owner = who → (¬ home → next = .error .state) ∧
      (home → (∀ x ∈ s.frames, ¬ (x.2.state = .owned ∧ x.2.peer = q.peer ∧ x.2.peer ≠ x.2.owner)) →
        next = .ok { f with state := .lent, peer := q.peer, dclass := q.dclass }) ∧
      (home → (∃ x ∈ s.frames, x.2.state = .owned ∧ x.2.peer = q.peer ∧ x.2.peer ≠ x.2.owner) → next = .error .busy))) ∧
    (q.op = .recall → party f.owner ∧ (f.owner = who → (f.state ≠ .lent → next = .error .state) ∧
      (f.state = .lent → f.dclass < 8 →
        let limit := if f.dclass = 5 then 1000000 else if f.dclass = 6 then 4000000 else if f.dclass = 7 then 16000000 else 1000 * 4 ^ f.dclass
        next = .ok { f with state := .recalling, deadline := s.time + limit, closing := false, pending := [], dirtied := [], lateLines := [] }))) ∧
    (q.op = .release → party f.peer ∧ (f.peer = who →
      (f.state = .lent ∨ (f.state = .recalling ∧ s.time < f.deadline ∧ f.closing = false) ∨ (f.state = .owned ∧ f.peer ≠ f.owner) →
        next = .ok { f with state := .owned, peer := f.owner }) ∧
      (f.state = .owned → f.peer = f.owner → next = .error .state)))

/-- R296 R297 R104: the frame transactions, FSCRUB apart. One that R297 refuses completes with that RESULT and COMMITTED 0 and changes
no frame. Else its frames commit in ascending address, `m` of them, up to the first that R103 refuses, whose RESULT is the transaction's:
each of the `m` has the entry `new` of R103, every other frame keeps its entry, and no line or translation is left to a domain that may
no longer have the frame. The status shows COMMITTED and the entry of the frame it stopped at, or of the last. (`frameRefused` holds the order of R297's tests, of which the
model has chosen what the table leaves open: log 50; which lines leave the caches: log 48.) -/
def Clauses.FrameTransactions : Prop :=
  ∀ (d a b : SReg) (s : State), s.act.wait ≠ some .frameOp →
    let w := s.getS b
    let first := (s.getS a).toNat / 4096
    let shows := fun (r n : Nat) (u : State) => (BitVec.ofNat 64 r <<< 56) ||| (BitVec.ofNat 64 n <<< 32) |||
      (if isDram (4096 * first) then (getFrame u first).word else 0)
    let rule := fun (i : Instr) (op : FrameOp) => Issues i s →
      let q := frameReq op w
      (∀ r, frameRefused s q s.act.dom (s.getS a) w = some r → ∃ u, Completes i s u .seq [] ∧
        (d ≠ 0 → u.getS d = shows r.code 0 u) ∧ (∀ f, getFrame u f = getFrame s f) ∧ (∀ x, x ≠ d → u.getS x = s.getS x)) ∧
      (frameRefused s q s.act.dom (s.getS a) w = none → ∀ (m r : Nat) (new : Nat → Frame), m ≤ q.count →
        (∀ n, n < m → frameNext s q (getFrame s (first + n)) = .ok (new n)) →
        (m = q.count ∧ r = 0 ∨ m < q.count ∧ ∃ e, frameNext s q (getFrame s (first + m)) = .error e ∧ r = e.code) →
        ∃ u, Completes i s u .seq [] ∧ (∀ n, n < m → getFrame u (first + n) = new n) ∧
          (∀ f, f < first ∨ first + m ≤ f → getFrame u f = getFrame s f) ∧ (∀ x, x ≠ d → u.getS x = s.getS x) ∧
          (d ≠ 0 → u.getS d = (BitVec.ofNat 64 r <<< 56) ||| (BitVec.ofNat 64 m <<< 32) |||
            (getFrame u (first + min m (q.count - 1))).word) ∧
          (∀ n, n < m → (∀ t ∈ u.tlb, (frameDenies (new n) t.dom s.time).isSome = true → t.coversFrame (first + n) = false) ∧
            (∀ t ∈ u.tlb, first + n ∈ t.tables → tableFrameOk u t.dom (first + n) = true) ∧
            ∀ c e vl l, findL1 u c e vl = some l → l.pl / 32 = first + n → frameDenies (new n) e s.time = none))
    rule (.foffer d a b) .offer ∧ rule (.faccept d a b) .accept ∧ rule (.fdecline d a b) .decline ∧
    rule (.fwithdraw d a b) .withdraw ∧ rule (.flend d a b) .lend ∧ rule (.frecall d a b) .recall ∧ rule (.frelease d a b) .release

/-- The frame transactions: each clause cites its rules. -/
def Obligations.Frames : Prop := Clauses.FrameTable ∧ Clauses.FrameTransactions

/-- R296 R297 R103 R363 R405: FSCRUB. In host-assisted mode it completes at once; in hardware mode it waits, its frame SCRUBBING, until no outside
host holds a line of it or of the receipt's buffer, and then completes with the frame OWNED by its owner, or FREE if it asked for
that, while the clocks of its issuer's die run; a frame found uncorrectable becomes RETIRED. Whose mode counts is the model's choice (log 47), as are what a scrub drops
and zeroes beyond the frame's bytes (log 48) and what becomes of a receipt that cannot be written (log 54). (An activation that was halted and
requested while it waited is dumped after the word, 03 R73: the second clause is of one that was not.) -/
def Obligations.FrameScrub : Prop :=
  (∀ (d a b : SReg) (s : State), Issues (.fscrub d a b) s → s.act.wait ≠ some .frameOp →
    let w := s.getS b
    let q := frameReq .scrub w
    let k := s.act.dom
    let first := (s.getS a).toNat / 4096
    let f := getFrame s first
    receiptFault s k (clusterOf s.core) s.core (s.getS d) = none → frameRefused s q k (s.getS a) w = none → q.count = 1 →
    f.owner = q.for_ → f.peer = f.owner → f.state = .owned →
    (scrubHost s q.for_ = true → ∃ u, Completes (.fscrub d a b) s u .seq [] ∧ (getFrame u first).state = .owned ∧
      (getFrame u first).keyid = f.owner ∧ (d ≠ 0 → u.getS d = (1 <<< 32) ||| (getFrame u first).word)) ∧
    (scrubHost s q.for_ = false → ∃ u, Stalls (.fscrub d a b) s u .frameOp ∧ (getFrame u first).state = .scrubbing ∧
      (∃ x, u.scrubs = s.scrubs ++ [x] ∧ x.core = s.core ∧ x.slot = s.slot ∧ x.entered = [first] ∧ x.rel = q.rel ∧ x.for_ = q.for_ ∧
        x.first = first ∧ x.asked = 1))) ∧
  (∀ (first core slot : Nat) (x : Scrub) (y : Act) (v : State), FormOk v →
    (v.scrubs.find? fun x => decide (x.core = core ∧ x.slot = slot)) = some x → v.findAct core slot = some y → y.wait = some .frameOp →
    (y.halt = .none ∨ y.halt ≠ .step ∧ y.preempt = none) → slot < 64 → x.entered = [first] → (∀ e ∈ v.ext, e.1 / 32 ≠ first) → (getFrame v first).state = .scrubbing →
    receiptWaits v y.dom (clusterOf x.core) x.core x.buffer = none →
    ((v.getDie (dieOf core)).stopped = true → Steps (.frameTransactionStatus core slot) v v) ∧
    ((v.getDie (dieOf core)).stopped = false → ∃ t, Steps (.frameTransactionStatus core slot) v t ∧ t.core = core ∧ t.slot = slot ∧ t.act.wait = none ∧
      (x.rel = false → (getFrame t first).state = .owned ∧ (getFrame t first).owner = (getFrame v first).owner ∧
        (getFrame t first).keyid = (getFrame v first).owner) ∧
      (x.rel = true → (getFrame t first).state = .free) ∧
      (∀ z ∈ t.scrubs, ¬ (z.core = x.core ∧ z.slot = x.slot)))) ∧
  (∀ (f : Nat) (s : State), isDram (4096 * f) = true → ∃ t, Steps (.frameFoundUncorrectable f) s t ∧ (getFrame t f).state = .retired ∧
    ∀ g, g ≠ f → getFrame t g = getFrame s g)

/-- R105 R106 R365: a recall closes. At the deadline of a RECALLING frame closing begins and the borrower's translation entries for it
go; each cluster that holds a line of it loses the borrower's lines at one instant, and if any of them was dirty is counted with
the number of such lines of the frame; the owner's kernel is told of them by a LATE_WRITE, which names the cluster, 240 + g for
group g of the hub die; and once every cluster is done and every late write told the frame is OWNED with PEER still the borrower
and LATE counted up to 3, and RECALL_FORCED goes to both kernels, once where they are one (log 49). -/
def Obligations.RecallClosing : Prop :=
  ∀ (frame : Nat) (s : State),
    let f := getFrame s frame
    (f.state = .recalling → f.closing = false → f.deadline ≤ s.time → ∃ t, Steps (.recallDeadline frame) s t ∧
      (getFrame t frame).closing = true ∧ (getFrame t frame).state = .recalling ∧
      (∀ e ∈ t.tlb, e.dom = f.peer → e.coversFrame frame = false) ∧ (∀ e ∈ t.tlb, frame ∈ e.tables → tableFrameOk t e.dom frame = true) ∧
      (∀ g, g ∈ (getFrame t frame).pending ↔ g < 164 ∧ clusterHolds s g frame f.peer = true) ∧
      (∀ g, g ≠ frame → getFrame t g = getFrame s g)) ∧
    ((f.state ≠ .recalling ∨ s.time < f.deadline) → Steps (.recallDeadline frame) s s) ∧
    (∀ g, f.closing = true → g ∈ f.pending → ∃ t, ∃ dirty : List Nat, Steps (.recallClusterInvalidate frame g) s t ∧ g ∉ (getFrame t frame).pending ∧
      (∀ c vl l, clusterOf c = g → findL1 t c f.peer vl = some l → l.pl / 32 ≠ frame) ∧
      dirty.Nodup ∧ (∀ i, i ∈ dirty ↔ i < 32 ∧ ∃ x ∈ s.cores, clusterOf x.1 = g ∧ ∃ l ∈ x.2.l1, l.pl = 32 * frame + i ∧ l.dom = f.peer ∧ l.dirty ≠ 0) ∧
      (dirty = [] → (getFrame t frame).lateLines = f.lateLines ∧ (getFrame t frame).dirtied = f.dirtied) ∧
      (dirty ≠ [] → (getFrame t frame).lateLines = f.lateLines ++ [(g, dirty.length)] ∧ (getFrame t frame).dirtied = f.dirtied ++ [g])) ∧
    (∀ g n, (f.lateLines.find? fun x => decide (x.1 = g)) = some (g, n) → ∃ u, Steps (.lateWrite frame g) s (notice u (kernelOf f.owner) 4093
        ([7, 4096 * frame, f.owner, f.peer, if g < 160 then g else 240 + (g - 160), n].map (BitVec.ofNat 64))) ∧
      u.doms = s.doms ∧ u.flight = s.flight ∧ u.waiting = s.waiting ∧
      (getFrame u frame).lateLines = f.lateLines.filter (fun x => decide (x.1 ≠ g)) ∧ ∀ k, k ≠ frame → getFrame u k = getFrame s k) ∧
    (f.closing = true → f.state = .recalling → f.pending = [] → f.lateLines = [] → ∃ u,
      let words := [4, 4096 * frame, f.owner, f.peer, f.dirtied.length, min 3 (f.late + 1)].map (BitVec.ofNat 64)
      let told := notice u (kernelOf f.owner) 4093 words
      Steps (.recallClosingComplete frame) s (if kernelOf f.owner = kernelOf f.peer then told else notice told (kernelOf f.peer) 4093 words) ∧
      u.doms = s.doms ∧ u.flight = s.flight ∧ u.waiting = s.waiting ∧
      (getFrame u frame).state = .owned ∧ (getFrame u frame).closing = false ∧ (getFrame u frame).owner = f.owner ∧
      (getFrame u frame).peer = f.peer ∧ (getFrame u frame).late = min 3 (f.late + 1) ∧ ∀ g, g ≠ frame → getFrame u g = getFrame s g)

/-- R300 R301 R302: the kernel operations' answers. `targeted` are the tests of a core and a domain; the status word holds RESULT in [63:56] and
VALUE below. ACTLOAD loads the record's actor, ACTUNLD removes an idle one, ACTBIND removes or replaces a tag's binding, TINV
removes the translations and lines of a page, QSET writes QBAL, EPREQ grants and revokes an entry. (VALUE of one that fails is
free, log 16. The model's choices: the order of the tests of a target, log 50; what counts as an area in the domain's frames, log
51; the tests of an unloading, a binding and an invalidation, log 52; those of a grant, log 55, and that a valid entry is INUSE after them,
log 95; in which mode the device reads and
writes for a domain, log 23.) -/
def Obligations.KernelOperations : Prop :=
  ∀ (d a b : SReg) (s : State), s.act.wait ≠ some .kernelOp →
    let w := s.getS b
    let x := s.getS a
    let k := s.act.dom
    let c := (w.extractLsb' 0 12).toNat
    let dm := (w.extractLsb' 12 8).toNat
    let subject := fun (m : Nat) => 1 ≤ m ∧ m ≤ 194 ∧ domExists s m = true ∧ kernelOf m = k ∧ (s.getDom m).halted = false
    let holds : Prop := c < 1312 ∧ subject dm ∧ (s.getCore c).dom = some dm
    let targeted : Prop := w.extractLsb' 20 44 = 0 ∧ holds
    let answers := fun (i : Instr) (v : Nat) (P : State → Prop) => ∃ u, Completes i s u .seq [] ∧ (d ≠ 0 → u.getS d = BitVec.ofNat 64 v) ∧ P u
    let fails := fun (i : Instr) (r : Nat) => ∃ u, Completes i s u .seq [] ∧ (d ≠ 0 → (u.getS d).extractLsb' 56 8 = BitVec.ofNat 8 r) ∧
      u = { s with act := u.act, free := s.free + 1 } ∧ ∀ y, y ≠ d → u.getS y = s.getS y
    (heldTest s k w 0 = none ↔ targeted) ∧
    (Issues (.actload d a b) s → targeted → ∀ bs v, readRecord s x = .ok (bs, v) →
      (∀ r, recordRefused v c dm bs = some r → ∃ u, Completes (.actload d a b) s u .seq [] ∧
        (d ≠ 0 → (u.getS d).extractLsb' 56 8 = BitVec.ofNat 8 r.code)) ∧
      (recordRefused v c dm bs = none → ∀ z, areasOk v dm (clusterOf s.core) (actorAreas (recordIndex bs) (actorOf bs)) = .ok z →
        recordClash z c dm (recordIndex bs) (actorOf bs) = none → answers (.actload d a b) (recordIndex bs) fun u =>
          findActor u c (recordIndex bs) = some (actorOf bs) ∧
          ∀ j, j ≠ recordIndex bs → findActor u c j = findActor z c j)) ∧
    (Issues (.actunld d a b) s → targeted → x.toNat < 16 →
      (findActor s c x.toNat = none → fails (.actunld d a b) 6) ∧
      (findActor s c x.toNat ≠ none → actorBusy s c dm x.toNat = true → fails (.actunld d a b) 9) ∧
      (findActor s c x.toNat ≠ none → actorBusy s c dm x.toNat = false → ∀ n v, evictTags s c dm x.toNat (List.range 16) = .ok (n, v) →
        n < 2 ^ 56 → answers (.actunld d a b) n fun u => (u.getCore c).actors = tabErase (v.getCore c).actors x.toNat)) ∧
    (Issues (.actbind d a b) s → w.extractLsb' 29 35 = 0 → holds →
      let i := (w.extractLsb' 20 4).toNat
      let t := (w.extractLsb' 24 4).toNat
      (findTag s c i t = none → fails (.actbind d a b) 6) ∧
      (∀ old, findTag s c i t = some old → w.getLsbD 28 = true →
        (tagGranted s c dm i t = true → fails (.actbind d a b) 7) ∧
        (tagGranted s c dm i t = false → ∀ n v, evictTags s c dm i [t] = .ok (n, v) → findActor v c i = findActor s c i →
          answers (.actbind d a b) 0 fun u => findTag u c i t = none)) ∧
      (∀ old bs v z, findTag s c i t = some old → w.getLsbD 28 = false →
        devReadSpan s k (clusterOf s.core) s.core x 32 = .ok (bs, v) → tagFormatOk bs = true → tagRefused t (tagOf true bs) = false →
        (tagOf true bs).sbase.toNat % (tagOf true bs).ringBytes = 0 → areaOk v dm (clusterOf s.core) (tagOf true bs).sbase (tagOf true bs).ringBytes = .ok z →
        lenClash z c dm i t (tagOf true bs).len = false → old.head = old.tail → findActor z c i = findActor s c i →
        answers (.actbind d a b) 0 fun u => ∃ e, findTag u c i t = some e ∧ e.entry = (tagOf true bs).entry ∧ e.prio = (tagOf true bs).prio ∧
          e.fire = (tagOf true bs).fire ∧ e.len = (tagOf true bs).len ∧ e.sbase = (tagOf true bs).sbase ∧ e.broken = false)) ∧
    (Issues (.tinv d a b) s → w.toNat < 2 ^ 8 → subject w.toNat → x.toNat < 2 ^ 57 → answers (.tinv d a b) 0 fun u =>
      (∀ t ∈ u.tlb, t.dom = w.toNat → ¬ (t.vpn * 2 ^ t.log < 4096 * (x.toNat / 4096 + 1) ∧ 4096 * (x.toNat / 4096) < (t.vpn + 1) * 2 ^ t.log)) ∧
      (∀ core vl, vl / 32 = x.toNat / 4096 → findL1 u core w.toNat vl = none)) ∧
    (Issues (.qset d a b) s → w.toNat < 2 ^ 9 → subject (w.toNat % 2 ^ 8) →
      let old := (s.getDom (w.toNat % 2 ^ 8)).qbal.toInt
      let new : Int := if w.getLsbD 8 then max (-(2 ^ 63)) (min (2 ^ 63 - 1) (old + x.toInt)) else x.toInt
      answers (.qset d a b) (max (-(2 ^ 55)) (min (2 ^ 55 - 1) new) % 2 ^ 56).toNat fun u =>
        (u.getDom (w.toNat % 2 ^ 8)).qbal = BitVec.ofInt 64 new ∧
        ∀ m, m ≠ w.toNat % 2 ^ 8 → u.getDom m = s.getDom m) ∧
    (Issues (.epreq d a b) s → w.extractLsb' 29 35 = 0 → c < 1312 → subject dm → (s.getCore c).dom = some dm →
      let i := (w.extractLsb' 20 8).toNat
      i ≠ 253 →
      (w.getLsbD 28 = true → answers (.epreq d a b) i fun u => endpoint u c i = endpoint s c i &&& 0x7FFFFFFFFFFFFFFF ∧
        ∀ j, j ≠ i → endpoint u c j = endpoint s c j) ∧
      (w.getLsbD 28 = false → grantTest s c dm i x = none → (endpoint s c i).getLsbD 63 = true → fails (.epreq d a b) 4) ∧
      (w.getLsbD 28 = false → grantTest s c dm i x = none → (endpoint s c i).getLsbD 63 = false → answers (.epreq d a b) i fun u =>
        (endpoint u c i).getLsbD 63 = true ∧ (endpoint u c i).extractLsb' 0 16 = 0 ∧ (endpoint u c i).extractLsb' 16 47 = x.extractLsb' 16 47 ∧
        ∀ j, j ≠ i → endpoint u c j = endpoint s c j))

/-- R302 R303 R311 R187 R405: ARESUME and AKILL of a parked activation by the kernel its trap message went to. ARESUME makes it run again at the
word at EPC with its owed slots, or after that word; AKILL ends it. Another kernel's gets AUTHORITY; while the clocks of
its die are stopped the word waits (log 115). (Which bits of a designator
must be zero and what ARESUME does where a hold or HELD applies are the model's choices: logs 53, 59; so is the STATE that a halted
domain's activation is answered with, log 50.) -/
def Obligations.ParkedAnswers : Prop :=
  ∀ (d a b : SReg) (c k : Nat) (y : Act) (s : State), s.act.wait ≠ some .kernelOp → c < 4096 → k < 64 →
    s.getS a = BitVec.ofNat 64 (64 * c + k) → ¬ (c = s.core ∧ k = s.slot) → s.findAct c k = some y → y.status = .parked →
    let o := s.getS b
    let status := fun (i : Instr) (r : Nat) => ∃ u, Completes i s u .seq [] ∧ (d ≠ 0 → (u.getS d).extractLsb' 56 8 = BitVec.ofNat 8 r)
    let on : Prop := (s.getDie (dieOf c)).stopped = false
    let runs := fun (P : Act → Prop) => on → ∃ u z, Completes (.aresume d a b) s u .seq [] ∧ (d ≠ 0 → u.getS d = 0) ∧
      u.findAct c k = some z ∧ z.status = .running ∧ z.wait = none ∧ P z
    (Issues (.aresume d a b) s → o.toNat < 2 →
      (y.trapKernel ≠ s.act.dom → status (.aresume d a b) 2) ∧
      (y.trapKernel = s.act.dom → (s.getDom y.dom).halted = true → status (.aresume d a b) 1) ∧
      (y.trapKernel = s.act.dom → (s.getDom y.dom).halted = false → ¬ on → Stalls (.aresume d a b) s s (.clock c)) ∧
      (y.trapKernel = s.act.dom → (s.getDom y.dom).halted = false → (s.getDom y.dom).held = false →
        groupHeld s y.dom (clusterOf c) = false →
        (o = 0 → runs fun z => z.pc = y.regs.epc ∧ z.owed = (y.regs.eds.extractLsb' 0 2).toNat ∧ (z.owed ≠ 0 → z.btarget = y.regs.ebt) ∧
          z.regs = y.regs) ∧
        (o = 1 → (y.regs.eds.extractLsb' 0 2).toNat = 1 → runs fun z => z.pc = y.regs.ebt ∧ z.owed = 0 ∧ z.regs = y.regs) ∧
        (o = 1 → (y.regs.eds.extractLsb' 0 2).toNat = 0 → y.regs.lc0 = 0 → y.regs.lc1 = 0 →
          runs fun z => z.pc = y.regs.epc + 4 ∧ z.owed = 0 ∧ z.regs = y.regs))) ∧
    (Issues (.akill d a b) s → o = 0 → y.trapKernel = s.act.dom → (s.getDom y.dom).halted = false → ¬ on →
      Stalls (.akill d a b) s s (.clock c)) ∧
    (Issues (.akill d a b) s → o = 0 → y.trapKernel = s.act.dom → (s.getDom y.dom).halted = false → on →
      grantOf s y.dom = none → FormOk s → ∃ u, Completes (.akill d a b) s u .seq [] ∧ (d ≠ 0 → u.getS d = 0) ∧ u.findAct c k = none)

/-- R302 R320-R324: the three forms of the CTXSW word, which s[B] selects whichever row names it. With FRESH a core that no context holds,
on a die in service, is given to the domain with its in-core state empty; with RESTORE alone a context image whose seal matches
is restored; with neither the eviction of a held core begins, each activation of the domain on the core being saved at once or asked to
save, a running one under the PBUDGET of domain 2's context (21 R314), and its status comes once they are saved and the image is written. (The seal is
`Config.seal`, which no proof can evaluate: whether an image's seal matches is a hypothesis. The model's choices: the order of the tests of a target, log 50; the parts of an image whose
layout is open, log 35; what a restore takes up again, log 56; an image that can no longer be written, log 17; in which mode the
device reads and writes for a domain, log 23.) -/
def Obligations.ContextSwitch : Prop :=
  ∀ (d a b : SReg) (s : State), s.act.wait ≠ some .kernelOp → s.act.dom = 2 →
    let w := s.getS b
    let c := (w.extractLsb' 0 12).toNat
    let dm := (w.extractLsb' 12 8).toNat
    w.extractLsb' 20 8 = 0 → w.extractLsb' 30 34 = 0 → c < 1280 → 2 ≤ dm → dm ≤ 194 → domExists s dm = true → (s.getDom dm).halted = false →
    (∀ i ∈ [Instr.ctxsw d a b, .ctxswRestore d a b, .ctxswFresh d a b], Issues i s →
      (w.getLsbD 28 = true → w.getLsbD 29 = true → (s.getCore c).dom = none → dieInService s (dieOf c) = true →
        ∃ u, Completes i s u .seq [] ∧ (d ≠ 0 → u.getS d = 0) ∧ (u.getCore c).dom = some dm ∧ (u.getCore c).actors = [] ∧
          (u.getCore c).store = [] ∧ (u.getCore c).spad = [] ∧ (u.getCore c).rings = [] ∧ (u.getCore c).bank = [] ∧
          (∀ j, j ≠ 253 → endpoint u c j = 0) ∧ (u.getCore c).deque = [] ∧ (u.getCore c).code = [] ∧ (u.getCore c).splice = none ∧
          (u.getCore c).l1 = (s.getCore c).l1 ∧ (∀ j, j ≠ c → u.getCore j = s.getCore j)) ∧
      (w.getLsbD 28 = true → ((s.getCore c).dom ≠ none ∨ dieInService s (dieOf c) = false) →
        ∃ u, Completes i s u .seq [] ∧ (d ≠ 0 → (u.getS d).extractLsb' 56 8 = 1)) ∧
      (w.getLsbD 28 = true → w.getLsbD 29 = false → (s.getCore c).dom = none → dieInService s (dieOf c) = true →
        (s.getS a).extractLsb' 0 12 = 0 → ∀ bs v area z x, devReadAll s dm (clusterOf c) c (s.getS a) imageLines = .ok (bs, v) →
        bitsOf (recordWord bs 0) 27 16 = c → bitsOf (recordWord bs 0) 15 8 = dm →
        tabFind v.images (leNat ((bs.drop 0xFE0).take 32)) = some x → saveArea v dm c x.saved = .ok (area, z) →
        (Config.seal dm (z.getDom dm).gen (unsealed bs ++ area)).toNat = leNat ((bs.drop 0xFE0).take 32) → x.core = c → x.dom = dm →
        ∀ imgs y, regImages z c area x.acts = .ok (imgs, y) → ∃ u, Completes i s u .seq [] ∧ (d ≠ 0 → (u.getS d).extractLsb' 56 8 = 0) ∧
          u = (restoreCore y c dm x bs area imgs).setS d (u.getS d)) ∧
      (w.getLsbD 28 = false → w.getLsbD 29 = false → (s.getCore c).dom = some dm → (s.getCore c).evict = none →
        (s.getS a).extractLsb' 0 12 = 0 → ∀ v, areaOk s dm (clusterOf s.core) (s.getS a) 0xB0000 = .ok v → FormOk v →
        ∃ u, Stalls i s u .kernelOp ∧
          (∃ e, (u.getCore c).evict = some e ∧ e.byCore = s.core ∧ e.bySlot = s.slot ∧ e.d = d ∧ e.image = s.getS a) ∧
          (∀ k y, k < 64 → v.findAct c k = some y → y.dom = dm → ∃ z, u.findAct c k = some z ∧ ((∃ hard parked, z.status = .saved hard parked) ∨ z.preempt ≠ none)) ∧
          ((∀ y ∈ v.coreActs c, y.2.dom = dm → y.2.status = .running ∧ y.2.wait = none ∧ y.2.halt = .none ∧ y.2.preempt = none) →
            ∀ k y, k < 64 → ¬ (c = s.core ∧ k = s.slot) → v.findAct c k = some y → y.dom = dm → u.findAct c k =
              some { y with preempt := some { why := .evict, at_ := s.time, budget := (s.getDom 2).pbudget.toNat % 2 ^ 32 } }))) ∧
    (∀ (core slot : Nat) (e : Evict) (y : Act) (v v1 v2 v3 v4 : State) (area : List Byte),
      (v.cores.findSome? fun x => match x.2.evict, x.2.dom with
        | some e, some d => if e.byCore = core ∧ e.bySlot = slot then some (x.1, d, e) else none
        | _, _ => none) = some (c, dm, e) →
      FormOk v → slot < 64 → evictReady v c dm = true → (v.getDie (dieOf c)).stopped = false →
      (v.getDie (dieOf core)).stopped = false → v.findAct core slot = some y → (y.halt = .none ∨ y.halt ≠ .step ∧ y.preempt = none) → v1 = { v with serial := v.serial + 1 } →
      let records := ((v1.coreActs c).filter fun y => decide (y.2.dom = dm)).length - e.before
      let bs := imageBytes v1 c dm records v.serial
      devWriteAll v1 dm (clusterOf c) c e.image imageLines bs = .ok v2 → saveArea v2 dm c (v1.getCore c) = .ok (area, v3) →
      writeSeal v3 dm c e.image (Config.seal dm (v3.getDom dm).gen (bs ++ area)) = .ok v4 → core ≠ c →
      ∃ t, Steps (.kernelOperationStatus core slot) v t ∧ (t.getCore c).dom = none ∧ (t.getCore c).actors = [] ∧ (t.getCore c).spad = [] ∧
        (∀ z k, (z, k) ∈ t.coreActs c → k.dom ≠ dm) ∧
        ∃ sv, tabFind t.images (Config.seal dm (v3.getDom dm).gen (bs ++ area)).toNat = some sv ∧ sv.core = c ∧ sv.dom = dm ∧ sv.live = true)

/-- R43 R44 R45 R46 R47 R310 R325 R327: a message that reaches its core. The tag's queue takes it where nothing of the tag waits before it and
the store has room; otherwise its spill ring; with the ring full it takes one of eight overflow places, and with those full it waits in the
network, a notice at the agent that raised it. For an actor that is neither loaded nor evicted it goes to the homeless queue of its
kernel. A trap message that is placed lets its kernel answer. The messages that wait at their core stand before the others, in the order in
which they came (log 93). Moving back takes the oldest message of the next tag in rotation that has one and room in the store: of its
ring, unless the overflow buffer's is older. (The class a message of no loaded tag waits under is the model's choice: log 87; so are
which messages count as waiting in the network, log 24, that a tag whose ring line an outside host holds has had its turn, log 94, the mode in which the device writes a ring, log 23, and what it keeps beside
one, log 25.) -/
def Clauses.MessageArrivals : Prop :=
  (∀ (i : Nat) (m : Msg) (s : State), s.flight[i]? = some m →
    (∀ o ∈ s.flight.take i, ¬ (o.reached = false ∧ o.src = m.src ∧ sameTag o m = true)) →
    (∀ o ∈ s.flight.take i, ¬ (o.reached = true ∧ o.core = m.core ∧ (msgClass s o = msgClass s m ∨ sameTag o m = true))) →
    let x := s.getCore m.core
    let gone : State := { s with flight := s.flight.eraseIdx i }
    let loaded := x.dom = some m.dom ∧ (findActor s m.core m.actor).isSome
    let plain := 256 * 1312 ≤ m.src ∨ m.src % 256 < 254
    (∀ e, plain → loaded → findTag s m.core m.actor m.tag = some e → (∀ o ∈ x.ovf, sameTag o.msg m = false) → e.head = e.tail →
      storeFull x m.tag = false → mpopWaiters s m.core = [] → ∃ t y, Steps (.messageArrival i) s t ∧
        t = { gone with cores := t.cores, serial := s.serial + 1 } ∧ (t.getCore m.core).store = x.store ++ [y] ∧
        y.msg = { m with reached := true } ∧ y.slot = none ∧ y.arrived = s.serial) ∧
    (∀ e e' u, plain → loaded → findTag s m.core m.actor m.tag = some e → (∀ o ∈ x.ovf, sameTag o.msg m = false) →
      e.head ≠ e.tail ∨ storeFull x m.tag = true → e.full = false → e.broken = false →
      spillWrite { gone with serial := s.serial + 1 } m e s.serial = .ok (e', u) →
      Steps (.messageArrival i) s (putTag u m.core m.actor m.tag e') ∧ e'.tail = e.tail + 1 ∧ e'.head = e.head) ∧
    (∀ e, loaded → findTag s m.core m.actor m.tag = some e → e.full = true →
      (plain → x.ovf.length < 8 → ∃ t y, Steps (.messageArrival i) s t ∧ t = { gone with cores := t.cores, serial := s.serial + 1 } ∧
        (t.getCore m.core).ovf = x.ovf ++ [y] ∧ (t.getCore m.core).store = x.store ∧ y.msg = { m with reached := true }) ∧
      (8 ≤ x.ovf.length → isNotice m = false →
        let n := s.flight.countP fun o => o.reached
        (m.reached = true → Steps (.messageArrival i) s s) ∧
        (m.reached = false → Steps (.messageArrival i) s
          { s with flight := gone.flight.take n ++ { m with reached := true } :: gone.flight.drop n })) ∧
      (8 ≤ x.ovf.length → isNotice m = true → Steps (.messageArrival i) s s)) ∧
    (∀ e c k y, ¬ plain → loaded → findTag s m.core m.actor m.tag = some e → (∀ o ∈ x.ovf, sameTag o.msg m = false) → e.head = e.tail →
      storeFull x m.tag = false → mpopWaiters s m.core = [] → (m.words.getD 4 0).toNat = 64 * c + k → c < 4096 → k < 64 →
      s.findAct c k = some y → y.trapOut = true → ∃ t, Steps (.messageArrival i) s t ∧
        t.findAct c k = some { y with trapOut := false, trapKernel := m.dom }) ∧
    (plain → ¬ loaded → (∀ r ∈ x.resident, ¬ (r.dom = m.dom ∧ r.index = m.actor)) →
      let e := (s.getDom (kernelOf m.dom)).homeless
      let via := BitVec.ofNat 64 (m.core + m.actor * 2 ^ 12 + m.dom * 2 ^ 16 + 2 ^ 24)
      ∃ t, Steps (.messageArrival i) s t ∧
        (e.getLsbD 63 = true → t = { gone with flight := t.flight, serial := s.serial + 1 } ∧ ∃ h, t.flight = gone.flight ++ [h] ∧ h.hdr = m.hdr ∧
          h.dom = epDom e ∧ h.core = epCore e ∧ h.actor = epActor e ∧ h.tag = epTag e ∧
          (m.core < 2 ^ 12 → m.actor < 16 → m.dom < 256 → h.via = via) ∧ h.words.take m.words.length = m.words.take 7) ∧
        (e.getLsbD 63 = false → t = { gone with waiting := t.waiting, serial := s.serial + 1 } ∧ t.waiting.length = s.waiting.length + 1))) ∧
  (∀ (core n j : Nat) (e : TagEnt) (s : State),
    let x := s.getCore core
    let start := match x.moved with | some n => n + 1 | none => 0
    let ready := fun (n : Nat) => ∃ e, findTag s core (n / 16) (n % 16) = some e ∧ storeFull x (n % 16) = false ∧
      (e.head ≠ e.tail ∨ ∃ o ∈ x.ovf, o.msg.actor = n / 16 ∧ o.msg.tag = n % 16)
    j < 256 → n = (start + j) % 256 → (∀ k, k < j → ¬ ready ((start + k) % 256)) →
    findTag s core (n / 16) (n % 16) = some e → storeFull x (n % 16) = false → mpopWaiters s core = [] →
    let of := fun (o : Stored) => o.msg.actor = n / 16 ∧ o.msg.tag = n % 16
    (∀ l1 l2 m, x.ovf = l1 ++ m :: l2 → of m → (∀ o ∈ l1, ¬ of o) →
      (e.head = e.tail ∨ ∃ r rest, e.ring = r :: rest ∧ m.arrived < r.arrived) →
      Steps (.messageMoveBack core) s (s.modCore core fun x => { x with moved := some n, ovf := l1 ++ l2, store := x.store ++ [m] })) ∧
    (∀ r rest, e.head ≠ e.tail → e.ring = r :: rest → (∀ o ∈ x.ovf, of o → r.arrived ≤ o.arrived) →
      let turned := s.modCore core fun x => { x with moved := some n }
      let slot := spillRead turned (x.dom.getD 0) (clusterOf core) core (e.sbase + BitVec.ofNat 64 (64 * (e.head % 2 ^ e.slog))) 64
      (∀ bs u, slot = .ok (bs, u) → ∃ m, Steps (.messageMoveBack core) s
          ((putTag u core (n / 16) (n % 16) { e with head := e.head + 1, ring := rest }).modCore core fun x => { x with store := x.store ++ [m] }) ∧
        m.arrived = r.arrived ∧ m.slot = r.slot ∧ m.msg = { r.msg with hdr := m.msg.hdr, words := m.msg.words } ∧
        m.msg.hdr = BitVec.ofNat 64 (leNat (bs.take 8)) ∧
        (bs.length = 64 → ∀ k, k < 7 → m.msg.words.getD k 0 = BitVec.ofNat 64 (leNat ((bs.drop (8 * k + 8)).take 8)))) ∧
      (∀ line, slot = .error (.wait line) → Steps (.messageMoveBack core) s (askBack turned line))))

/-- R50 R51 R57 R58 R71 R72 R316: what runs when a tag fires, a task record is popped, or a saved activation resumes: the start state's
registers with the ones each rule gives. A firing claims FIRE messages of the tag, of which the first leaves the store; a pop takes
the newest record of the deque. One whose BKPT a debug release passed over while it was saved resumes after it (27 R372); the lines that keep a
due record from being read are asked back first (05 R110), and one that cannot be read is passed over (R74, log 20). (What PEND counts in the network is the model's
choice: log 24; so is what a resumption's trace
record shows, log 60, that a start takes its domain's modes, log 75, and that it starts nothing where a record cannot be read, log 20.) -/
def Clauses.ActivationStarts : Prop :=
  ∀ (core slot : Nat) (s : State),
    let d := (s.getCore core).dom.getD 0
    let reg := fun (a : Act) (i : Nat) => a.regs.s.toArray.getD i 0
    let fresh := fun (a : Act) => a.dom = d ∧ a.status = .running ∧ a.wait = none ∧ a.preempt = none ∧ a.owed = 0 ∧ a.aged = a.prio ∧
      a.serial = s.serial ∧ a.modes = (s.getDom d).modes ∧ a.halt = .none ∧ a.lastIssue = s.issues + 1 ∧ a.ready = s.time ∧ reg a 2 = stackTop core slot ∧ reg a 6 = identity core slot ∧
      a.regs = { Regs.start with s := a.regs.s }
    (∀ f x e m, slot ∈ freeSlots s core → chooseStart s core = .fire f → findActor s core f.actor = some x →
      findTag s core f.actor f.tag = some e → 1 ≤ e.fire → (queueOf (s.getCore core) d f.actor f.tag).head? = some m →
      ∃ t a, Steps (.tagFire core slot) s t ∧ t.findAct core slot = some a ∧ fresh a ∧ a.pc = e.entry ∧ a.kernel = x.kernel ∧
        a.prio = e.prio ∧ a.actor = some f.actor ∧ a.tag = f.tag ∧ reg a 3 = BitVec.ofNat 64 x.spoff ∧ reg a 4 = m.msg.hdr ∧
        reg a 7 = m.msg.via ∧ (∀ i, i < 7 → reg a (8 + i) = m.msg.words.getD i 0) ∧ a.s5 = reg a 5 ∧
        (e.fire ≤ 8 → (reg a 5).extractLsb' 0 4 = BitVec.ofNat 4 f.tag ∧
          (reg a 5).extractLsb' 4 8 = BitVec.ofNat 8 (min 255 (pendingOf t core f.actor f.tag)) ∧
          (reg a 5).extractLsb' 12 4 = BitVec.ofNat 4 e.fire ∧ (reg a 5).extractLsb' 16 48 = 0) ∧
        queueOf (t.getCore core) d f.actor f.tag = (queueOf (s.getCore core) d f.actor f.tag).drop e.fire) ∧
    (∀ r, slot ∈ freeSlots s core → chooseStart s core = .pop → (s.getCore core).deque.getLast? = some r →
      let w := fun (i : Nat) => r.getD i 0
      ∃ t a, Steps (.dequePop core slot) s t ∧ t.findAct core slot = some a ∧ fresh a ∧ a.pc = pcBits (w 0) ∧
        a.kernel = ((w 0).getLsbD 59 && !isTenant d) ∧ a.prio = bitsOf (w 0) 58 57 ∧ a.actor = none ∧ reg a 5 = BitVec.ofNat 64 (2 ^ 16) ∧
        reg a 14 = w 1 &&& 0x01FFFFFFFFFFFFFF ∧ (∀ i, i < 6 → reg a (8 + i) = w (2 + i)) ∧ (t.getCore core).deque = (s.getCore core).deque.dropLast) ∧
    (∀ k a va bs u, let v := askDue s core
      chooseStart v core = .resume k → s.findAct core k = some a → recordAddr s core k = some va →
      (∀ p, a.status = .saved true p → recordReadAll v a.dom (clusterOf core) core va 32 = .ok (bs, u) → ∃ t b,
        Steps (.activationResume core) s t ∧ t.findAct core k = some b ∧ b.status = .running ∧
        b.due = none ∧ b.actor = a.actor ∧ b.serial = a.serial ∧ b.skip = false ∧
        (a.skip = false → b.pc = pcBits (recordWord bs 0x498) ∧ b.owed = bitsOf (recordWord bs 0x4A0) 1 0 ∧
          b.btarget = pcBits (recordWord bs 0x4A8) ∧ b.regs = maskRegs (recordRegs a.regs bs)) ∧
        (a.skip = true → (recordWord bs 0x490).extractLsb' 0 2 = 0 → recordWord bs 0x430 = 0 → recordWord bs 0x448 = 0 →
          b.pc = pcBits (recordWord bs 0x470) + 4 ∧ b.owed = 0) ∧
        b.halt = .none ∧ b.modes = (s.getDom a.dom).modes) ∧
      (∀ p ws w, a.status = .saved false p → recordRead v a.dom (clusterOf core) core va 64 = .ok (bs, u) →
        recordRead u a.dom (clusterOf core) core (va + 0x498) 8 = .ok (ws, w) → ∃ t b,
        Steps (.activationResume core) s t ∧ t.findAct core k = some b ∧ b.status = .running ∧
        b.due = none ∧ b.pc = a.restore ∧ b.owed = 0 ∧ reg b 1 = pcBits (recordWord ws 0) + 4 ∧ reg b 3 = recordWord bs 0x18 ∧
        reg b 4 = recordWord bs 0x20 ∧ reg b 5 = BitVec.ofNat 64 (2 ^ 17) ∧ reg b 6 = recordWord bs 0x30 ∧ reg b 7 = va ∧ reg b 8 = 0))

/-- The arrival of messages and the starts they and tasks lead to: each clause cites its rules. -/
def Obligations.Starting : Prop := Clauses.MessageArrivals ∧ Clauses.ActivationStarts

/-- R62: stealing. A pass sends a request to its first victim, which is held a slot; with no victim the next pass comes 78 ns
later (log 21). A victim gives its oldest record, of its ring first unless that cannot be read (log 20), or answers empty where it may not; the thief starts a record in
the slot held, goes on to the next victim on an empty answer, or ends the pass where none is left, and keeps a record it can no longer start in its deque, or, where
that is full, in its ring, the reply waiting where neither has room. (When the conditions are tested again, and a full deque, are the
model's choices: log 89.) The energy of a compute core's request or answer is the device's (23 R336); a die whose clock is stopped neither
answers nor takes (31 R405). -/
def Obligations.Stealing : Prop :=
  ∀ (s : State),
    let bight := fun (u : State) (c : Nat) => if c < 1280 then chargeOpen u else u
    (∀ core slot v r, slot ∈ freeSlots s core → stealAllowed s core = true → (s.getCore core).steal.active = false →
      let retry := (s.getCore core).steal.retry
      let begins := fun (i : Instr) =>
        (victims s core = v :: r → ∃ t, Steps i s t ∧
          t = { bight s core with cores := t.cores, steals := s.steals ++ [{ thief := core, victim := v, answer := none }] } ∧
          (t.getCore core).steal = { slot := some slot, last := v, left := r, active := true, retry := 0 }) ∧
        (victims s core = [] → ∃ t, Steps i s t ∧ t = { s with cores := t.cores } ∧ (t.getCore core).steal.retry = s.time + 78 ∧
          (t.getCore core).steal.active = false)
      (retry = 0 ∨ retry ≤ s.time → begins (.stealPass core slot)) ∧
      (retry ≠ 0 → retry ≤ s.time → begins (.stealRetry core slot))) ∧
    (∀ i m, s.steals[i]? = some m → m.answer = none →
      let reply := fun (u : State) (r : List Word) => Steps (.stealRequest i) s
        { bight u m.victim with steals := s.steals.set i { m with answer := some r } }
      let x := s.getCore m.victim
      ((s.getDie (dieOf m.victim)).stopped = true → Steps (.stealRequest i) s s) ∧
      ((s.getDie (dieOf m.victim)).stopped = false → (answersSteal s m.thief m.victim = false → reply s []) ∧
      (answersSteal s m.thief m.victim = true → (findActor s m.victim 15 = none ∨ ringCount x = 0) →
        (x.deque = [] → reply s []) ∧
        (∀ r rest, x.deque = r :: rest → reply (s.modCore m.victim fun x => { x with deque := rest }) r)) ∧
      (answersSteal s m.thief m.victim = true → findActor s m.victim 15 ≠ none → ringCount x ≠ 0 →
        let slot := devRead s (x.dom.getD 0) (clusterOf m.victim) m.victim (ringSlotAddr s m.victim x.ringHead) 64
        (∀ bs u, slot = .ok (bs, u) → reply (u.modCore m.victim fun x => { x with ringHead := x.ringHead + 1 }) (wordsOf 8 bs)) ∧
        (∀ line, slot = .error (.wait line) → Steps (.stealRequest i) s (askBack s line)) ∧
        (∀ c v z, slot = .error (.fault c v z) → let u := keepTraffic s z
          (x.deque = [] → reply u []) ∧
          (∀ r rest, x.deque = r :: rest → reply (u.modCore m.victim fun x => { x with deque := rest }) r))))) ∧
    (∀ i m r k, s.steals[i]? = some m → m.answer = some r → (s.getCore m.thief).steal.slot = some k →
      let left := (s.getCore m.thief).steal.left
      ((s.getDie (dieOf m.thief)).stopped = true → Steps (.stealReply i) s s) ∧
      ((s.getDie (dieOf m.thief)).stopped = false →
      (r ≠ [] → startsAllowed s m.thief = true → ∃ t a, Steps (.stealReply i) s t ∧ t.findAct m.thief k = some a ∧
        a.pc = pcBits (r.getD 0 0) ∧ a.regs.s.toArray.getD 14 0 = r.getD 1 0 &&& 0x01FFFFFFFFFFFFFF ∧
        (∀ j, j < 6 → a.regs.s.toArray.getD (8 + j) 0 = r.getD (2 + j) 0) ∧ (t.getCore m.thief).steal.slot = none ∧ t.steals = s.steals.eraseIdx i) ∧
      (r ≠ [] → startsAllowed s m.thief = false →
        let x := s.getCore m.thief
        (x.deque.length < 64 → ∃ t, Steps (.stealReply i) s t ∧ (t.getCore m.thief).deque = r :: x.deque ∧ (t.getCore m.thief).steal.slot = none ∧
          t = { s with cores := t.cores, steals := s.steals.eraseIdx i }) ∧
        (64 ≤ x.deque.length → ringCap s m.thief ≤ ringCount x → Steps (.stealReply i) s s) ∧
        (64 ≤ x.deque.length → ringCount x < ringCap s m.thief →
          let free := ({ s with steals := s.steals.eraseIdx i } : State).modCore m.thief fun x =>
            { x with steal := { x.steal with slot := none, left := [], active := false, retry := 0 } }
          ∀ u, devWrite free (x.dom.getD 0) (clusterOf m.thief) m.thief (ringSlotAddr s m.thief x.ringTail)
              (wordBytes (r ++ List.replicate (8 - r.length) 0)) = .ok u →
            Steps (.stealReply i) s (u.modCore m.thief fun x => { x with ringTail := x.ringTail + 1 }))) ∧
      (r = [] → startsAllowed s m.thief = false → ∃ t, Steps (.stealReply i) s t ∧ (t.getCore m.thief).steal.slot = none ∧
        t = { s with cores := t.cores, steals := s.steals.eraseIdx i }) ∧
      (r = [] → startsAllowed s m.thief = true → (∀ v rest, left = v :: rest → ∃ t, Steps (.stealReply i) s t ∧
        t.steals = s.steals.eraseIdx i ++ [{ thief := m.thief, victim := v, answer := none }] ∧
        (t.getCore m.thief).steal = { slot := some k, last := v, left := rest, active := true, retry := 0 }) ∧
        (left = [] → ∃ t, Steps (.stealReply i) s t ∧ t = { s with cores := t.cores, steals := s.steals.eraseIdx i } ∧
          (t.getCore m.thief).steal.slot = none ∧ (t.getCore m.thief).steal.active = false ∧ (t.getCore m.thief).steal.retry = s.time + 78))))

/-- R64 R73 R70 R313 R314 R315 R317 R319 R405: priority ageing takes one from the class of a ready activation for each full 4,096 cycles that it
has not issued, 1,242 ns at the nominal clock (log 11); at the end of its budget a requested activation is dumped at its boundary, before
it issues again, its slot kept, a parked one too unless the request is for its quota; a save routine that has retired 4,096 instructions ends in
SAVE_FAULT at its safe point. On a die whose clock is stopped none of these acts. A step whose word has not issued is reported before the
dump (27 R373, log 68). -/
def Obligations.Preemption : Prop :=
  ∀ (core slot : Nat) (a : Act) (s : State), s.findAct core slot = some a →
    let running := a.status = .running ∧ (s.getDie (dieOf core)).stopped = false
    (running → a.wait = none → a.halt = .none → ∃ t, Steps (.priorityAgeing core slot) s t ∧
      t.findAct core slot = some { a with aged := a.prio - (s.time - a.ready) / 1242 } ∧ t.cores = s.cores ∧ t.mem = s.mem) ∧
    ((s.getDie (dieOf core)).stopped = true ∨ a.status ≠ .running ∨ a.wait ≠ none ∨ a.halt ≠ .none →
      ∃ t, Steps (.priorityAgeing core slot) s t ∧ t.findAct core slot = some a ∧ t.cores = s.cores ∧ t.mem = s.mem) ∧
    (∀ p, a.preempt = some p → (a.status = .running ∨ (a.status = .parked ∧ p.why ≠ .quota)) → (s.getDie (dieOf core)).stopped = false →
      a.saving = none → atBoundary a = true → p.at_ + p.budget ≤ s.time →
      (∃ t, Steps (.pbudgetExpiry core slot) s t ∧ Clauses.DumpLeaves s t core slot a) ∧ runnable s core a = false) ∧
    (∀ p, a.preempt = some p → s.time < p.at_ + p.budget → Steps (.pbudgetExpiry core slot) s s) ∧
    ((s.getDie (dieOf core)).stopped = true → Steps (.pbudgetExpiry core slot) s s ∧ Steps (.saveRoutineLimit core slot) s s) ∧
    (∀ run, running → FormOk s → slot < 64 → a.saving = some run → 4096 ≤ run.retired → a.preempt = none → 3 ≤ a.dom → a.dom ≤ 194 →
      ∃ t b, Steps (.saveRoutineLimit core slot) s t ∧ t.findAct core slot = some b ∧ b.status = .parked ∧ b.saving = none ∧
        b.pc = run.addr ∧ b.owed = 0 ∧ b.regs.epc = pcBits run.addr ∧ b.regs.ecause = BitVec.ofNat 64 Cause.saveFault.code ∧
        b.regs.eval = a.pc <<< 8 ∧ b.regs.eds = 0 ∧ b.regs.s = a.regs.s) ∧
    (∀ run, a.saving = some run → run.retired < 4096 → Steps (.saveRoutineLimit core slot) s s)

/-- R376 R214 R109 R110 R133: what comes back to a core, and what outside hosts do. A response leaves the outstanding requests and, while
OPEN is 1, adds its cycles to the accumulator it credits; a prefetch's walk ends translated or drops it, and charges nothing till the line comes (23 R336),
which is then whole in the L1, its dirty bytes kept, or with kind l2 in its home slice only (13 R214);
a response that a check turns away drops it uncharged, and one whose line an outside host holds leaves it waiting. A host's request
that no entry permits has no effect; a write puts its 64 bytes at the line's home, a line taken is recorded; a host that
answers gives its line up, with the bytes of a modified one; one that does not answer in 1 ms, or whose link is down,
loses the lines it held modified and no others. Before the link is trained, and after a failed bring-up, every request is answered as
unsupported (R400). (What a host sees of a line and its answers, and what a crash leaves, are the model's choices: log 63; which
accumulator a response credits: log 33; the stamps an outside host's read is checked against: log 34; what a failed walk leaves: log 80.) -/
def Obligations.MemoryTraffic : Prop :=
  (∀ (core i cycles : Nat) (q : Pending) (s : State), (s.getCore core).pending[i]? = some q →
    (q.pref = none → ∃ t, Steps (.memoryResponse core i cycles) s t ∧ t = { s with cores := t.cores } ∧
      (t.getCore core).pending = (s.getCore core).pending.eraseIdx i ∧
      (∀ k, q.da = some k → (s.getCore core).open_ = true → (s.getCore core).evict = none →
        tabGet 0 (t.getCore core).da k = min (tabGet 0 (s.getCore core).da k + min cycles 4095) (2 ^ 48 - 1)) ∧
      ((s.getCore core).open_ = false → (t.getCore core).da = (s.getCore core).da)) ∧
    (∀ d va kernel k, q.pref = some (d, va, kernel, k) → q.walked = false →
      let r := translate s d (clusterOf core) kernel (if k = .write then .store else .load) va false
      (prefetchHits s core d k va = true → ∃ t, Steps (.pageWalk core i) s t ∧ t = { s with cores := t.cores } ∧
        (t.getCore core).pending = (s.getCore core).pending.set i { q with walked := true }) ∧
      (prefetchHits s core d k va = false → ∀ leaf u, r = .ok (leaf, u) → ∃ t, ∃ rs : List Term, Steps (.pageWalk core i) s t ∧ t = { uncharged s u with cores := t.cores } ∧
        (t.getCore core).pending = (u.getCore core).pending.set i { q with walked := true, reads := rs }) ∧
      (prefetchHits s core d k va = false → ∀ c v z, r = .error (.fault c v z) → ∃ t, Steps (.pageWalk core i) s t ∧
        t = { s with cores := t.cores, tlb := z.tlb, walk := z.walk } ∧
        (t.getCore core).pending = (s.getCore core).pending.eraseIdx i)) ∧
    (∀ d va kernel k, q.pref = some (d, va, kernel, k) →
      let v := s.modCore core fun x => { x with pending := x.pending.eraseIdx i }
      let r := prefetchLine v core d kernel k va
      (∀ da z, r = .ok (da, z) → ∃ t, Steps (.memoryResponse core i cycles) s t ∧
        t = { z with cores := t.cores, clusters := t.clusters, charges := t.charges, device := t.device } ∧
        (∀ c, (t.getCore c).l1 = (z.getCore c).l1) ∧ (t.getCore core).pending = (s.getCore core).pending.eraseIdx i ∧
        (k ≠ .l2 → ∃ l, findL1 t core d (vlineOf va) = some l ∧ l.valid = BitVec.allOnes 128 ∧
          ∀ x j, findL1 s core d (vlineOf va) = some x → j < 128 → x.dirty.getLsbD j = true → lineByte l.data j = lineByte x.data j ∧ l.dirty.getLsbD j = true) ∧
        (k = .l2 → (∀ c l, l ∈ (t.getCore c).l1 → l ∈ (s.getCore c).l1) ∧ ∀ p w, homePlace v d (clusterOf core) kernel .load va false = .ok (p, w) →
          isDram p.pa = true → wayMask w (homeOf d (vlineOf va)) d ≠ 0 → (tabFind t.l2 (p.pa / 128)).isSome)) ∧
      (∀ line, r = .error (.wait line) → Steps (.memoryResponse core i cycles) s (askBack s line)) ∧
      (∀ c v z, r = .error (.fault c v z) → ∃ t, Steps (.memoryResponse core i cycles) s t ∧
        t = { s with cores := t.cores, tlb := z.tlb, walk := z.walk } ∧
        (t.getCore core).pending = (s.getCore core).pending.eraseIdx i))) ∧
  (∀ (host pa : Nat) (op : CxlOp) (s : State),
    let pl := pa / 128
    let write := decide (op ≠ .read ∧ op ≠ .readShared ∧ op ≠ .readOwn)
    let free := tabFind s.lost pl = none ∧ (∀ h, tabFind s.ext pl = some h → h.host = host)
    let serves := 3 ≤ s.stage ∧ s.err = 0
    let answered := fun (t : State) (x : CxlAnswer) => t.cxlOut = s.cxlOut ++ [(host, pa, x)]
    (¬ serves ∨ hostServed s host pa write = none →
      Steps (.cxlMemRequest host pa op) s { s with cxlOut := s.cxlOut ++ [(host, pa, .unsupported)] }) ∧
    (∀ d, serves → hostServed s host pa write = some d → (tabFind s.lost pl).isSome →
      Steps (.cxlMemRequest host pa op) s { s with cxlOut := s.cxlOut ++ [(host, pa, .poison)] }) ∧
    (∀ d h, serves → hostServed s host pa write = some d → tabFind s.lost pl = none → tabFind s.ext pl = some h → h.host ≠ host →
      ∃ t h', Steps (.cxlMemRequest host pa op) s t ∧ t.cxlOut = s.cxlOut ∧ t.mem = s.mem ∧ tabFind t.ext pl = some h' ∧ h'.since.isSome) ∧
    (∀ d, serves → hostServed s host pa write = some d → free → pa % 64 = 0 →
      (∀ w, op = .write w → MemoryOk s → ∃ t, Steps (.cxlMemRequest host pa op) s t ∧ answered t .written ∧
        (∀ i, i < 64 → homeByte t pl (pa % 128 + i) = (w >>> (8 * i)).setWidth 8)) ∧
      (op = .read → ∃ t, ∃ data : BitVec 512, Steps (.cxlMemRequest host pa op) s t ∧ answered t (.data data) ∧ t.l2 = s.l2 ∧
        t.mem = s.mem ∧ (∀ l i, tabFind s.l2 pl = some l → i < 64 → (data >>> (8 * i)).setWidth 8 = lineByte (l2Data s pl l) (pa % 128 + i)) ∧
        (∀ i, tabFind s.l2 pl = none → i < 64 →
          (data >>> (8 * i)).setWidth 8 = lineByte (readSealed s (getFrame s (pa / 4096)).keyid pl) (pa % 128 + i))) ∧
      (op = .readOwn ∨ op = .readShared → ∃ t, ∃ data : BitVec 512, ∃ h, Steps (.cxlMemRequest host pa op) s t ∧ answered t (.data data) ∧
        tabFind t.ext pl = some h ∧ h.host = host ∧ h.since = none ∧ (op = .readOwn → h.modified = true)))) ∧
  (∀ (line : Nat) (h : ExtHold) (s : State), tabFind s.ext line = some h →
    let none_ := ∀ w ∈ s.heldWrites, w.pa / 128 ≠ line
    (∀ t0 data, h.since = some t0 → s.time ≤ t0 + 1000000 → (h.modified = false ∨ data = none) → none_ →
      Steps (.backInvalidateResponse line data) s { s with ext := tabErase s.ext line }) ∧
    (∀ t0 data, h.since = some t0 → s.time ≤ t0 + 1000000 → ∃ t, Steps (.backInvalidateResponse line data) s t ∧ t.ext = tabErase s.ext line ∧
      t.heldWrites = s.heldWrites.filter fun w => decide (w.pa / 128 ≠ line)) ∧
    (∀ t0 data, h.since = some t0 → t0 + 1000000 < s.time → ∃ t, Steps (.backInvalidateResponse line data) s t ∧
      Steps (.backInvalidateTimeout line) s t) ∧
    (∀ t0 l, h.since = some t0 → s.time ≤ t0 + 1000000 → h.modified = true → none_ → MemoryOk s → line < 2 ^ 33 → isDram (128 * line) = true → ∃ t,
      Steps (.backInvalidateResponse line (some l)) s t ∧ t.ext = tabErase s.ext line ∧ (∀ i, i < 128 → homeByte t line i = lineByte l i)) ∧
    (∀ t0, h.since = some t0 → s.time < t0 + 1000000 → Steps (.backInvalidateTimeout line) s s) ∧
    (∀ t0, h.since = some t0 → t0 + 1000000 ≤ s.time → (s.ext.map fun x => x.1).Pairwise (· < ·) → ∃ t, Steps (.backInvalidateTimeout line) s t ∧
      t.ext = s.ext.filter (fun x => decide (x.2.host ≠ h.host)) ∧
      (∀ pl, tabFind t.lost pl = (if s.ext.any (fun x => decide (x.1 = pl ∧ x.2.host = h.host) && x.2.modified) then some [] else tabFind s.lost pl)))) ∧
  (∀ (s : State), (s.ext.map fun x => x.1).Pairwise (· < ·) → ∃ t, Steps .hostLinkDown s t ∧ t.ext = [] ∧
    (∀ pl, tabFind t.lost pl = (if s.ext.any (fun x => decide (x.1 = pl) && x.2.modified) then some [] else tabFind s.lost pl)))

/-- R340 R341 R343 R344: a charge reaches the quota store behind none of its own meter: USED rises by it, a tenant's balance falls by it
saturating, and a balance gone below zero sets HELD, sends QUOTA, notice 1, to domain 2 with the domain, its balance, TIME, the meter and
the charge's class, and requests every running activation of the domain, as `requestQuota` does (21 R315); a core sees HELD of its domain, and 2 µs after the
crossing starts nothing more for it, whether it has been told or not. (How bounds in time are applied is the model's choice: log 10.) -/
def Clauses.QuotaStore : Prop :=
  ∀ (s : State),
    (∀ i q, s.charges[i]? = some q → (∀ p ∈ s.charges.take i, p.meter ≠ q.meter) →
      let old := s.getDom q.dom
      let bal := old.qbal.toInt - q.eu
      ∃ t, Steps (.chargeApply i) s t ∧ (t.getDom q.dom).used = min (old.used + q.eu) (2 ^ 64 - 1) ∧
        (3 ≤ q.dom → q.dom ≤ 194 → (t.getDom q.dom).qbal = BitVec.ofInt 64 (max bal (-(2 ^ 63))) ∧
          ((t.getDom q.dom).held = true ↔ old.held = true ∨ bal < 0) ∧
          (0 ≤ bal ∨ old.held = true → t = { s with charges := s.charges.eraseIdx i, doms := t.doms }) ∧
          (bal < 0 → old.held = false → (t.getDom q.dom).heldAt = s.time ∧
            (∃ u, u = { s with charges := s.charges.eraseIdx i, doms := u.doms } ∧ t = requestQuota (notice u 2 4090 [1, BitVec.ofNat 64 q.dom,
              BitVec.ofInt 64 (max bal (-(2 ^ 63))), BitVec.ofNat 64 s.time, BitVec.ofNat 64 q.meter, BitVec.ofNat 64 q.cls, 0]) q.dom none) ∧
            (FormOk s → ∀ c k y, k < 64 → s.findAct c k = some y → y.dom = q.dom → y.status = .running → y.halt = .none →
              ∃ z, t.findAct c k = some z ∧ ((∃ hard parked, z.status = .saved hard parked) ∨ z.preempt ≠ none))) ∧
          (∀ d, d ≠ q.dom → (t.getDom d).held = (s.getDom d).held)) ∧
        ((q.dom < 3 ∨ 194 < q.dom) → (t.getDom q.dom).qbal = old.qbal ∧ t = { s with charges := s.charges.eraseIdx i, doms := t.doms })) ∧
    (∀ core d, (s.getCore core).dom = some d → ∃ t, Steps (.heldSeen core) s t ∧ (t.getCore core).heldSeen = (s.getDom d).held ∧
      ((s.getDom d).held = false → t = { s with cores := t.cores })) ∧
    (∀ core d, (s.getCore core).dom = some d → (s.getDom d).held = true → (s.getDom d).heldAt + 2000 ≤ s.time → startsAllowed s core = false)

/-- R337 R339 R332: a meter tick. CSCALE moves toward CSCALE × supply / S, rounded, at most 8 a tick, within 128 and 511, and S starts
over; a measured idle core's energy goes, by the meter of its own cluster alone, to the domain that held it, by the part of the tick, of 1 ms,
in which it did, idle or not; the rest and the idle links' go to the device account. (The unit of S, whose tick brings the idle links, the class of
a share and where a host-assisted domain's goes are the model's choices: logs 61, 62, 22.) -/
def Clauses.MeterTick : Prop :=
  ∀ (meter supply : Nat) (costs : List SharedCost) (s : State),
    let m := s.getCluster meter
    (∃ t, Steps (.meterTick meter supply costs) s t ∧ (t.getCluster meter).sum = 0 ∧ (t.getCluster meter).hscale = m.hscale ∧
      (t.getCluster meter).residue = m.residue ∧
      (m.sum = 0 → (t.getCluster meter).cscale = m.cscale) ∧
      (m.sum ≠ 0 → let target := (2 * m.cscale * supply * 256 + m.sum) / (2 * m.sum)
        let c := (t.getCluster meter).cscale
        128 ≤ c ∧ c ≤ 511 ∧ (128 ≤ m.cscale → m.cscale ≤ 511 → c ≤ m.cscale + 8 ∧ m.cscale ≤ c + 8 ∧
          (m.cscale ≤ target + 8 → target ≤ m.cscale + 8 → 128 ≤ target → target ≤ 511 → c = target)))) ∧
    (∀ e, costs = [.idleLinks e] → ∃ t, Steps (.meterTick meter supply costs) s t ∧ t.device = min (s.device + e) (2 ^ 64 - 1) ∧
      t.charges = s.charges) ∧
    (∀ c e d held, costs = [.idleCore c e] → clusterOf c = meter → c < 1312 → (s.getCore c).holding = [(d, held)] → 1 ≤ d → d ≤ 194 →
      (s.getDom d).modes.getLsbD 5 = false →
      let share := e * held / max 1000000 held
      ∃ t, Steps (.meterTick meter supply costs) s t ∧ t.device = min (s.device + (e - share)) (2 ^ 64 - 1) ∧ (t.getCore c).holding = [] ∧
        (share ≠ 0 → ∃ cls, t.charges = s.charges ++ [{ dom := d, meter := meter, eu := share, cls := cls, at_ := s.time }]) ∧
        (share = 0 → t.charges = s.charges)) ∧
    (∀ c e, costs = [.idleCore c e] → clusterOf c ≠ meter → ∃ t, Steps (.meterTick meter supply costs) s t ∧ t.charges = s.charges ∧
      t.device = s.device) ∧
    (∀ e, costs = [.secondTier e] → meter ≠ 160 → ∃ t, Steps (.meterTick meter supply costs) s t ∧ t.charges = s.charges ∧ t.device = s.device)

/-- The quota store and the meters' ticks: each clause cites its rules. -/
def Obligations.EnergyAccounts : Prop := Clauses.QuotaStore ∧ Clauses.MeterTick

/-- R404 R405 R399: droop halves a cluster's clock until it ends, and is counted, saturating; every 100 µs the hottest sensors and the
average power are registered and each die's step moves by at most one between 4 and 8; at 115 °C a die stops, and
runs again once below 105, its activations aged by nothing meanwhile, MPOPs whose message came served, and those whose budget has ended
kept from issuing before their dump (03 R73). A rail fault puts the package in reset with its memory's bytes and no key left (log 76 names what else goes
on); while reset is held nothing but its end has an effect. -/
def Clauses.PowerLimits : Prop :=
  ∀ (s : State),
    (∀ g, ∃ t, Steps (.droopTrip g) s t ∧ t = { s with clusters := t.clusters, dies := t.dies } ∧
      t.getCluster g = { s.getCluster g with droop := true } ∧
      (t.getDie (g / 16)) = { s.getDie (g / 16) with droop := min ((s.getDie (g / 16)).droop + 1) (2 ^ 32 - 1) }) ∧
    (∀ g, ∃ t, Steps (.droopEnd g) s t ∧ t = { s with clusters := t.clusters } ∧ t.getCluster g = { s.getCluster g with droop := false }) ∧
    (∀ temps power, ∃ t, Steps (.throttleTick temps power) s t ∧ t = { s with pwr := min power 65535, dies := t.dies } ∧
      (∀ n, n < 10 → let old := s.getDie n
        let new := t.getDie n
        let temp := min 255 (temps.getD n old.temp)
        new.temp = temp ∧ new.tthr = old.tthr ∧ new.droop = old.droop ∧ new.stopped = old.stopped ∧
          ((old.tthr < temp ∨ s.plimit < power) → new.step = max 4 (old.step - 1)) ∧
          (¬ (old.tthr < temp ∨ s.plimit < power) → temp + 5 < old.tthr → power < s.plimit → new.step = min 8 (old.step + 1)) ∧
          (¬ (old.tthr < temp ∨ s.plimit < power) → ¬ (temp + 5 < old.tthr ∧ power < s.plimit) → new.step = old.step))) ∧
    (∀ n, let x := s.getDie n
      (115 ≤ x.temp → x.stopped = false → ∃ t, Steps (.thermalStop n) s t ∧ t = { s with dies := t.dies } ∧
        t.getDie n = { x with stopped := true, stopAt := s.time }) ∧
      (x.temp < 115 ∨ x.stopped = true → Steps (.thermalStop n) s s) ∧
      (x.temp < 105 → x.stopped = true → ∃ t, Steps (.thermalResume n) s t ∧ t.getDie n = { x with stopped := false } ∧
        (FormOk s → (∀ c k y, k < 64 → s.findAct c k = some y → (dieOf c = n → y.preempt = none) ∧ budgetOver s c y s.time = false) →
          t = { s with dies := t.dies, cores := t.cores, acts := t.acts, act := t.act } ∧
          (∀ c, t.getCore c = { s.getCore c with store := (t.getCore c).store }) ∧
          (∀ c k y, k < 64 → s.findAct c k = some y → ∃ z, t.findAct c k = some z ∧ (dieOf c ≠ n → z = y) ∧
            (dieOf c = n → z = { y with ready := min s.time (y.ready + (s.time - x.stopAt)) } ∨
              (∃ g, y.wait = some (.mpop g)) ∧ z = { y with wait := none, ready := s.time }))) ∧
        (FormOk s → ∀ c k y q, k < 64 → s.findAct c k = some y → dieOf c = n → y.preempt = some q → y.status = .running → y.saving = none →
          atBoundary y = true → q.at_ + q.budget ≤ s.time → ∃ z, t.findAct c k = some z ∧ runnable t c z = false)) ∧
      (105 ≤ x.temp ∨ x.stopped = false → Steps (.thermalResume n) s s)) ∧
    (∃ t, Steps .railFault s t ∧ t.inReset = true ∧ t.stage = 0 ∧ t.mem = s.mem ∧ t.live = false ∧ t.acts = [] ∧ t.cores = [] ∧ t.frames = [] ∧
      t.log = [] ∧ t.ms = Vector.replicate 24 0 ∧ (∀ d, (t.getDom d).exists_ = false) ∧
      (∀ d x, (d, x) ∈ s.doms → ∃ y, (d, y) ∈ t.doms ∧ y.gen = x.gen + 1)) ∧
    (∀ i rest, s.inReset = true → s.agenda = .event i :: rest → i.isStep = true → i ≠ .packageReset → step s = .next { s with agenda := rest })

/-- R400 R401 R403 R406 R407 R362 R358 R331: reset ends with bring-up at stage 1 and TIME 0; each stage verifies its image, whose signature, key and
security version ERR 1 to 3 name, extends the next measurement slot by its digest and logs it; one that succeeds leads to the
next and leaves what R400 says, and in the sixth state both kernels, whose images are stage 5's two, are loaded, hold their cores and run; a
failure keeps the stage and records its code; a stage does not end without its images. (The model's choices: the clock and the counters
after a reset, log 76; which cores the kernels hold and how they start, logs 71, 91; how many images a stage has, into which frames an image
is loaded, with what bytes and what TROOT, log 91; SHA3's steps, log 92.) -/
def Clauses.BringUp : Prop :=
  ∀ (err : Nat) (failed : BitVec 10) (tier : Bool) (images : List Firmware) (s : State),
    let i := Instr.bringupStage err failed tier images
    (s.inReset = true → Steps .packageReset s { s with inReset := false, stage := 1, time := 0 }) ∧
    (s.inReset = false → Steps .packageReset s s) ∧
    (s.inReset = false → 1 ≤ s.stage → s.stage ≤ 5 → s.err = 0 →
      let measured := s.log.countP fun x => decide (x.type = 1)
      let training := (s.stage = 2 ∧ (err = 4 ∨ err = 5)) ∨ (s.stage = 4 ∧ (err = 5 ∨ err = 6))
      let passes := fun (f : Firmware) => Config.verifies f.image f.key = true ∧ sha3 f.key = Config.fusedKey ∧ Config.fusedVersion ≤ f.version
      let fits := (s.stage = 1 → images ≠ []) ∧ (s.stage = 5 → images.length = 2) ∧ measured + images.length ≤ 8
      (training → Steps i s { s with err := err }) ∧ (¬ training → ¬ fits → Steps i s s) ∧
      (∀ f more, ¬ training → images = f :: more → fits →
        (Config.verifies f.image f.key = false → Steps i s { s with err := 1 }) ∧
        (Config.verifies f.image f.key = true → sha3 f.key ≠ Config.fusedKey → Steps i s { s with err := 2 }) ∧
        (Config.verifies f.image f.key = true → sha3 f.key = Config.fusedKey → f.version < Config.fusedVersion → Steps i s { s with err := 3 })) ∧
      (¬ training → (∀ f ∈ images, passes f) → fits → ∃ t, Steps i s t ∧ t.logCount = s.logCount + images.length ∧
        t.costs.length = (if s.stage = 3 then 16 else s.costs.length) ∧
        (∀ f, images = [f] → t.log.getLast? = some (
            { index := s.logCount, type := 1, dom := 0, slot := measured, time := s.time, digest := sha3 f.image }) ∧
          t.ms.toArray.getD measured 0 = sha3 (leBytes 32 (s.ms.toArray.getD measured 0).toNat ++ leBytes 32 (sha3 f.image).toNat) ∧
          ∀ j, j ≠ measured → t.ms.toArray.getD j 0 = s.ms.toArray.getD j 0) ∧
        (s.stage ≤ 4 → t.stage = s.stage + 1 ∧ t.err = 0) ∧ (s.stage = 1 → ∀ p, p < 12 → (t.getPort p).lstate = .training) ∧
        (s.stage = 2 → t.cxlTier = tier) ∧
        (s.stage = 3 → t.costs = [3, 10, 5, 2, 80, 250, 1000, 40, 30, 12, 200, 60, 20, 30, 4000, 2200]) ∧ (s.stage = 4 → t.diemask = ~~~failed) ∧
        (s.stage = 5 → (∀ n, s.diemask.getLsbD n = false) → t.stage = 5 ∧ t.err = 7) ∧
        (∀ n, s.stage = 5 → s.diemask.getLsbD n = true → (∀ k, k < n → s.diemask.getLsbD k = false) → t.stage = 6 ∧
          (t.getDom 1).exists_ = true ∧ (t.getDom 2).exists_ = true ∧ (∀ c, 1280 ≤ c → c < 1312 → (t.getCore c).dom = some 1) ∧
          (t.getCore (128 * n)).dom = some 2 ∧
          (∀ k f, k = 1 ∨ k = 2 → images[k - 1]? = some f → let frames := Config.kernelFrames k f.image
            (t.getDom k).troot = Config.kernelRoot k f.image &&& 0x000FFFFFFFFFF001 ∧
            (∀ n ∈ frames, isDram (4096 * n) = true → (getFrame s n).state = .free →
              (∀ g, k = 2 → images[0]? = some g → n ∉ Config.kernelFrames 1 g.image) →
              getFrame t n = { getFrame s n with state := .owned, keyid := k, owner := k, peer := k } ∧
              (MemoryOk s → s.grants = [] → ∀ j, j < 32 → readSealed t k (32 * n + j) = Config.kernelLine k f.image (32 * n + j)))) ∧
          (∀ c k, (c = 1280 ∧ k = 1) ∨ (c = 128 * n ∧ k = 2) → ∃ a, t.findAct c 0 = some a ∧ a.dom = k ∧ a.kernel = true ∧ a.status = .running ∧
            a.wait = none ∧ a.pc = Config.kernelEntry k ∧ a.owed = 0)))) ∧
    ((s.inReset = true ∨ s.stage = 0 ∨ 6 ≤ s.stage ∨ s.err ≠ 0) → Steps i s s)

/-- Droop, throttling, thermal limits, reset and bring-up: each clause cites its rules. -/
def Obligations.PowerAndBringUp : Prop := Clauses.PowerLimits ∧ Clauses.BringUp

/-- R353 R354 R358 R359 R361 R355 R357: the security requests that read or extend what is measured and the domain's rules. `answers` is the
SECREPLY to the kernel that asked. EXTEND extends one measurement slot, or logs only; EVIDENCE and LOGREAD write their
bytes into the kernel's buffer; MODE and POLICY change what they name and are logged, and a POLICY that clears a bit revokes the entries
it no longer admits. The value in s11 of a request that fails is open (log 16). (The model's choices: what of a request is tested
first and what its operands' high bits do, logs 64, 65; which bits of a mask stay, log 66; who chooses key rollover, log 67; what is
revoked, log 57; SHA3's steps, log 92; that a line an outside host holds is written later, log 54.) -/
def Obligations.MeasuringRequests : Prop :=
  ∀ (m : Msg) (rest : List Msg) (s : State), s.requests = m :: rest →
    let k := bitsOf m.hdr 42 35
    let w := fun (i : Nat) => m.words.getD i 0
    let code := (w 0).toNat
    let answers := fun (i : Instr) (r : Nat) (v : Word) (u : State) =>
      Steps i s (notice u k 4090 [10, w 0, BitVec.ofNat 64 r, v, BitVec.ofNat 64 (bitsOf m.hdr 34 19), 0, 0])
    let served : State := { s with requests := rest }
    let refused := fun (i : Instr) (r : Nat) => ∃ v, answers i r v { served with free := s.free + 1 }
    let logged := fun (u : State) (type d slot : Nat) (e : BitVec 256) => u.logCount = s.logCount + 1 ∧
      u.log.getLast? = some { index := s.logCount, type := type, dom := d, slot := slot, time := s.time, digest := e } ∧
      u.logh = sha3 (leBytes 32 s.logh.toNat ++ LogEnt.bytes { index := s.logCount, type := type, dom := d, slot := slot, time := s.time, digest := e })
    let exists_ := fun (d : Nat) => 1 ≤ d ∧ d ≤ 194 ∧ (s.getDom d).exists_ = true
    let here := fun (pa n : Nat) => ∀ x ∈ s.ext, ¬ (pa / 128 ≤ x.1 ∧ x.1 < (pa + n) / 128)
    (code = 0 ∨ 9 ≤ code → ∀ i ∈ [Instr.extend, .evidence, .policy, .create, .destroy, .retire, .logread, .mode], refused i 3) ∧
    (code = 1 → let sel := (w 1).toNat % 256
      let d := (w 2).toNat
      let e : BitVec 256 := w 6 ++ w 5 ++ w 4 ++ w 3
      let named := ¬ (195 ≤ d ∧ d ≤ 254)
      (¬ named → refused .extend 3) ∧
      (named → sel ≤ 23 → (k = 1 ∧ 8 ≤ sel ∧ sel ≤ 15) ∨ (k = 2 ∧ 16 ≤ sel) → ∃ u, answers .extend 0 (BitVec.ofNat 64 s.logCount) u ∧
        u.ms.toArray.getD sel 0 = sha3 (leBytes 32 (s.ms.toArray.getD sel 0).toNat ++ leBytes 32 e.toNat) ∧
        (∀ j, j ≠ sel → u.ms.toArray.getD j 0 = s.ms.toArray.getD j 0) ∧ logged u 2 k sel e ∧
        u = { served with ms := u.ms, log := u.log, logCount := u.logCount, logh := u.logh }) ∧
      (named → sel ≤ 23 → ¬ ((k = 1 ∧ 8 ≤ sel ∧ sel ≤ 15) ∨ (k = 2 ∧ 16 ≤ sel)) → refused .extend 2) ∧
      (32 ≤ sel → sel ≤ 35 → exists_ d → kernelOf d = k → (s.getDom d).cs.length = 4 → ∃ u, answers .extend 0 (BitVec.ofNat 64 s.logCount) u ∧ logged u 2 d sel e ∧
        (u.getDom d).cs.getD (sel - 32) 0 = sha3 (leBytes 32 ((s.getDom d).cs.getD (sel - 32) 0).toNat ++ leBytes 32 e.toNat)) ∧
      (32 ≤ sel → sel ≤ 35 → (d < 1 ∨ 194 < d) → refused .extend 3) ∧
      (32 ≤ sel → sel ≤ 35 → exists_ d → kernelOf d ≠ k → refused .extend 2) ∧
      (named → sel = 255 → ∃ u, answers .extend 0 (BitVec.ofNat 64 s.logCount) u ∧ logged u 2 k 255 e ∧ u.ms = s.ms ∧ u.doms = s.doms) ∧
      (23 < sel → (sel < 32 ∨ 35 < sel) → sel ≠ 255 → refused .extend 3)) ∧
    (code = 2 → let d := (w 1).toNat
      let pa := (w 2).toNat
      (exists_ d → bufferOk s k pa 0x2000 = true → here pa 0x2000 → MemoryOk s → ∃ u, answers .evidence 0 (BitVec.ofNat 64 s.evidence) u ∧ u.evidence = s.evidence + 1 ∧
        (∀ i, i < 0x2000 → homeByte u ((pa + i) / 128) ((pa + i) % 128) =
          (evidenceBytes served d (w 6 ++ w 5 ++ w 4 ++ w 3 : BitVec 256)).getD i 0)) ∧
      (exists_ d → bufferOk s k pa 0x2000 = false → refused .evidence 5) ∧ ((d < 1 ∨ 194 < d) → refused .evidence 3)) ∧
    (code = 7 → let first := (w 1).toNat
      let pa := (w 2).toNat
      let old := s.logCount - s.log.length
      let n := min 64 (s.log.length - (first - old))
      (bufferOk s k pa 0x1000 = true → here pa 0x1000 → old ≤ first → first < s.logCount → s.log.length ≤ s.logCount → MemoryOk s → ∃ u,
        answers .logread 0 (BitVec.ofNat 64 n) u ∧ u.log = s.log ∧ (∀ j i x, s.log[first - old + j]? = some x → j < n → i < 64 →
          homeByte u ((pa + 64 * j + i) / 128) ((pa + 64 * j + i) % 128) = x.bytes.getD i 0)) ∧
      (bufferOk s k pa 0x1000 = true → (first < old ∨ s.logCount ≤ first) → refused .logread 6) ∧
      (bufferOk s k pa 0x1000 = false → refused .logread 5)) ∧
    (code = 3 → let d := (w 1).toNat
      let q := (w 2).toNat % 4
      let send := (w 2).getLsbD 8
      (exists_ d → kernelOf d = k → ∃ u, answers .policy 0 0 u ∧
        (∀ b, b < 256 → let old := if send then (s.getDom d).send else (s.getDom d).accept
          (if send then (u.getDom d).send else (u.getDom d).accept).getLsbD b =
            (if b = d ∨ b = kernelOf d then true else if b / 64 = q then (w 3).getLsbD (b % 64) else old.getLsbD b)) ∧
        (if send then (u.getDom d).accept = (s.getDom d).accept else (u.getDom d).send = (s.getDom d).send) ∧ u.logCount = s.logCount + 1 ∧
        (let cleared := (s.getDom d).accept &&& ~~~(u.getDom d).accept ≠ 0 ∨ (s.getDom d).send &&& ~~~(u.getDom d).send ≠ 0
         (¬ cleared → u.cores = s.cores ∧ u.fns = s.fns ∧ u.lanIngress = s.lanIngress) ∧
         (cleared → ∀ x ∈ u.cores, ∀ e ∈ x.2.endpoints, e.1 < 253 → e.2.getLsbD 63 = true →
           policyOk u (x.2.dom.getD 0) e.2 (decide (epPkg e.2 ≠ 0)) = true))) ∧
      (exists_ d → kernelOf d ≠ k → refused .policy 2) ∧ ((d < 1 ∨ 194 < d) → refused .policy 3)) ∧
    (code = 8 → let d := (w 1).toNat
      let which := w 2
      let chooser := fun (b : Nat) => if b = 4 then 1 else kernelOf d
      let idle := ∀ b, b < 6 → which.getLsbD b = false
      (exists_ d → (∀ b, b < 6 → which.getLsbD b = true → chooser b = k) → (idle → kernelOf d = k) → ∃ u, answers .mode 0 0 u ∧ u.logCount = s.logCount + 1 ∧
        (∀ b, b < 6 → (u.getDom d).modes.getLsbD b = (if which.getLsbD b then (w 3).getLsbD b else (s.getDom d).modes.getLsbD b)) ∧
        (u.getDom d) = { s.getDom d with modes := (u.getDom d).modes } ∧ (∀ e, e ≠ d → u.getDom e = s.getDom e)) ∧
      (exists_ d → (∃ b, b < 6 ∧ which.getLsbD b = true ∧ chooser b ≠ k) ∨ (idle ∧ kernelOf d ≠ k) → refused .mode 2) ∧ ((d < 1 ∨ 194 < d) → refused .mode 3))

/-- R353 R354 R349 R356: CREATE, DESTROY and RETIRE, by the accelerator kernel's word or the owner's kernel's. A created domain has new keys,
its masks hold itself and its kernel, its balance is zero; a destroyed one no longer exists and its entries are revoked; a
retired frame can be used by no one. (What DESTROY counts and RETIRE tests first are the model's choices: logs 65, 66.) -/
def Obligations.DomainRequests : Prop :=
  ∀ (m : Msg) (rest : List Msg) (s : State), s.requests = m :: rest →
    let k := bitsOf m.hdr 42 35
    let w := fun (i : Nat) => m.words.getD i 0
    let code := (w 0).toNat
    let answers := fun (i : Instr) (r : Nat) (v : Word) (u : State) =>
      Steps i s (notice u k 4090 [10, w 0, BitVec.ofNat 64 r, v, BitVec.ofNat 64 (bitsOf m.hdr 34 19), 0, 0])
    let served : State := { s with requests := rest }
    let refused := fun (i : Instr) (r : Nat) => ∃ v, answers i r v { served with free := s.free + 1 }
    let d := (w 1).toNat
    let there := (s.getDom d).exists_ = true
    let logged := fun (u : State) (type d : Nat) => ∃ e, u.log.getLast? = some e ∧ e.index = s.logCount ∧ e.type = type ∧ e.dom = d ∧ e.time = s.time
    (code = 4 → (d < 3 ∨ 194 < d → refused .create 3) ∧
      (3 ≤ d → d ≤ 194 → (k ≠ 2 → refused .create 2) ∧ (k = 2 → there → refused .create 4) ∧
        (k = 2 → ¬ there → ∃ u, answers .create 0 0 u ∧ logged u 3 d ∧
          (let x := u.getDom d
           x.exists_ = true ∧ x.gen = (s.getDom d).gen + 1 ∧ x.accept = ((1 : BitVec 256) <<< d) ||| (1 <<< 2) ∧ x.send = x.accept ∧ x.qbal = 0 ∧
             x.used = 0 ∧ x.held = false ∧ x.modes = 0 ∧ x.pbudget = 50000 ∧ x.cs = List.replicate 4 0 ∧ x.halted = false) ∧
          (∀ e, e ≠ d → u.getDom e = s.getDom e) ∧ u.mem = s.mem ∧ u.frames = s.frames))) ∧
    (code = 5 → (d < 3 ∨ 194 < d → refused .destroy 3) ∧
      (3 ≤ d → d ≤ 194 → there → (k ≠ 2 → refused .destroy 2) ∧
        (k = 2 → (∃ x ∈ s.cores, x.2.dom = some d) ∨ (∃ x ∈ s.frames, x.2.owner = d ∨ x.2.peer = d) → refused .destroy 9) ∧
        (k = 2 → (∀ x ∈ s.cores, x.2.dom ≠ some d) → (∀ x ∈ s.frames, x.2.owner ≠ d ∧ x.2.peer ≠ d) →
          ∃ u v, answers .destroy 0 v u ∧ logged u 4 d ∧ (u.getDom d).exists_ = false ∧ (u.getDom d).gen = (s.getDom d).gen + 1 ∧
            (∀ x ∈ u.cores, ∀ e ∈ x.2.endpoints, e.1 < 253 → e.2.getLsbD 63 = true → epPkg e.2 = 0 → epDom e.2 ≠ d) ∧ u.mem = s.mem))) ∧
    (code = 6 → let pa := d
      let f := getFrame s (pa / 4096)
      (pa % 4096 ≠ 0 → refused .retire 3) ∧
      (pa % 4096 = 0 → (isDram pa = false → refused .retire 5) ∧
        (isDram pa = true → (f.owner < 1 ∨ 194 < f.owner ∨ kernelOf f.owner ≠ k) → refused .retire 2) ∧
        (isDram pa = true → 1 ≤ f.owner → f.owner ≤ 194 → kernelOf f.owner = k → (f.state ≠ .owned ∨ f.peer ≠ f.owner → refused .retire 1) ∧
          (f.state = .owned → f.peer = f.owner → ∃ u, answers .retire 0 0 u ∧ getFrame u (pa / 4096) = { f with state := .retired } ∧
            (∀ g, g ≠ pa / 4096 → getFrame u g = getFrame s g) ∧ logged u 7 f.owner))))

/-- R366 R367 R369 R370 R371 R372 R374 R375 R376 R373: the debug commands. `answers` is the DBGREPLY to the kernel that issued the oldest command; fields
outside R369's are answered FORMAT, and HOLD to UNLOCK by one who is not the grantee of an effective grant AUTHORITY.
GRANT and CONSENT make a grant that both make effective; REVOKE ends it; HOLD halts the group's running activations,
RELEASE lets them run, STEP lets one run a word; SNAP writes the 64 records and the core page into the grantee's buffer;
TRACE, WINDOW, LOCK and UNLOCK set what they name. (The model's choices: when a grant and a consent meet, what of a command is tested
first and to whom it is answered, log 68; what SNAP shows of a saved activation and of another context's core, log 69.) -/
def Obligations.DebugCommands : Prop :=
  ∀ (q : DebugCmd) (rest : List DebugCmd) (s : State), s.commands = q :: rest →
    let d := bitsOf q.word 11 4
    let c := bitsOf q.word 63 52
    let g := clusterOf c
    let cmd := bitsOf q.word 3 0
    let served : State := { s with commands := rest }
    let answers := fun (i : Instr) (r v : Nat) (u : State) => Steps i s (notice u (kernelOf q.dom) 4090
      [11, BitVec.ofNat 64 cmd, BitVec.ofNat 64 r, BitVec.ofNat 64 d, BitVec.ofNat 64 c, BitVec.ofNat 64 v, 0])
    let refused := fun (i : Instr) (r : Nat) => answers i r 0 served
    let good := cmdFormat q.word = false
    let all := [Instr.grant, .consent, .revoke, .hold, .release, .step, .snap, .trace, .window, .lock, .unlock]
    let to_ := bitsOf q.word 19 12
    let kernel := to_ = 1 ∨ to_ = 2
    let there := d = 1 ∨ d = 2 ∨ (s.getDom d).exists_ = true
    let sorted := (s.grants.map fun x => x.1).Pairwise (· < ·)
    (12 ≤ cmd → ∀ i ∈ all, refused i 3) ∧
    (cmdFormat q.word = true → ∀ n i, all[n]? = some i → cmd = n + 1 → refused i 3) ∧
    (good → cmd = 1 → (¬ kernel → refused .grant 3) ∧ (kernel → q.dom ≠ 1 → refused .grant 2) ∧
      (kernel → q.dom = 1 → there →
        let new := newGrant to_ (q.word.getLsbD 20) true
        (tabFind s.grants d = none → answers .grant 0 0 (putGrant served d (new false))) ∧
        (∀ x, tabFind s.grants d = some x → x.granted = false → x.consent = true → x.grantee = to_ →
          ∃ u, answers .grant 0 0 u ∧ grantOf u d = some (new true)))) ∧
    (good → cmd = 2 → (¬ kernel → refused .consent 3) ∧ (kernel → q.dom ≠ kernelOf d → refused .consent 2) ∧
      (kernel → q.dom = kernelOf d → there →
        (tabFind s.grants d = none → answers .consent 0 0 (putGrant served d (newGrant to_ false false true))) ∧
        (∀ x, tabFind s.grants d = some x → x.granted = true → (x.grantee ≠ to_ → refused .consent 1) ∧
          (x.grantee = to_ → x.consent = false → ∃ u, answers .consent 0 0 u ∧ grantOf u d = some { x with consent := true })))) ∧
    (good → cmd = 3 → (q.dom ≠ 1 → q.dom ≠ kernelOf d → refused .revoke 2) ∧
      (q.dom = 1 ∨ q.dom = kernelOf d → (tabFind s.grants d = none → refused .revoke 1) ∧
        (∀ x, tabFind s.grants d = some x → sorted → ∃ u, answers .revoke 0 0 u ∧ tabFind u.grants d = none))) ∧
    (good → (∀ x, grantOf s d = some x → x.grantee ≠ q.dom) → ∀ n i, all[n]? = some i → 3 ≤ n → cmd = n + 1 → refused i 2) ∧
    (∀ x, good → grantOf s d = some x → x.grantee = q.dom →
      (cmd = 4 → FormOk s → tabFind s.acts (64 * s.core + s.slot) = none → ∃ u v, answers .hold 0 v u ∧ groupHeld u d g = true ∧
        (∀ core k a, k < 64 → s.findAct core k = some a → a.dom = d → clusterOf core = g → a.status = .running → a.halt = .none →
          u.findAct core k = some { a with halt := .group })) ∧
      (cmd = 5 → (g ∉ x.holds → refused .release 1) ∧
        (g ∈ x.holds → ∃ u, answers .release 0 0 u ∧ groupHeld u d g = false)) ∧
      (cmd = 6 → let k := bitsOf q.word 17 12
        (g ∉ x.holds → refused .step 1) ∧ (g ∈ x.holds → s.findAct c k = none → refused .step 6) ∧
        (∀ a, g ∈ x.holds → s.findAct c k = some a → a.dom = d → (a.halt = .none → refused .step 1) ∧
          (a.status = .running → a.halt ≠ .none → a.halt ≠ .step → answers .step 0 0 (served.putAct c k { a with halt := .step })))) ∧
      (cmd = 7 → let pa := 4096 * bitsOf q.word 51 12
        (g ∉ x.holds → refused .snap 1) ∧ (g ∈ x.holds → bufferOk s q.dom pa 0x21000 = false → refused .snap 5) ∧
        (∀ bs z, g ∈ x.holds → bufferOk s q.dom pa 0x21000 = true → snapRecords served d c (List.range 64) = .ok (bs, z) → MemoryOk s →
          (∀ y ∈ s.ext, ¬ (pa / 128 ≤ y.1 ∧ y.1 < (pa + 0x21000) / 128)) →
          ∃ u, answers .snap 0 64 u ∧ (∀ i, i < 0x21000 → homeByte u ((pa + i) / 128) ((pa + i) % 128) = (bs ++ corePage z d c).getD i 0))) ∧
      (cmd = 8 → let pa := 4096 * bitsOf q.word 51 12
        (pa = 0 → answers .trace 0 0 (putGrant served d { x with trace := none })) ∧
        (pa ≠ 0 → bufferOk s q.dom pa 0x10000 = true → answers .trace 0 0 (putGrant served d { x with trace := some pa, traceSeq := 0 })) ∧
        (pa ≠ 0 → bufferOk s q.dom pa 0x10000 = false → refused .trace 5)) ∧
      (cmd = 9 → ((s.getCore c).dom ≠ some d → refused .window 1) ∧
        ((s.getCore c).dom = some d → q.word.getLsbD 12 = true →
          answers .window 0 0 (served.modCore c fun y => { y with da := [], wt := 0, open_ := true })) ∧
        ((s.getCore c).dom = some d → q.word.getLsbD 12 = false → answers .window 0 0 (served.modCore c fun y => { y with open_ := false }))) ∧
      (cmd = 10 → (x.prof = false → refused .lock 2) ∧ (x.prof = true → g ∈ x.locks → refused .lock 0) ∧
        (x.prof = true → g ∉ x.locks → ∃ u, answers .lock 0 0 u ∧ (u.getCluster g).lock = true ∧
          tabFind u.grants d = some { x with locks := x.locks ++ [g] } ∧ u.mem = s.mem)) ∧
      (cmd = 11 → (g ∉ x.locks → refused .unlock 1) ∧ (g ∈ x.locks → sorted → ∃ u, answers .unlock 0 0 u ∧
        ((u.getCluster g).lock = true ↔ ∃ y ∈ s.grants, y.1 ≠ d ∧ g ∈ y.2.locks) ∧
        tabFind u.grants d = some { x with locks := x.locks.filter fun h => decide (h ≠ g) })))

/-- R381 R382 R384 R400 R406 R5 R6 R7: the host link, once it is trained and unless bring-up failed. A 64-byte write at a valid ingress entry becomes
a message through it, and its SEQ advances; any other write to the window is dropped and counted, saturating; with 16 messages
undelivered a write waits in the posted queue, and every later write behind it, until after some step the first of them stalls no
longer. The oldest egress message goes to the ring while that has room, TAIL advances and the function's MSI-X
vector is raised. A register keeps what R381 and R406 let a host write, and a read returns the fields in their places, zero for the
reserved and the write-only ones, the value for those cleared by ones. (Writes of other widths and offsets, and what counts as
undelivered, are the model's choices: logs 73, 74.) -/
def Obligations.HostLink : Prop :=
  ∀ (fn : Nat) (s : State),
    let f := s.getFn fn
    let serves := 3 ≤ s.stage ∧ s.err = 0
    (¬ serves → (∀ off size data, Steps (.hostIngressWrite fn off size data) s s) ∧ Steps (.hostEgressWrite fn) s s ∧
      ∀ sp off v, Steps (.registerWrite sp off v) s s) ∧
    (serves → s.posted ≠ [] →
      (∀ off size data, fn < 194 → off < 0x1000 → Steps (.hostIngressWrite fn off size data) s { s with posted := s.posted ++ [.ingress fn off size data] }) ∧
      ∀ sp off v, Steps (.registerWrite sp off v) s { s with posted := s.posted ++ [.register sp off v] }) ∧
    (∀ i rest t, s.agenda = .event i :: rest → i.isStep = true → s.inReset = false → step s = .next t →
      t.posted = [] ∨ ∃ w r, t.posted = w :: r ∧ w.stalls t = true) ∧
    (∀ off size (data : BitVec 512), serves → s.posted = [] → fn < 194 → off < 0x1000 →
      let i := Instr.hostIngressWrite fn off size data
      let e := tabGet 0 f.ingress (off / 64)
      (size ≠ 64 ∨ off % 64 ≠ 0 ∨ e.getLsbD 63 = false → ∃ t, Steps i s t ∧ t = { s with fns := t.fns } ∧
        t.getFn fn = { f with ingerr := min (f.ingerr + 1) (2 ^ 32 - 1) }) ∧
      (size = 64 → off % 64 = 0 → e.getLsbD 63 = true →
        (16 ≤ undelivered s fn → Steps i s { s with posted := [.ingress fn off size data] }) ∧
        (undelivered s fn < 16 → epPkg e = 0 → epCore e < 1312 → ∃ t m, Steps i s t ∧ t = { s with fns := t.fns, flight := s.flight ++ [m] } ∧
          tabGet 0 (t.getFn fn).ingress (off / 64) = epAdvance e ∧ m.dom = epDom e ∧ m.core = epCore e ∧ m.actor = epActor e ∧ m.tag = epTag e ∧
          m.words = ((List.range 7).map fun j => (data >>> (64 * (j + 1))).setWidth 64).take (epLen e) ∧
          m.hdr = mkHeader (off / 64) (fn + 1) (epSeq e) (epLen e) (epTag e) 4095))) ∧
    (∀ m r, serves → f.egress = m :: r →
      let room := (f.egbase ≠ 0 ∨ f.eglog ≠ 0) ∧ (f.egtail + 2 ^ 32 - f.eghead) % 2 ^ 32 ≠ 2 ^ f.eglog
      (room → ∃ t, Steps (.hostEgressWrite fn) s t ∧ t = { s with fns := t.fns, hostOut := t.hostOut, msix := s.msix ++ [(fn, f.vec)] } ∧
        t.hostOut = s.hostOut ++ [{ fn := fn, addr := f.egbase.toNat + 64 * (f.egtail % 2 ^ f.eglog), bytes := msgBytes m.hdr m.words }] ∧
        t.getFn fn = { f with egress := r, egtail := (f.egtail + 1) % 2 ^ 32 }) ∧
      (¬ room → Steps (.hostEgressWrite fn) s s)) ∧
    (let two := readBar2 s
     let dom := fun (n : Nat) => s.getDom n
     two 8 = BitVec.ofNat 64 s.plimit ∧ two 0x10 = BitVec.ofNat 64 s.pwr ∧
     (s.stage < 8 → s.err < 256 → two 0 = BitVec.ofNat 64 (s.stage + s.err * 2 ^ 32 + s.diemask.toNat * 2 ^ 44)) ∧
     (∀ n, n < 10 → let d := s.getDie n
       d.temp < 256 → d.tthr < 256 → d.step < 16 → two (0x20 + 8 * n) = BitVec.ofNat 64 (d.temp + d.tthr * 2 ^ 8 + d.step * 2 ^ 16 + d.droop * 2 ^ 32)) ∧
     (∀ n, n < 195 → two (0x2000 + 16 * n) = BitVec.ofNat 64 (dom n).used ∧ two (0x2008 + 16 * n) = (if (dom n).held then 1 else 0)) ∧
     (∀ n, n < 164 → two (0x1000 + 8 * n) = BitVec.ofNat 64 (s.getCluster n).hscale) ∧
     (∀ n, n < 12 → let p := s.getPort n
       (p.pdom < 256 → two (0x3000 + 256 * n) = BitVec.ofNat 64 (p.pdom + 2 ^ 8 * (if p.lstate = .down then 0 else if p.lstate = .training then 1 else 2))) ∧
       two (0x3008 + 256 * n) = BitVec.ofNat 64 p.drop ∧ ∀ k, 0x20 ≤ k → k < 0x100 → two (0x3000 + 256 * n + k) = 0) ∧
     (∀ h k, h < 64 → k < 4 → let e := tabGet { ctl := 0, base := 0, limit := 0 } s.hostTab h
       two (0x800 + 32 * h + 8 * k) = (if k = 0 then e.ctl else if k = 1 then e.base else if k = 2 then e.limit else 0)) ∧
     readBar0 s fn 0x1000 = f.egbase ||| BitVec.ofNat 64 f.eglog ∧ readBar0 s fn 0x1008 = BitVec.ofNat 64 f.eghead ∧
     readBar0 s fn 0x1010 = BitVec.ofNat 64 f.egtail ∧ readBar0 s fn 0x1018 = BitVec.ofNat 64 f.vec ∧ readBar0 s fn 0x1020 = BitVec.ofNat 64 f.ingerr) ∧
    (∀ v : Word, serves → s.posted = [] → let bar2 := fun (off : Nat) => Instr.registerWrite (.bar2 false) off v
      let bar0 := fun (off : Nat) => Instr.registerWrite (.bar0 fn) off v
      (∀ off, Steps (.registerWrite (.bar2 true) off v) s s) ∧
      Steps (bar2 8) s { s with plimit := min (v.toNat % 65536) 4800 } ∧
      (∀ n, n < 10 → let t := v.toNat / 256 % 256
        (85 ≤ t → t ≤ 110 → Steps (bar2 (0x20 + 8 * n)) s (s.modDie n fun x => { x with tthr := t })) ∧
        (t < 85 ∨ 110 < t → Steps (bar2 (0x20 + 8 * n)) s s)) ∧
      (∀ n, n < 164 → Steps (bar2 (0x1000 + 8 * n)) s (s.modCluster n fun x => { x with hscale := v.toNat % 65536 })) ∧
      (∀ p, p < 12 → Steps (bar2 (0x3000 + 256 * p)) s (s.modPort p fun x => { x with pdom := v.toNat % 256 }) ∧
        ((s.getPort p).drop < 2 ^ 32 → ∃ t, Steps (bar2 (0x3008 + 256 * p)) s t ∧
          BitVec.ofNat 64 (t.getPort p).drop = BitVec.ofNat 64 (s.getPort p).drop &&& ~~~v) ∧
        Steps (bar2 (0x3040 + 256 * p)) s (s.modPort p fun x => { x with kagree := x.kagree || v.getLsbD 0 })) ∧
      (fn < 194 → (f.ingerr < 2 ^ 32 → ∃ t, Steps (bar0 0x1020) s t ∧ BitVec.ofNat 64 (t.getFn fn).ingerr = BitVec.ofNat 64 f.ingerr &&& ~~~v) ∧ Steps (bar0 0x1008) s (s.modFn fn fun x => { x with eghead := v.toNat % 2 ^ 32 }) ∧
        Steps (bar0 0x1018) s (s.modFn fn fun x => { x with vec := v.toNat % 64 }) ∧
        Steps (bar0 0x1000) s (s.modFn fn fun x => { x with egbase := v &&& 0xFFFFFFFFFFFFF000, eglog := v.toNat % 32 })))

/-- R385 R387 R388 R390 R391 R392 R393 R394 R398, 23 R336: the sending side of a Lanyard port. Training binds the port and installs fresh keys; a flit to be resent goes
before a new one, a MARKER goes where a counter calls for it, or the link ends where the counter is used up (R393), and a DATA flit takes the next LSEQ and counter and is kept;
an acknowledgement lets the flits up to it go; a RETRY, unless a resend that an earlier one began is under way, and 10 µs without one have
the kept flits resent; a link that goes down keeps nothing. Each flit's 96-bit IV is R390's. (The model's choices: the number of
flits that wait, log 70; how a port comes to be bound and what its training leaves, log 71; whose mode key rollover is, log 67.) -/
def Clauses.LanyardSending : Prop :=
  ∀ (port : Nat) (s : State), port < 12 →
    let p := s.getPort port
    let key := fun (p : Port) => if p.txSlot then p.tx1 else p.tx0
    let last := fun (f : Flit) => f.ackseq = BitVec.ofNat 16 (p.expect + 65535)
    let known := fun (f : Flit) => f.auth = true ∧ f.reservedZero = true ∧ f.slot = p.rxSlot ∧ f.iv = flitIv p false f
    (∀ link lower, p.lstate ≠ .up → ∃ t, Steps (.linkTrained port link lower) s t ∧ t = { s with ports := t.ports, free := s.free + 2 } ∧
      (let x := t.getPort port
       x.lstate = .up ∧ x.bound = p.pdom ∧ x.assisted = (s.getDom p.pdom).modes.getLsbD 4 ∧ x.pdom = p.pdom ∧ x.drop = p.drop ∧ x.linkId = link ∧ x.lower = lower ∧ x.queue = [] ∧ x.sent = [] ∧ x.txSlot = false ∧
         x.rxSlot = false ∧ x.tx0.data = 0 ∧ x.tx0.ctl = 0 ∧ x.tx1.data = 0 ∧ x.tx1.ctl = 0 ∧ x.marker = false ∧ x.resync = false)) ∧
    (p.lstate = .up → p.kagree = true → ∃ t, Steps (.kagree port) s t ∧ t = { s with ports := t.ports } ∧ (t.getPort port).kagree = false ∧
      (t.getPort port).fresh = true ∧ key (t.getPort port) = key p ∧ ((t.getPort port).tx (!p.txSlot)).key = p.keynext ∧
      ((t.getPort port).rx (!p.rxSlot)).key = p.keynext ∧ ((t.getPort port).tx (!p.txSlot)).data = 0) ∧
    (p.lstate = .up → p.resync = false →
      (∀ f r, p.resend = f :: r → Steps (.lanyardFlitSend port) s (chargeOpen (s.modPort port fun x => { x with resend := r, out := p.out ++ [f] }))) ∧
      (p.resend = [] → 64 ≤ p.sent.length → Steps (.lanyardFlitSend port) s s) ∧
      (p.resend = [] → p.sent.length < 64 → (key p).data < 0xFFF00000 → (key p).ctl < 0x1FF00000 →
        (∀ u r, p.queue = u :: r → ∃ t f, Steps (.lanyardFlitSend port) s t ∧ t = { s with ports := t.ports, free := s.free + 1, device := t.device } ∧ f.kind = .data ∧
          f.iv = (p.linkId ++ (if p.lower then 0#1 else 1#1) ++ (if p.txSlot then 1#1 else 0#1) ++ 0#30 ++ f.ctr : BitVec 96) ∧
          f.lseq = BitVec.ofNat 16 p.lseq ∧ f.ctr = BitVec.ofNat 32 (key p).data ∧ last f ∧ f.slot = p.txSlot ∧ f.ing = BitVec.ofNat 8 u.ing ∧
          f.body = u.bytes ∧ f.last = u.last ∧ f.resync = false ∧
          (let x := t.getPort port
           x.out = p.out ++ [f] ∧ x.sent = p.sent ++ [{ flit := f, unit := some u }] ∧ x.queue = r ∧ x.lseq = (p.lseq + 1) % 65536 ∧
             (key x).data = (key p).data + 1 ∧ (key x).ctl = (key p).ctl)) ∧
        (p.queue = [] → ∃ t f, Steps (.lanyardFlitSend port) s t ∧ f.kind = .idle ∧ last f ∧ f.ctr = BitVec.ofNat 32 (key p).ctl ∧
          f.iv = (p.linkId ++ (if p.lower then 0#1 else 1#1) ++ (if p.txSlot then 1#1 else 0#1) ++ 1#1 ++ f.ctr.setWidth 29 ++ 0#32 : BitVec 96) ∧
          (t.getPort port).out = p.out ++ [f] ∧ (t.getPort port).lseq = p.lseq ∧ (t.getPort port).sent = p.sent)) ∧
      (p.resend = [] → p.sent.length < 64 → 0xFFF00000 ≤ (key p).data ∨ 0x1FF00000 ≤ (key p).ctl → p.marker = false →
        (p.assisted = false ∨ p.fresh = true) → (2 ^ 32 ≤ (key p).data → Steps (.lanyardFlitSend port) s (linkLost s port 3)) ∧
        ((key p).data < 2 ^ 32 → ∃ t f, Steps (.lanyardFlitSend port) s t ∧ f.kind = .marker ∧
          f.slot = p.txSlot ∧ f.lseq = BitVec.ofNat 16 p.lseq ∧ (t.getPort port).out = p.out ++ [f] ∧ (t.getPort port).txSlot = !p.txSlot ∧
          (t.getPort port).marker = true ∧ (t.getPort port).queue = p.queue))) ∧
    (p.lstate = .up → p.sent ≠ [] →
      (p.lastAck + 10000 ≤ s.time → ∃ t, Steps (.lanyardAckTimeout port) s t ∧ t = { s with ports := t.ports } ∧
        (t.getPort port).resend = p.sent.map (fun x => x.flit) ∧ (t.getPort port).byRetry = false ∧ (t.getPort port).sent = p.sent) ∧
      (s.time < p.lastAck + 10000 → Steps (.lanyardAckTimeout port) s s)) ∧
    (∀ f, p.lstate = .up → known f →
      (∀ x xs j, p.sent = x :: xs → j < p.sent.length → p.sent.length ≤ 64 → f.ackseq = x.flit.lseq + BitVec.ofNat 16 j → f.kind = .idle →
        ∃ t, Steps (.lanyardIdle port f) s t ∧ (t.getPort port).sent = p.sent.drop (j + 1) ∧ (t.getPort port).lastAck = s.time) ∧
      (p.sent = [] → f.kind = .idle → Steps (.lanyardIdle port f) s (chargeOpen s)) ∧
      (∀ x xs, p.sent = x :: xs → p.sent.length ≤ 64 → f.ackseq = x.flit.lseq - 1 → f.kind = .retry →
        (p.resend = [] ∨ p.byRetry = false ∨ p.resendFor ≠ f.ackseq.toNat → Steps (.lanyardRetry port f) s
          ((chargeOpen s).modPort port fun y => { y with resend := p.sent.map (fun z => z.flit), resendFor := f.ackseq.toNat, byRetry := true })) ∧
        (p.resend ≠ [] → p.byRetry = true → p.resendFor = f.ackseq.toNat → ∃ t, Steps (.lanyardRetry port f) s t ∧ t.getPort port = p))) ∧
    (∀ f, p.lstate = .up → ¬ known f → ∀ i ∈ [Instr.lanyardIdle port f, .lanyardRetry port f],
      (i = .lanyardIdle port f → f.kind = .idle) → (i = .lanyardRetry port f → f.kind = .retry) → ∃ t y, Steps i s t ∧ y.kind = .retry ∧
        last y ∧ (t.getPort port).out = p.out ++ [y] ∧ (t.getPort port).sent = p.sent) ∧
    (∀ reason, p.lstate ≠ .down → ∃ t, Steps (.linkDown port reason) s t ∧ (t.getPort port).lstate = .down ∧ (t.getPort port).queue = [] ∧
      (t.getPort port).sent = [] ∧ (t.getPort port).landing = none)

/-- R387 R389 R390 R391 R392 R393 R397 R409, 23 R336: the receiving side of a Lanyard port, on flits whose acknowledgement is of nothing outstanding. The next flit in order
that authenticates is accepted; a DATA flit's unit through a valid entry of this port becomes a message of the port's
domain, and one at another entry is dropped and counted, the rest of its job being known to lack it; with LAND = 1 its bytes fill the ring slot at TAIL, and its message is claimed at
CORE; an earlier one is answered IDLE, a later one or one that fails authentication RETRY, the third failure of one LSEQ also a
resynchronising MARKER, unless one is out, and one more the link's end. A MARKER moves the receiver to the other slot; a resynchronising one that agrees, and names the receiving slot if it is
the next in order, resumes sending, one that does not ends the link, and one that sending has resumed for, resent later, only takes its place in the order. Each flit taken in is
the device's energy. (The model's choices: what a resynchronising MARKER's body holds and which slot one ahead of the order names, log 70; what a landing waits for and drops,
log 72.) -/
def Clauses.LanyardReceiving : Prop :=
  ∀ (port : Nat) (f : Flit) (s : State), port < 12 →
    let p := s.getPort port
    let verified_ := f.auth = true ∧ f.reservedZero = true ∧ f.iv = flitIv p false f
    let authentic_ := verified_ ∧ f.slot = p.rxSlot
    let failures := tabGet 0 p.fails f.lseq.toNat
    let e := tabGet 0 s.lanIngress (256 * p.bound + f.ing.toNat)
    let next := f.lseq.toNat = p.expect
    let moved := fun (t : State) => (t.getPort port).expect = (p.expect + 1) % 65536 ∧ (t.getPort port).fails = tabErase p.fails f.lseq.toNat
    let taken := fun (t : State) => t = { s with ports := t.ports, free := s.free + 1, device := t.device }
    p.lstate = .up → p.expect < 65536 → p.sent = [] →
    (f.kind = .data → let i := Instr.lanyardDataFlit port f
      (authentic_ → next → e.getLsbD 63 = true → epPkg e = port + 1 → e.getLsbD 20 = false → p.landing = none → f.last = true → f.bytes = 64 →
        f.body.length = 64 → ∃ t m, Steps i s t ∧ moved t ∧ t.flight = s.flight ++ [m] ∧ m.dom = epDom e ∧ m.core = epCore e ∧
          m.actor = epActor e ∧ m.tag = epTag e ∧ m.words = (wordsOf 7 (f.body.drop 8)).take (epLen e) ∧
          m.hdr = mkHeader f.ing.toNat p.bound (epSeq e) (epLen e) (epTag e) 4094 ∧
          tabGet 0 t.lanIngress (256 * p.bound + f.ing.toNat) = epAdvance e ∧ (t.getPort port).landing = none ∧ (t.getPort port).drop = p.drop) ∧
      (∀ r, let h := bitsOf e 19 16
        let c := epCore e
        authentic_ → next → e.getLsbD 63 = true → epPkg e = port + 1 → e.getLsbD 20 = true → p.landing = none → f.last = true →
        f.body.length = f.bytes → (s.getCore c).dom = some (epDom e) → findRing s c h = some r → f.bytes ≤ r.slotBytes →
        landHolds s p e = false → MemoryOk s → ∃ t m, Steps i s t ∧ moved t ∧ t.flight = s.flight ++ [m] ∧ m.acq = some .core ∧ m.core = c ∧
          m.words = [BitVec.ofNat 64 f.bytes, BitVec.ofNat 64 (r.base + r.slotOf r.tail * r.slotBytes)].take (epLen e) ∧
          (∃ r', findRing t c h = some r' ∧ r'.tail = r.tail + 1 ∧ r'.head = r.head) ∧
          (∀ j, j < f.bytes → spadByte t c (r.base + r.slotOf r.tail * r.slotBytes + j) = f.body.getD j 0) ∧ (t.getPort port).landing = none) ∧
      (authentic_ → next → (e.getLsbD 63 = false ∨ epPkg e ≠ port + 1) → ∃ t, Steps i s t ∧ moved t ∧ taken t ∧
        (t.getPort port).drop = min (p.drop + 1) (2 ^ 32 - 1) ∧ (f.last = true → (t.getPort port).landing = none) ∧
        (f.last = false → ∃ l, (t.getPort port).landing = some l ∧ l.lost = true)) ∧
      (∀ back, 1 ≤ back → back ≤ 32768 → f.lseq.toNat = (p.expect + 65536 - back) % 65536 → ∃ t y, Steps i s t ∧ (t.getPort port).out = p.out ++ [y] ∧
        y.kind = .idle ∧ (t.getPort port).expect = p.expect ∧ t.flight = s.flight) ∧
      (next → ¬ authentic_ →
        (failures < 2 → ∃ t y, Steps i s t ∧ (t.getPort port).out = p.out ++ [y] ∧ y.kind = .retry ∧ (t.getPort port).expect = p.expect ∧
          tabGet 0 (t.getPort port).fails f.lseq.toNat = failures + 1 ∧ t.flight = s.flight) ∧
        (failures = 2 → p.resync = true → ∃ t y, Steps i s t ∧ (t.getPort port).out = p.out ++ [y] ∧ y.kind = .retry ∧
          (t.getPort port).resync = true ∧ (t.getPort port).expect = p.expect ∧ t.flight = s.flight) ∧
        (failures = 2 → p.resync = false → (p.tx p.txSlot).data < 2 ^ 32 → ∃ t x y, Steps i s t ∧ (t.getPort port).out = p.out ++ [x, y] ∧ x.kind = .retry ∧ y.kind = .marker ∧ y.resync = true ∧
          (t.getPort port).resync = true ∧ (t.getPort port).expect = p.expect ∧ t.flight = s.flight) ∧
        (3 ≤ failures → ∃ t, Steps i s t ∧ (t.getPort port).lstate = .down)) ∧
      (∀ ahead, authentic_ → 1 ≤ ahead → ahead < 32768 → f.lseq.toNat = (p.expect + ahead) % 65536 → ∃ t y, Steps i s t ∧
        (t.getPort port).out = p.out ++ [y] ∧ y.kind = .retry ∧ (t.getPort port).expect = p.expect ∧ t.flight = s.flight)) ∧
    (f.kind = .marker → f.resync = false → authentic_ → next → ∃ t, Steps (.lanyardMarker port f) s t ∧ taken t ∧ moved t ∧
      (t.getPort port).rxSlot = !p.rxSlot ∧ (t.getPort port).rx (!p.rxSlot) = p.rx (!p.rxSlot) ∧
      (t.getPort port).rx p.rxSlot = (if p.assisted then p.rx p.rxSlot
        else { key := Config.nextKey (p.rx p.rxSlot).key, data := 0, ctl := 0 })) ∧
    (f.kind = .marker → f.resync = true → f.lseq.toNat ∈ p.resumed → authentic_ → next → ∃ t, Steps (.lanyardResyncMarker port f) s t ∧
      moved t ∧ taken t ∧ (t.getPort port).resumed = p.resumed.filter (fun x => decide (x ≠ f.lseq.toNat)) ∧ (t.getPort port).resend = p.resend) ∧
    (f.kind = .marker → f.resync = true → f.lseq.toNat ∉ p.resumed →
      (∀ back, 1 ≤ back → back ≤ 32768 → f.lseq.toNat ≠ (p.expect + 65536 - back) % 65536) →
      let agrees := verified_ ∧ (next → f.slot = p.rxSlot) ∧ resyncAgrees p f = true
      (¬ agrees → ∃ t, Steps (.lanyardResyncMarker port f) s t ∧ (t.getPort port).lstate = .down) ∧
      (agrees → (p.tx p.txSlot).data < 2 ^ 32 → ∃ t, Steps (.lanyardResyncMarker port f) s t ∧ (t.getPort port).resync = false ∧
        (t.getPort port).lstate = .up ∧ (next → moved t ∧ (t.getPort port).resumed = p.resumed) ∧
        (¬ next → (t.getPort port).expect = p.expect ∧ (t.getPort port).resumed = f.lseq.toNat :: p.resumed)))

/-- A Lanyard port's sending and receiving sides: each clause cites its rules. -/
def Obligations.Lanyard : Prop := Clauses.LanyardSending ∧ Clauses.LanyardReceiving
end
end

