-- ==== Sys2Proof/Laws/Table.lean ====
section
/-!
SUPPORT. Sparse tables and byte memories: reading after writing, and that every memory operation keeps the canonical form.
-/
namespace Sys2Proof.Machine

set_option Elab.async false

/-- A table reads back what was put at a key, and what it held elsewhere. -/
@[simp] theorem tabFind_tabPut {α : Type} (t : Tab α) (k j : Nat) (a : α) :
    tabFind (tabPut t k a) j = if k = j then some a else tabFind t j := by
  induction t with
  | nil => simp [tabPut, tabFind]
  | cons x r ih =>
    obtain ⟨i, b⟩ := x
    simp only [tabPut]
    split
    · simp [tabFind]
    · split
      · subst_vars; simp only [tabFind]; split <;> simp_all
      · simp only [tabFind, ih]; split
        · split <;> simp_all
        · rfl

@[simp] theorem tabGet_tabPut {α : Type} (d : α) (t : Tab α) (k j : Nat) (a : α) :
    tabGet d (tabPut t k a) j = if k = j then a else tabGet d t j := by
  simp only [tabGet, tabFind_tabPut]; split <;> rfl

/-- A table's keys strictly rise. -/
def Rising {α : Type} (t : Tab α) : Prop := (t.map fun x => x.1).Pairwise fun a b => a < b

theorem Rising.tail {α : Type} {x : Nat × α} {r : Tab α} (h : Rising (x :: r)) : Rising r := by
  simp only [Rising, List.map_cons, List.pairwise_cons] at h ⊢; exact h.2

theorem Rising.head {α : Type} {x : Nat × α} {r : Tab α} (h : Rising (x :: r)) : ∀ y ∈ r, x.1 < y.1 := by
  simp only [Rising, List.map_cons, List.pairwise_cons, List.mem_map, forall_exists_index, and_imp,
    forall_apply_eq_imp_iff₂] at h
  exact h.1

/-- The keys of a table with a key put in it. -/
theorem mem_tabPut {α : Type} {t : Tab α} {k : Nat} {a : α} {y : Nat × α} (h : y ∈ tabPut t k a) : y = (k, a) ∨ y ∈ t := by
  induction t with
  | nil => simpa [tabPut] using h
  | cons x r ih =>
    simp only [tabPut] at h
    split at h
    · simpa using h
    · split at h
      · simp only [List.mem_cons] at h ⊢; tauto
      · simp only [List.mem_cons] at h ⊢
        rcases h with h | h
        · exact .inr (.inl h)
        · exact (ih h).imp_right .inr

theorem tabPut_rising {α : Type} {t : Tab α} (h : Rising t) (k : Nat) (a : α) : Rising (tabPut t k a) := by
  induction t with
  | nil => simp [tabPut, Rising]
  | cons x r ih =>
    have hx := h.head
    simp only [tabPut]
    split
    · rename_i hk
      simp only [Rising, List.map_cons, List.pairwise_cons, List.mem_cons, List.mem_map] at h ⊢
      refine ⟨?_, h⟩
      rintro y (rfl | ⟨z, hz, rfl⟩)
      · exact hk
      · exact hk.trans (hx z hz)
    · split
      · rename_i hk hj; subst hj
        simpa [Rising] using h
      · rename_i hk hj
        have := ih h.tail
        simp only [Rising, List.map_cons, List.pairwise_cons, List.mem_map, forall_exists_index, and_imp,
          forall_apply_eq_imp_iff₂] at this ⊢
        refine ⟨fun y hy => ?_, this⟩
        rcases mem_tabPut hy with rfl | hy
        · simp only; omega
        · exact hx y hy

theorem mem_tabErase {α : Type} {t : Tab α} {k : Nat} {y : Nat × α} (h : y ∈ tabErase t k) : y ∈ t := by
  induction t with
  | nil => simp [tabErase] at h
  | cons x r ih =>
    simp only [tabErase] at h
    split at h
    · exact List.mem_cons_of_mem _ h
    · simp only [List.mem_cons] at h ⊢; exact h.imp_right ih

theorem tabErase_rising {α : Type} {t : Tab α} (h : Rising t) (k : Nat) : Rising (tabErase t k) := by
  induction t with
  | nil => simp [tabErase, Rising]
  | cons x r ih =>
    simp only [tabErase]
    split
    · exact h.tail
    · have hx := h.head
      have := ih h.tail
      simp only [Rising, List.map_cons, List.pairwise_cons, List.mem_map, forall_exists_index, and_imp,
        forall_apply_eq_imp_iff₂] at this ⊢
      exact ⟨fun y hy => hx y (mem_tabErase hy), this⟩

theorem tabFind_none_of_lt {α : Type} {t : Tab α} {k : Nat} (h : ∀ y ∈ t, k < y.1) : tabFind t k = none := by
  induction t with
  | nil => rfl
  | cons x r ih =>
    have := h x (by simp)
    simp only [tabFind, if_neg (show ¬ x.1 = k by omega)]
    exact ih fun y hy => h y (by simp [hy])

/-- A rising table without a key. -/
theorem tabFind_tabErase {α : Type} {t : Tab α} (h : Rising t) (k j : Nat) :
    tabFind (tabErase t k) j = if k = j then none else tabFind t j := by
  induction t with
  | nil => simp [tabErase, tabFind]
  | cons x r ih =>
    simp only [tabErase]
    split
    · rename_i hk; subst hk
      split
      · rename_i hj; subst hj; exact tabFind_none_of_lt h.head
      · rename_i hj; simp [tabFind, hj]
    · rename_i hk
      simp only [tabFind, ih h.tail]
      split
      · rename_i hx; subst hx; simp [Ne.symm hk]
      · rfl

/-- Writing a byte inserts, replaces or removes its entry. -/
theorem memWfFrom_weaken {lo lo' : Option Nat} {m : Memory} (h : memWfFrom lo m = true)
    (hl : ∀ l, lo' = some l → ∃ k, lo = some k ∧ l ≤ k) : memWfFrom lo' m = true := by
  cases m with
  | nil => rfl
  | cons x r =>
    simp only [memWfFrom, Bool.and_eq_true] at h ⊢
    refine ⟨⟨?_, h.1.2⟩, h.2⟩
    cases lo' with
    | none => rfl
    | some l =>
      obtain ⟨k, rfl, hk⟩ := hl l rfl
      simp only [decide_eq_true_eq] at h ⊢
      omega

theorem memErase_wfFrom {lo : Option Nat} {m : Memory} (h : memWfFrom lo m = true) (a : Nat) : memWfFrom lo (memErase m a) = true := by
  induction m generalizing lo with
  | nil => rfl
  | cons x r ih =>
    simp only [memErase]
    simp only [memWfFrom, Bool.and_eq_true] at h
    split
    · refine memWfFrom_weaken h.2 fun l hl => ⟨_, rfl, ?_⟩
      subst hl; have := h.1.1; simp only [decide_eq_true_eq] at this; omega
    · simp only [memWfFrom, Bool.and_eq_true]; exact ⟨h.1, ih h.2⟩

theorem memInsert_wfFrom {lo : Option Nat} {m : Memory} {a : Nat} {b : Byte} (h : memWfFrom lo m = true) (hb : b ≠ memDefault)
    (hl : ∀ l, lo = some l → l < a) : memWfFrom lo (memInsert m a b) = true := by
  have low : ∀ lo : Option Nat, (∀ l, lo = some l → l < a) → (match lo with | none => true | some l => decide (l < a)) = true := by
    intro lo hl; cases lo with
    | none => rfl
    | some l => simpa using hl l rfl
  induction m generalizing lo with
  | nil =>
    simp only [memInsert, memWfFrom, Bool.and_eq_true, decide_eq_true_eq, and_true]
    exact ⟨low lo hl, hb⟩
  | cons x r ih =>
    simp only [memInsert]
    have h' := h
    simp only [memWfFrom, Bool.and_eq_true] at h'
    split
    · rename_i ha
      simp only [memWfFrom, Bool.and_eq_true, decide_eq_true_eq]
      exact ⟨⟨low lo hl, hb⟩, ⟨ha, by simpa using h'.1.2⟩, h'.2⟩
    · split
      · rename_i _ ha; subst ha
        simp only [memWfFrom, Bool.and_eq_true, decide_eq_true_eq]
        exact ⟨⟨h'.1.1, hb⟩, h'.2⟩
      · simp only [memWfFrom, Bool.and_eq_true]
        exact ⟨h'.1, ih h'.2 (by rintro l ⟨⟩; omega)⟩

/-- A byte written keeps the canonical form. -/
theorem memPut_wf {m : Memory} (h : m.wf = true) (a : Nat) (b : Byte) : (memPut m a b).wf = true := by
  simp only [memPut, Memory.wf] at *
  split
  · exact memErase_wfFrom h a
  · exact memInsert_wfFrom h ‹_› (by simp)

theorem memPutBytes_wf {m : Memory} (h : m.wf = true) (a : Nat) (bs : List Byte) : (memPutBytes m a bs).wf = true := by
  induction bs generalizing m a with
  | nil => exact h
  | cons b r ih => exact ih (memPut_wf h a b) (a + 1)

theorem foldl_memPut_wf {m : Memory} (h : m.wf = true) (f : Nat → Nat) (g : Nat → Byte) (l : List Nat) :
    (l.foldl (fun acc i => memPut acc (f i) (g i)) m).wf = true := by
  induction l generalizing m with
  | nil => exact h
  | cons x r ih => exact ih (memPut_wf h _ _)

theorem memPutLine_wf {m : Memory} (h : m.wf = true) (pl : Nat) (d : LineBits) : (memPutLine m pl d).wf = true :=
  foldl_memPut_wf h _ _ _

theorem memGet_memInsert (m : Memory) (a j : Nat) (b : Byte) : memGet (memInsert m a b) j = if a = j then b else memGet m j := by
  induction m with
  | nil => simp only [memInsert, memGet]; split <;> simp
  | cons x r ih =>
    simp only [memInsert]
    split
    · rename_i ha
      simp only [memGet]
      split
      · rfl
      · rename_i hj
        split
        · rename_i hlt
          rw [if_neg (by omega), if_pos (by omega)]
        · rfl
    · split
      · rename_i _ hx; subst hx; simp only [memGet]; split <;> rfl
      · rename_i h1 h2
        simp only [memGet, ih]
        by_cases hx : x.1 = j
        · subst hx; simp [show a ≠ x.1 by omega]
        · simp only [hx, if_false]
          by_cases hlt : j < x.1
          · simp [hlt, show a ≠ j by omega]
          · simp [hlt]

theorem memGet_of_wfFrom {lo : Option Nat} {m : Memory} {j : Nat} (h : memWfFrom lo m = true) (hl : ∃ l, lo = some l ∧ j ≤ l) :
    memGet m j = memDefault := by
  cases m with
  | nil => rfl
  | cons x r =>
    obtain ⟨l, rfl, hj⟩ := hl
    simp only [memWfFrom, Bool.and_eq_true, decide_eq_true_eq] at h
    have := h.1.1
    simp only [memGet, if_neg (show ¬ x.1 = j by omega), if_pos (show j < x.1 by omega)]

theorem memGet_memErase {lo : Option Nat} {m : Memory} (h : memWfFrom lo m = true) (a j : Nat) :
    memGet (memErase m a) j = if a = j then memDefault else memGet m j := by
  induction m generalizing lo with
  | nil => simp [memErase, memGet]
  | cons x r ih =>
    have h' := h
    simp only [memWfFrom, Bool.and_eq_true] at h'
    simp only [memErase]
    split
    · rename_i hx; subst hx
      by_cases hj : x.1 = j
      · subst hj; simp [memGet_of_wfFrom h'.2 ⟨_, rfl, le_refl _⟩]
      · simp only [hj, if_false, memGet]
        split
        · exact memGet_of_wfFrom h'.2 ⟨_, rfl, by omega⟩
        · rfl
    · rename_i hx
      simp only [memGet, ih h'.2]
      by_cases hj : x.1 = j
      · subst hj; simp [Ne.symm hx]
      · simp only [hj, if_false]
        split
        · split <;> rfl
        · rfl

/-- A canonical memory reads back the byte written, and everywhere else what it held. -/
theorem memGet_memPut {m : Memory} (h : m.wf = true) (a j : Nat) (b : Byte) :
    memGet (memPut m a b) j = if a = j then b else memGet m j := by
  simp only [memPut]
  split
  · rename_i hb; subst hb; exact memGet_memErase h a j
  · exact memGet_memInsert m a j b

theorem memGet_memPutBytes {m : Memory} (h : m.wf = true) (a j : Nat) (bs : List Byte) :
    memGet (memPutBytes m a bs) j = if a ≤ j ∧ j < a + bs.length then bs.getD (j - a) 0 else memGet m j := by
  induction bs generalizing m a with
  | nil => simp [memPutBytes]
  | cons b r ih =>
    simp only [memPutBytes, ih (memPut_wf h a b), memGet_memPut h, List.length_cons]
    by_cases h1 : a = j
    · subst h1; simp
    · by_cases h2 : a + 1 ≤ j ∧ j < a + 1 + r.length
      · rw [if_pos h2, if_pos (by omega), show j - a = (j - (a + 1)) + 1 by omega]; simp
      · rw [if_neg h2, if_neg h1, if_neg (by omega)]

end Sys2Proof.Machine
end

