-- ==== Sys2Proof/Laws/State.lean ====
section
/-!
SUPPORT. What each update of the state leaves alone: one lemma for each field and update, and reading after writing.
-/
namespace Sys2Proof.Machine.State

set_option Elab.async false

section
variable (s : State) (r : SReg) (w : Word)

@[simp] theorem setS_core : (s.setS r w).core = s.core := by unfold setS; split <;> rfl
@[simp] theorem setS_slot : (s.setS r w).slot = s.slot := by unfold setS; split <;> rfl
@[simp] theorem setS_live : (s.setS r w).live = s.live := by unfold setS; split <;> rfl
@[simp] theorem setS_acts : (s.setS r w).acts = s.acts := by unfold setS; split <;> rfl
@[simp] theorem setS_cores : (s.setS r w).cores = s.cores := by unfold setS; split <;> rfl
@[simp] theorem setS_clusters : (s.setS r w).clusters = s.clusters := by unfold setS; split <;> rfl
@[simp] theorem setS_doms : (s.setS r w).doms = s.doms := by unfold setS; split <;> rfl
@[simp] theorem setS_dies : (s.setS r w).dies = s.dies := by unfold setS; split <;> rfl
@[simp] theorem setS_mem : (s.setS r w).mem = s.mem := by unfold setS; split <;> rfl
@[simp] theorem setS_sealLine : (s.setS r w).sealLine = s.sealLine := by unfold setS; split <;> rfl
@[simp] theorem setS_sealFrame : (s.setS r w).sealFrame = s.sealFrame := by unfold setS; split <;> rfl
@[simp] theorem setS_l2 : (s.setS r w).l2 = s.l2 := by unfold setS; split <;> rfl
@[simp] theorem setS_stamps : (s.setS r w).stamps = s.stamps := by unfold setS; split <;> rfl
@[simp] theorem setS_waymask : (s.setS r w).waymask = s.waymask := by unfold setS; split <;> rfl
@[simp] theorem setS_tlb : (s.setS r w).tlb = s.tlb := by unfold setS; split <;> rfl
@[simp] theorem setS_walk : (s.setS r w).walk = s.walk := by unfold setS; split <;> rfl
@[simp] theorem setS_frames : (s.setS r w).frames = s.frames := by unfold setS; split <;> rfl
@[simp] theorem setS_scrubs : (s.setS r w).scrubs = s.scrubs := by unfold setS; split <;> rfl
@[simp] theorem setS_ext : (s.setS r w).ext = s.ext := by unfold setS; split <;> rfl
@[simp] theorem setS_heldWrites : (s.setS r w).heldWrites = s.heldWrites := by unfold setS; split <;> rfl
@[simp] theorem setS_lost : (s.setS r w).lost = s.lost := by unfold setS; split <;> rfl
@[simp] theorem setS_missSent : (s.setS r w).missSent = s.missSent := by unfold setS; split <;> rfl
@[simp] theorem setS_hostTab : (s.setS r w).hostTab = s.hostTab := by unfold setS; split <;> rfl
@[simp] theorem setS_flight : (s.setS r w).flight = s.flight := by unfold setS; split <;> rfl
@[simp] theorem setS_waiting : (s.setS r w).waiting = s.waiting := by unfold setS; split <;> rfl
@[simp] theorem setS_charges : (s.setS r w).charges = s.charges := by unfold setS; split <;> rfl
@[simp] theorem setS_device : (s.setS r w).device = s.device := by unfold setS; split <;> rfl
@[simp] theorem setS_costs : (s.setS r w).costs = s.costs := by unfold setS; split <;> rfl
@[simp] theorem setS_steals : (s.setS r w).steals = s.steals := by unfold setS; split <;> rfl
@[simp] theorem setS_conts : (s.setS r w).conts = s.conts := by unfold setS; split <;> rfl
@[simp] theorem setS_defers : (s.setS r w).defers = s.defers := by unfold setS; split <;> rfl
@[simp] theorem setS_requests : (s.setS r w).requests = s.requests := by unfold setS; split <;> rfl
@[simp] theorem setS_commands : (s.setS r w).commands = s.commands := by unfold setS; split <;> rfl
@[simp] theorem setS_grants : (s.setS r w).grants = s.grants := by unfold setS; split <;> rfl
@[simp] theorem setS_ms : (s.setS r w).ms = s.ms := by unfold setS; split <;> rfl
@[simp] theorem setS_log : (s.setS r w).log = s.log := by unfold setS; split <;> rfl
@[simp] theorem setS_logCount : (s.setS r w).logCount = s.logCount := by unfold setS; split <;> rfl
@[simp] theorem setS_logh : (s.setS r w).logh = s.logh := by unfold setS; split <;> rfl
@[simp] theorem setS_evidence : (s.setS r w).evidence = s.evidence := by unfold setS; split <;> rfl
@[simp] theorem setS_receipts : (s.setS r w).receipts = s.receipts := by unfold setS; split <;> rfl
@[simp] theorem setS_fns : (s.setS r w).fns = s.fns := by unfold setS; split <;> rfl
@[simp] theorem setS_hostOut : (s.setS r w).hostOut = s.hostOut := by unfold setS; split <;> rfl
@[simp] theorem setS_msix : (s.setS r w).msix = s.msix := by unfold setS; split <;> rfl
@[simp] theorem setS_cxlOut : (s.setS r w).cxlOut = s.cxlOut := by unfold setS; split <;> rfl
@[simp] theorem setS_ports : (s.setS r w).ports = s.ports := by unfold setS; split <;> rfl
@[simp] theorem setS_lanIngress : (s.setS r w).lanIngress = s.lanIngress := by unfold setS; split <;> rfl
@[simp] theorem setS_images : (s.setS r w).images = s.images := by unfold setS; split <;> rfl
@[simp] theorem setS_stage : (s.setS r w).stage = s.stage := by unfold setS; split <;> rfl
@[simp] theorem setS_err : (s.setS r w).err = s.err := by unfold setS; split <;> rfl
@[simp] theorem setS_diemask : (s.setS r w).diemask = s.diemask := by unfold setS; split <;> rfl
@[simp] theorem setS_plimit : (s.setS r w).plimit = s.plimit := by unfold setS; split <;> rfl
@[simp] theorem setS_pwr : (s.setS r w).pwr = s.pwr := by unfold setS; split <;> rfl
@[simp] theorem setS_cxlTier : (s.setS r w).cxlTier = s.cxlTier := by unfold setS; split <;> rfl
@[simp] theorem setS_inReset : (s.setS r w).inReset = s.inReset := by unfold setS; split <;> rfl
@[simp] theorem setS_time : (s.setS r w).time = s.time := by unfold setS; split <;> rfl
@[simp] theorem setS_serial : (s.setS r w).serial = s.serial := by unfold setS; split <;> rfl
@[simp] theorem setS_issues : (s.setS r w).issues = s.issues := by unfold setS; split <;> rfl
@[simp] theorem setS_free : (s.setS r w).free = s.free := by unfold setS; split <;> rfl
@[simp] theorem setS_agenda : (s.setS r w).agenda = s.agenda := by unfold setS; split <;> rfl

end

section
variable (s : State) (r : VNum) (x : VReg)

@[simp] theorem setV_core : (s.setV r x).core = s.core := rfl
@[simp] theorem setV_slot : (s.setV r x).slot = s.slot := rfl
@[simp] theorem setV_live : (s.setV r x).live = s.live := rfl
@[simp] theorem setV_acts : (s.setV r x).acts = s.acts := rfl
@[simp] theorem setV_cores : (s.setV r x).cores = s.cores := rfl
@[simp] theorem setV_clusters : (s.setV r x).clusters = s.clusters := rfl
@[simp] theorem setV_doms : (s.setV r x).doms = s.doms := rfl
@[simp] theorem setV_dies : (s.setV r x).dies = s.dies := rfl
@[simp] theorem setV_mem : (s.setV r x).mem = s.mem := rfl
@[simp] theorem setV_sealLine : (s.setV r x).sealLine = s.sealLine := rfl
@[simp] theorem setV_sealFrame : (s.setV r x).sealFrame = s.sealFrame := rfl
@[simp] theorem setV_l2 : (s.setV r x).l2 = s.l2 := rfl
@[simp] theorem setV_stamps : (s.setV r x).stamps = s.stamps := rfl
@[simp] theorem setV_waymask : (s.setV r x).waymask = s.waymask := rfl
@[simp] theorem setV_tlb : (s.setV r x).tlb = s.tlb := rfl
@[simp] theorem setV_walk : (s.setV r x).walk = s.walk := rfl
@[simp] theorem setV_frames : (s.setV r x).frames = s.frames := rfl
@[simp] theorem setV_scrubs : (s.setV r x).scrubs = s.scrubs := rfl
@[simp] theorem setV_ext : (s.setV r x).ext = s.ext := rfl
@[simp] theorem setV_heldWrites : (s.setV r x).heldWrites = s.heldWrites := rfl
@[simp] theorem setV_lost : (s.setV r x).lost = s.lost := rfl
@[simp] theorem setV_missSent : (s.setV r x).missSent = s.missSent := rfl
@[simp] theorem setV_hostTab : (s.setV r x).hostTab = s.hostTab := rfl
@[simp] theorem setV_flight : (s.setV r x).flight = s.flight := rfl
@[simp] theorem setV_waiting : (s.setV r x).waiting = s.waiting := rfl
@[simp] theorem setV_charges : (s.setV r x).charges = s.charges := rfl
@[simp] theorem setV_device : (s.setV r x).device = s.device := rfl
@[simp] theorem setV_costs : (s.setV r x).costs = s.costs := rfl
@[simp] theorem setV_steals : (s.setV r x).steals = s.steals := rfl
@[simp] theorem setV_conts : (s.setV r x).conts = s.conts := rfl
@[simp] theorem setV_defers : (s.setV r x).defers = s.defers := rfl
@[simp] theorem setV_requests : (s.setV r x).requests = s.requests := rfl
@[simp] theorem setV_commands : (s.setV r x).commands = s.commands := rfl
@[simp] theorem setV_grants : (s.setV r x).grants = s.grants := rfl
@[simp] theorem setV_ms : (s.setV r x).ms = s.ms := rfl
@[simp] theorem setV_log : (s.setV r x).log = s.log := rfl
@[simp] theorem setV_logCount : (s.setV r x).logCount = s.logCount := rfl
@[simp] theorem setV_logh : (s.setV r x).logh = s.logh := rfl
@[simp] theorem setV_evidence : (s.setV r x).evidence = s.evidence := rfl
@[simp] theorem setV_receipts : (s.setV r x).receipts = s.receipts := rfl
@[simp] theorem setV_fns : (s.setV r x).fns = s.fns := rfl
@[simp] theorem setV_hostOut : (s.setV r x).hostOut = s.hostOut := rfl
@[simp] theorem setV_msix : (s.setV r x).msix = s.msix := rfl
@[simp] theorem setV_cxlOut : (s.setV r x).cxlOut = s.cxlOut := rfl
@[simp] theorem setV_ports : (s.setV r x).ports = s.ports := rfl
@[simp] theorem setV_lanIngress : (s.setV r x).lanIngress = s.lanIngress := rfl
@[simp] theorem setV_images : (s.setV r x).images = s.images := rfl
@[simp] theorem setV_stage : (s.setV r x).stage = s.stage := rfl
@[simp] theorem setV_err : (s.setV r x).err = s.err := rfl
@[simp] theorem setV_diemask : (s.setV r x).diemask = s.diemask := rfl
@[simp] theorem setV_plimit : (s.setV r x).plimit = s.plimit := rfl
@[simp] theorem setV_pwr : (s.setV r x).pwr = s.pwr := rfl
@[simp] theorem setV_cxlTier : (s.setV r x).cxlTier = s.cxlTier := rfl
@[simp] theorem setV_inReset : (s.setV r x).inReset = s.inReset := rfl
@[simp] theorem setV_time : (s.setV r x).time = s.time := rfl
@[simp] theorem setV_serial : (s.setV r x).serial = s.serial := rfl
@[simp] theorem setV_issues : (s.setV r x).issues = s.issues := rfl
@[simp] theorem setV_free : (s.setV r x).free = s.free := rfl
@[simp] theorem setV_agenda : (s.setV r x).agenda = s.agenda := rfl

end

section
variable (s : State) (r : PNum) (x : BitVec 32)

@[simp] theorem setP_core : (s.setP r x).core = s.core := by unfold setP; split <;> rfl
@[simp] theorem setP_slot : (s.setP r x).slot = s.slot := by unfold setP; split <;> rfl
@[simp] theorem setP_live : (s.setP r x).live = s.live := by unfold setP; split <;> rfl
@[simp] theorem setP_acts : (s.setP r x).acts = s.acts := by unfold setP; split <;> rfl
@[simp] theorem setP_cores : (s.setP r x).cores = s.cores := by unfold setP; split <;> rfl
@[simp] theorem setP_clusters : (s.setP r x).clusters = s.clusters := by unfold setP; split <;> rfl
@[simp] theorem setP_doms : (s.setP r x).doms = s.doms := by unfold setP; split <;> rfl
@[simp] theorem setP_dies : (s.setP r x).dies = s.dies := by unfold setP; split <;> rfl
@[simp] theorem setP_mem : (s.setP r x).mem = s.mem := by unfold setP; split <;> rfl
@[simp] theorem setP_sealLine : (s.setP r x).sealLine = s.sealLine := by unfold setP; split <;> rfl
@[simp] theorem setP_sealFrame : (s.setP r x).sealFrame = s.sealFrame := by unfold setP; split <;> rfl
@[simp] theorem setP_l2 : (s.setP r x).l2 = s.l2 := by unfold setP; split <;> rfl
@[simp] theorem setP_stamps : (s.setP r x).stamps = s.stamps := by unfold setP; split <;> rfl
@[simp] theorem setP_waymask : (s.setP r x).waymask = s.waymask := by unfold setP; split <;> rfl
@[simp] theorem setP_tlb : (s.setP r x).tlb = s.tlb := by unfold setP; split <;> rfl
@[simp] theorem setP_walk : (s.setP r x).walk = s.walk := by unfold setP; split <;> rfl
@[simp] theorem setP_frames : (s.setP r x).frames = s.frames := by unfold setP; split <;> rfl
@[simp] theorem setP_scrubs : (s.setP r x).scrubs = s.scrubs := by unfold setP; split <;> rfl
@[simp] theorem setP_ext : (s.setP r x).ext = s.ext := by unfold setP; split <;> rfl
@[simp] theorem setP_heldWrites : (s.setP r x).heldWrites = s.heldWrites := by unfold setP; split <;> rfl
@[simp] theorem setP_lost : (s.setP r x).lost = s.lost := by unfold setP; split <;> rfl
@[simp] theorem setP_missSent : (s.setP r x).missSent = s.missSent := by unfold setP; split <;> rfl
@[simp] theorem setP_hostTab : (s.setP r x).hostTab = s.hostTab := by unfold setP; split <;> rfl
@[simp] theorem setP_flight : (s.setP r x).flight = s.flight := by unfold setP; split <;> rfl
@[simp] theorem setP_waiting : (s.setP r x).waiting = s.waiting := by unfold setP; split <;> rfl
@[simp] theorem setP_charges : (s.setP r x).charges = s.charges := by unfold setP; split <;> rfl
@[simp] theorem setP_device : (s.setP r x).device = s.device := by unfold setP; split <;> rfl
@[simp] theorem setP_costs : (s.setP r x).costs = s.costs := by unfold setP; split <;> rfl
@[simp] theorem setP_steals : (s.setP r x).steals = s.steals := by unfold setP; split <;> rfl
@[simp] theorem setP_conts : (s.setP r x).conts = s.conts := by unfold setP; split <;> rfl
@[simp] theorem setP_defers : (s.setP r x).defers = s.defers := by unfold setP; split <;> rfl
@[simp] theorem setP_requests : (s.setP r x).requests = s.requests := by unfold setP; split <;> rfl
@[simp] theorem setP_commands : (s.setP r x).commands = s.commands := by unfold setP; split <;> rfl
@[simp] theorem setP_grants : (s.setP r x).grants = s.grants := by unfold setP; split <;> rfl
@[simp] theorem setP_ms : (s.setP r x).ms = s.ms := by unfold setP; split <;> rfl
@[simp] theorem setP_log : (s.setP r x).log = s.log := by unfold setP; split <;> rfl
@[simp] theorem setP_logCount : (s.setP r x).logCount = s.logCount := by unfold setP; split <;> rfl
@[simp] theorem setP_logh : (s.setP r x).logh = s.logh := by unfold setP; split <;> rfl
@[simp] theorem setP_evidence : (s.setP r x).evidence = s.evidence := by unfold setP; split <;> rfl
@[simp] theorem setP_receipts : (s.setP r x).receipts = s.receipts := by unfold setP; split <;> rfl
@[simp] theorem setP_fns : (s.setP r x).fns = s.fns := by unfold setP; split <;> rfl
@[simp] theorem setP_hostOut : (s.setP r x).hostOut = s.hostOut := by unfold setP; split <;> rfl
@[simp] theorem setP_msix : (s.setP r x).msix = s.msix := by unfold setP; split <;> rfl
@[simp] theorem setP_cxlOut : (s.setP r x).cxlOut = s.cxlOut := by unfold setP; split <;> rfl
@[simp] theorem setP_ports : (s.setP r x).ports = s.ports := by unfold setP; split <;> rfl
@[simp] theorem setP_lanIngress : (s.setP r x).lanIngress = s.lanIngress := by unfold setP; split <;> rfl
@[simp] theorem setP_images : (s.setP r x).images = s.images := by unfold setP; split <;> rfl
@[simp] theorem setP_stage : (s.setP r x).stage = s.stage := by unfold setP; split <;> rfl
@[simp] theorem setP_err : (s.setP r x).err = s.err := by unfold setP; split <;> rfl
@[simp] theorem setP_diemask : (s.setP r x).diemask = s.diemask := by unfold setP; split <;> rfl
@[simp] theorem setP_plimit : (s.setP r x).plimit = s.plimit := by unfold setP; split <;> rfl
@[simp] theorem setP_pwr : (s.setP r x).pwr = s.pwr := by unfold setP; split <;> rfl
@[simp] theorem setP_cxlTier : (s.setP r x).cxlTier = s.cxlTier := by unfold setP; split <;> rfl
@[simp] theorem setP_inReset : (s.setP r x).inReset = s.inReset := by unfold setP; split <;> rfl
@[simp] theorem setP_time : (s.setP r x).time = s.time := by unfold setP; split <;> rfl
@[simp] theorem setP_serial : (s.setP r x).serial = s.serial := by unfold setP; split <;> rfl
@[simp] theorem setP_issues : (s.setP r x).issues = s.issues := by unfold setP; split <;> rfl
@[simp] theorem setP_free : (s.setP r x).free = s.free := by unfold setP; split <;> rfl
@[simp] theorem setP_agenda : (s.setP r x).agenda = s.agenda := by unfold setP; split <;> rfl

end

section
variable (s : State) (f : Regs → Regs)

@[simp] theorem modRegs_core : (s.modRegs f).core = s.core := rfl
@[simp] theorem modRegs_slot : (s.modRegs f).slot = s.slot := rfl
@[simp] theorem modRegs_live : (s.modRegs f).live = s.live := rfl
@[simp] theorem modRegs_acts : (s.modRegs f).acts = s.acts := rfl
@[simp] theorem modRegs_cores : (s.modRegs f).cores = s.cores := rfl
@[simp] theorem modRegs_clusters : (s.modRegs f).clusters = s.clusters := rfl
@[simp] theorem modRegs_doms : (s.modRegs f).doms = s.doms := rfl
@[simp] theorem modRegs_dies : (s.modRegs f).dies = s.dies := rfl
@[simp] theorem modRegs_mem : (s.modRegs f).mem = s.mem := rfl
@[simp] theorem modRegs_sealLine : (s.modRegs f).sealLine = s.sealLine := rfl
@[simp] theorem modRegs_sealFrame : (s.modRegs f).sealFrame = s.sealFrame := rfl
@[simp] theorem modRegs_l2 : (s.modRegs f).l2 = s.l2 := rfl
@[simp] theorem modRegs_stamps : (s.modRegs f).stamps = s.stamps := rfl
@[simp] theorem modRegs_waymask : (s.modRegs f).waymask = s.waymask := rfl
@[simp] theorem modRegs_tlb : (s.modRegs f).tlb = s.tlb := rfl
@[simp] theorem modRegs_walk : (s.modRegs f).walk = s.walk := rfl
@[simp] theorem modRegs_frames : (s.modRegs f).frames = s.frames := rfl
@[simp] theorem modRegs_scrubs : (s.modRegs f).scrubs = s.scrubs := rfl
@[simp] theorem modRegs_ext : (s.modRegs f).ext = s.ext := rfl
@[simp] theorem modRegs_heldWrites : (s.modRegs f).heldWrites = s.heldWrites := rfl
@[simp] theorem modRegs_lost : (s.modRegs f).lost = s.lost := rfl
@[simp] theorem modRegs_missSent : (s.modRegs f).missSent = s.missSent := rfl
@[simp] theorem modRegs_hostTab : (s.modRegs f).hostTab = s.hostTab := rfl
@[simp] theorem modRegs_flight : (s.modRegs f).flight = s.flight := rfl
@[simp] theorem modRegs_waiting : (s.modRegs f).waiting = s.waiting := rfl
@[simp] theorem modRegs_charges : (s.modRegs f).charges = s.charges := rfl
@[simp] theorem modRegs_device : (s.modRegs f).device = s.device := rfl
@[simp] theorem modRegs_costs : (s.modRegs f).costs = s.costs := rfl
@[simp] theorem modRegs_steals : (s.modRegs f).steals = s.steals := rfl
@[simp] theorem modRegs_conts : (s.modRegs f).conts = s.conts := rfl
@[simp] theorem modRegs_defers : (s.modRegs f).defers = s.defers := rfl
@[simp] theorem modRegs_requests : (s.modRegs f).requests = s.requests := rfl
@[simp] theorem modRegs_commands : (s.modRegs f).commands = s.commands := rfl
@[simp] theorem modRegs_grants : (s.modRegs f).grants = s.grants := rfl
@[simp] theorem modRegs_ms : (s.modRegs f).ms = s.ms := rfl
@[simp] theorem modRegs_log : (s.modRegs f).log = s.log := rfl
@[simp] theorem modRegs_logCount : (s.modRegs f).logCount = s.logCount := rfl
@[simp] theorem modRegs_logh : (s.modRegs f).logh = s.logh := rfl
@[simp] theorem modRegs_evidence : (s.modRegs f).evidence = s.evidence := rfl
@[simp] theorem modRegs_receipts : (s.modRegs f).receipts = s.receipts := rfl
@[simp] theorem modRegs_fns : (s.modRegs f).fns = s.fns := rfl
@[simp] theorem modRegs_hostOut : (s.modRegs f).hostOut = s.hostOut := rfl
@[simp] theorem modRegs_msix : (s.modRegs f).msix = s.msix := rfl
@[simp] theorem modRegs_cxlOut : (s.modRegs f).cxlOut = s.cxlOut := rfl
@[simp] theorem modRegs_ports : (s.modRegs f).ports = s.ports := rfl
@[simp] theorem modRegs_lanIngress : (s.modRegs f).lanIngress = s.lanIngress := rfl
@[simp] theorem modRegs_images : (s.modRegs f).images = s.images := rfl
@[simp] theorem modRegs_stage : (s.modRegs f).stage = s.stage := rfl
@[simp] theorem modRegs_err : (s.modRegs f).err = s.err := rfl
@[simp] theorem modRegs_diemask : (s.modRegs f).diemask = s.diemask := rfl
@[simp] theorem modRegs_plimit : (s.modRegs f).plimit = s.plimit := rfl
@[simp] theorem modRegs_pwr : (s.modRegs f).pwr = s.pwr := rfl
@[simp] theorem modRegs_cxlTier : (s.modRegs f).cxlTier = s.cxlTier := rfl
@[simp] theorem modRegs_inReset : (s.modRegs f).inReset = s.inReset := rfl
@[simp] theorem modRegs_time : (s.modRegs f).time = s.time := rfl
@[simp] theorem modRegs_serial : (s.modRegs f).serial = s.serial := rfl
@[simp] theorem modRegs_issues : (s.modRegs f).issues = s.issues := rfl
@[simp] theorem modRegs_free : (s.modRegs f).free = s.free := rfl
@[simp] theorem modRegs_agenda : (s.modRegs f).agenda = s.agenda := rfl

end

section
variable (s : State) (c k : Nat) (a : Act)

@[simp] theorem putAct_core : (s.putAct c k a).core = s.core := by unfold putAct; split <;> rfl
@[simp] theorem putAct_slot : (s.putAct c k a).slot = s.slot := by unfold putAct; split <;> rfl
@[simp] theorem putAct_live : (s.putAct c k a).live = s.live := by unfold putAct; split <;> rfl
@[simp] theorem putAct_cores : (s.putAct c k a).cores = s.cores := by unfold putAct; split <;> rfl
@[simp] theorem putAct_clusters : (s.putAct c k a).clusters = s.clusters := by unfold putAct; split <;> rfl
@[simp] theorem putAct_doms : (s.putAct c k a).doms = s.doms := by unfold putAct; split <;> rfl
@[simp] theorem putAct_dies : (s.putAct c k a).dies = s.dies := by unfold putAct; split <;> rfl
@[simp] theorem putAct_mem : (s.putAct c k a).mem = s.mem := by unfold putAct; split <;> rfl
@[simp] theorem putAct_sealLine : (s.putAct c k a).sealLine = s.sealLine := by unfold putAct; split <;> rfl
@[simp] theorem putAct_sealFrame : (s.putAct c k a).sealFrame = s.sealFrame := by unfold putAct; split <;> rfl
@[simp] theorem putAct_l2 : (s.putAct c k a).l2 = s.l2 := by unfold putAct; split <;> rfl
@[simp] theorem putAct_stamps : (s.putAct c k a).stamps = s.stamps := by unfold putAct; split <;> rfl
@[simp] theorem putAct_waymask : (s.putAct c k a).waymask = s.waymask := by unfold putAct; split <;> rfl
@[simp] theorem putAct_tlb : (s.putAct c k a).tlb = s.tlb := by unfold putAct; split <;> rfl
@[simp] theorem putAct_walk : (s.putAct c k a).walk = s.walk := by unfold putAct; split <;> rfl
@[simp] theorem putAct_frames : (s.putAct c k a).frames = s.frames := by unfold putAct; split <;> rfl
@[simp] theorem putAct_scrubs : (s.putAct c k a).scrubs = s.scrubs := by unfold putAct; split <;> rfl
@[simp] theorem putAct_ext : (s.putAct c k a).ext = s.ext := by unfold putAct; split <;> rfl
@[simp] theorem putAct_heldWrites : (s.putAct c k a).heldWrites = s.heldWrites := by unfold putAct; split <;> rfl
@[simp] theorem putAct_lost : (s.putAct c k a).lost = s.lost := by unfold putAct; split <;> rfl
@[simp] theorem putAct_missSent : (s.putAct c k a).missSent = s.missSent := by unfold putAct; split <;> rfl
@[simp] theorem putAct_hostTab : (s.putAct c k a).hostTab = s.hostTab := by unfold putAct; split <;> rfl
@[simp] theorem putAct_flight : (s.putAct c k a).flight = s.flight := by unfold putAct; split <;> rfl
@[simp] theorem putAct_waiting : (s.putAct c k a).waiting = s.waiting := by unfold putAct; split <;> rfl
@[simp] theorem putAct_charges : (s.putAct c k a).charges = s.charges := by unfold putAct; split <;> rfl
@[simp] theorem putAct_device : (s.putAct c k a).device = s.device := by unfold putAct; split <;> rfl
@[simp] theorem putAct_costs : (s.putAct c k a).costs = s.costs := by unfold putAct; split <;> rfl
@[simp] theorem putAct_steals : (s.putAct c k a).steals = s.steals := by unfold putAct; split <;> rfl
@[simp] theorem putAct_conts : (s.putAct c k a).conts = s.conts := by unfold putAct; split <;> rfl
@[simp] theorem putAct_defers : (s.putAct c k a).defers = s.defers := by unfold putAct; split <;> rfl
@[simp] theorem putAct_requests : (s.putAct c k a).requests = s.requests := by unfold putAct; split <;> rfl
@[simp] theorem putAct_commands : (s.putAct c k a).commands = s.commands := by unfold putAct; split <;> rfl
@[simp] theorem putAct_grants : (s.putAct c k a).grants = s.grants := by unfold putAct; split <;> rfl
@[simp] theorem putAct_ms : (s.putAct c k a).ms = s.ms := by unfold putAct; split <;> rfl
@[simp] theorem putAct_log : (s.putAct c k a).log = s.log := by unfold putAct; split <;> rfl
@[simp] theorem putAct_logCount : (s.putAct c k a).logCount = s.logCount := by unfold putAct; split <;> rfl
@[simp] theorem putAct_logh : (s.putAct c k a).logh = s.logh := by unfold putAct; split <;> rfl
@[simp] theorem putAct_evidence : (s.putAct c k a).evidence = s.evidence := by unfold putAct; split <;> rfl
@[simp] theorem putAct_receipts : (s.putAct c k a).receipts = s.receipts := by unfold putAct; split <;> rfl
@[simp] theorem putAct_fns : (s.putAct c k a).fns = s.fns := by unfold putAct; split <;> rfl
@[simp] theorem putAct_hostOut : (s.putAct c k a).hostOut = s.hostOut := by unfold putAct; split <;> rfl
@[simp] theorem putAct_msix : (s.putAct c k a).msix = s.msix := by unfold putAct; split <;> rfl
@[simp] theorem putAct_cxlOut : (s.putAct c k a).cxlOut = s.cxlOut := by unfold putAct; split <;> rfl
@[simp] theorem putAct_ports : (s.putAct c k a).ports = s.ports := by unfold putAct; split <;> rfl
@[simp] theorem putAct_lanIngress : (s.putAct c k a).lanIngress = s.lanIngress := by unfold putAct; split <;> rfl
@[simp] theorem putAct_images : (s.putAct c k a).images = s.images := by unfold putAct; split <;> rfl
@[simp] theorem putAct_stage : (s.putAct c k a).stage = s.stage := by unfold putAct; split <;> rfl
@[simp] theorem putAct_err : (s.putAct c k a).err = s.err := by unfold putAct; split <;> rfl
@[simp] theorem putAct_diemask : (s.putAct c k a).diemask = s.diemask := by unfold putAct; split <;> rfl
@[simp] theorem putAct_plimit : (s.putAct c k a).plimit = s.plimit := by unfold putAct; split <;> rfl
@[simp] theorem putAct_pwr : (s.putAct c k a).pwr = s.pwr := by unfold putAct; split <;> rfl
@[simp] theorem putAct_cxlTier : (s.putAct c k a).cxlTier = s.cxlTier := by unfold putAct; split <;> rfl
@[simp] theorem putAct_inReset : (s.putAct c k a).inReset = s.inReset := by unfold putAct; split <;> rfl
@[simp] theorem putAct_time : (s.putAct c k a).time = s.time := by unfold putAct; split <;> rfl
@[simp] theorem putAct_serial : (s.putAct c k a).serial = s.serial := by unfold putAct; split <;> rfl
@[simp] theorem putAct_issues : (s.putAct c k a).issues = s.issues := by unfold putAct; split <;> rfl
@[simp] theorem putAct_free : (s.putAct c k a).free = s.free := by unfold putAct; split <;> rfl
@[simp] theorem putAct_agenda : (s.putAct c k a).agenda = s.agenda := by unfold putAct; split <;> rfl

end

section
variable (s : State) (c : Nat) (x : Core)

@[simp] theorem setCore_act : (s.setCore c x).act = s.act := rfl
@[simp] theorem setCore_core : (s.setCore c x).core = s.core := rfl
@[simp] theorem setCore_slot : (s.setCore c x).slot = s.slot := rfl
@[simp] theorem setCore_live : (s.setCore c x).live = s.live := rfl
@[simp] theorem setCore_acts : (s.setCore c x).acts = s.acts := rfl
@[simp] theorem setCore_clusters : (s.setCore c x).clusters = s.clusters := rfl
@[simp] theorem setCore_doms : (s.setCore c x).doms = s.doms := rfl
@[simp] theorem setCore_dies : (s.setCore c x).dies = s.dies := rfl
@[simp] theorem setCore_mem : (s.setCore c x).mem = s.mem := rfl
@[simp] theorem setCore_sealLine : (s.setCore c x).sealLine = s.sealLine := rfl
@[simp] theorem setCore_sealFrame : (s.setCore c x).sealFrame = s.sealFrame := rfl
@[simp] theorem setCore_l2 : (s.setCore c x).l2 = s.l2 := rfl
@[simp] theorem setCore_stamps : (s.setCore c x).stamps = s.stamps := rfl
@[simp] theorem setCore_waymask : (s.setCore c x).waymask = s.waymask := rfl
@[simp] theorem setCore_tlb : (s.setCore c x).tlb = s.tlb := rfl
@[simp] theorem setCore_walk : (s.setCore c x).walk = s.walk := rfl
@[simp] theorem setCore_frames : (s.setCore c x).frames = s.frames := rfl
@[simp] theorem setCore_scrubs : (s.setCore c x).scrubs = s.scrubs := rfl
@[simp] theorem setCore_ext : (s.setCore c x).ext = s.ext := rfl
@[simp] theorem setCore_heldWrites : (s.setCore c x).heldWrites = s.heldWrites := rfl
@[simp] theorem setCore_lost : (s.setCore c x).lost = s.lost := rfl
@[simp] theorem setCore_missSent : (s.setCore c x).missSent = s.missSent := rfl
@[simp] theorem setCore_hostTab : (s.setCore c x).hostTab = s.hostTab := rfl
@[simp] theorem setCore_flight : (s.setCore c x).flight = s.flight := rfl
@[simp] theorem setCore_waiting : (s.setCore c x).waiting = s.waiting := rfl
@[simp] theorem setCore_charges : (s.setCore c x).charges = s.charges := rfl
@[simp] theorem setCore_device : (s.setCore c x).device = s.device := rfl
@[simp] theorem setCore_costs : (s.setCore c x).costs = s.costs := rfl
@[simp] theorem setCore_steals : (s.setCore c x).steals = s.steals := rfl
@[simp] theorem setCore_conts : (s.setCore c x).conts = s.conts := rfl
@[simp] theorem setCore_defers : (s.setCore c x).defers = s.defers := rfl
@[simp] theorem setCore_requests : (s.setCore c x).requests = s.requests := rfl
@[simp] theorem setCore_commands : (s.setCore c x).commands = s.commands := rfl
@[simp] theorem setCore_grants : (s.setCore c x).grants = s.grants := rfl
@[simp] theorem setCore_ms : (s.setCore c x).ms = s.ms := rfl
@[simp] theorem setCore_log : (s.setCore c x).log = s.log := rfl
@[simp] theorem setCore_logCount : (s.setCore c x).logCount = s.logCount := rfl
@[simp] theorem setCore_logh : (s.setCore c x).logh = s.logh := rfl
@[simp] theorem setCore_evidence : (s.setCore c x).evidence = s.evidence := rfl
@[simp] theorem setCore_receipts : (s.setCore c x).receipts = s.receipts := rfl
@[simp] theorem setCore_fns : (s.setCore c x).fns = s.fns := rfl
@[simp] theorem setCore_hostOut : (s.setCore c x).hostOut = s.hostOut := rfl
@[simp] theorem setCore_msix : (s.setCore c x).msix = s.msix := rfl
@[simp] theorem setCore_cxlOut : (s.setCore c x).cxlOut = s.cxlOut := rfl
@[simp] theorem setCore_ports : (s.setCore c x).ports = s.ports := rfl
@[simp] theorem setCore_lanIngress : (s.setCore c x).lanIngress = s.lanIngress := rfl
@[simp] theorem setCore_images : (s.setCore c x).images = s.images := rfl
@[simp] theorem setCore_stage : (s.setCore c x).stage = s.stage := rfl
@[simp] theorem setCore_err : (s.setCore c x).err = s.err := rfl
@[simp] theorem setCore_diemask : (s.setCore c x).diemask = s.diemask := rfl
@[simp] theorem setCore_plimit : (s.setCore c x).plimit = s.plimit := rfl
@[simp] theorem setCore_pwr : (s.setCore c x).pwr = s.pwr := rfl
@[simp] theorem setCore_cxlTier : (s.setCore c x).cxlTier = s.cxlTier := rfl
@[simp] theorem setCore_inReset : (s.setCore c x).inReset = s.inReset := rfl
@[simp] theorem setCore_time : (s.setCore c x).time = s.time := rfl
@[simp] theorem setCore_serial : (s.setCore c x).serial = s.serial := rfl
@[simp] theorem setCore_issues : (s.setCore c x).issues = s.issues := rfl
@[simp] theorem setCore_free : (s.setCore c x).free = s.free := rfl
@[simp] theorem setCore_agenda : (s.setCore c x).agenda = s.agenda := rfl

end

section
variable (s : State) (g : Nat) (x : Cluster)

@[simp] theorem setCluster_act : (s.setCluster g x).act = s.act := rfl
@[simp] theorem setCluster_core : (s.setCluster g x).core = s.core := rfl
@[simp] theorem setCluster_slot : (s.setCluster g x).slot = s.slot := rfl
@[simp] theorem setCluster_live : (s.setCluster g x).live = s.live := rfl
@[simp] theorem setCluster_acts : (s.setCluster g x).acts = s.acts := rfl
@[simp] theorem setCluster_cores : (s.setCluster g x).cores = s.cores := rfl
@[simp] theorem setCluster_doms : (s.setCluster g x).doms = s.doms := rfl
@[simp] theorem setCluster_dies : (s.setCluster g x).dies = s.dies := rfl
@[simp] theorem setCluster_mem : (s.setCluster g x).mem = s.mem := rfl
@[simp] theorem setCluster_sealLine : (s.setCluster g x).sealLine = s.sealLine := rfl
@[simp] theorem setCluster_sealFrame : (s.setCluster g x).sealFrame = s.sealFrame := rfl
@[simp] theorem setCluster_l2 : (s.setCluster g x).l2 = s.l2 := rfl
@[simp] theorem setCluster_stamps : (s.setCluster g x).stamps = s.stamps := rfl
@[simp] theorem setCluster_waymask : (s.setCluster g x).waymask = s.waymask := rfl
@[simp] theorem setCluster_tlb : (s.setCluster g x).tlb = s.tlb := rfl
@[simp] theorem setCluster_walk : (s.setCluster g x).walk = s.walk := rfl
@[simp] theorem setCluster_frames : (s.setCluster g x).frames = s.frames := rfl
@[simp] theorem setCluster_scrubs : (s.setCluster g x).scrubs = s.scrubs := rfl
@[simp] theorem setCluster_ext : (s.setCluster g x).ext = s.ext := rfl
@[simp] theorem setCluster_heldWrites : (s.setCluster g x).heldWrites = s.heldWrites := rfl
@[simp] theorem setCluster_lost : (s.setCluster g x).lost = s.lost := rfl
@[simp] theorem setCluster_missSent : (s.setCluster g x).missSent = s.missSent := rfl
@[simp] theorem setCluster_hostTab : (s.setCluster g x).hostTab = s.hostTab := rfl
@[simp] theorem setCluster_flight : (s.setCluster g x).flight = s.flight := rfl
@[simp] theorem setCluster_waiting : (s.setCluster g x).waiting = s.waiting := rfl
@[simp] theorem setCluster_charges : (s.setCluster g x).charges = s.charges := rfl
@[simp] theorem setCluster_device : (s.setCluster g x).device = s.device := rfl
@[simp] theorem setCluster_costs : (s.setCluster g x).costs = s.costs := rfl
@[simp] theorem setCluster_steals : (s.setCluster g x).steals = s.steals := rfl
@[simp] theorem setCluster_conts : (s.setCluster g x).conts = s.conts := rfl
@[simp] theorem setCluster_defers : (s.setCluster g x).defers = s.defers := rfl
@[simp] theorem setCluster_requests : (s.setCluster g x).requests = s.requests := rfl
@[simp] theorem setCluster_commands : (s.setCluster g x).commands = s.commands := rfl
@[simp] theorem setCluster_grants : (s.setCluster g x).grants = s.grants := rfl
@[simp] theorem setCluster_ms : (s.setCluster g x).ms = s.ms := rfl
@[simp] theorem setCluster_log : (s.setCluster g x).log = s.log := rfl
@[simp] theorem setCluster_logCount : (s.setCluster g x).logCount = s.logCount := rfl
@[simp] theorem setCluster_logh : (s.setCluster g x).logh = s.logh := rfl
@[simp] theorem setCluster_evidence : (s.setCluster g x).evidence = s.evidence := rfl
@[simp] theorem setCluster_receipts : (s.setCluster g x).receipts = s.receipts := rfl
@[simp] theorem setCluster_fns : (s.setCluster g x).fns = s.fns := rfl
@[simp] theorem setCluster_hostOut : (s.setCluster g x).hostOut = s.hostOut := rfl
@[simp] theorem setCluster_msix : (s.setCluster g x).msix = s.msix := rfl
@[simp] theorem setCluster_cxlOut : (s.setCluster g x).cxlOut = s.cxlOut := rfl
@[simp] theorem setCluster_ports : (s.setCluster g x).ports = s.ports := rfl
@[simp] theorem setCluster_lanIngress : (s.setCluster g x).lanIngress = s.lanIngress := rfl
@[simp] theorem setCluster_images : (s.setCluster g x).images = s.images := rfl
@[simp] theorem setCluster_stage : (s.setCluster g x).stage = s.stage := rfl
@[simp] theorem setCluster_err : (s.setCluster g x).err = s.err := rfl
@[simp] theorem setCluster_diemask : (s.setCluster g x).diemask = s.diemask := rfl
@[simp] theorem setCluster_plimit : (s.setCluster g x).plimit = s.plimit := rfl
@[simp] theorem setCluster_pwr : (s.setCluster g x).pwr = s.pwr := rfl
@[simp] theorem setCluster_cxlTier : (s.setCluster g x).cxlTier = s.cxlTier := rfl
@[simp] theorem setCluster_inReset : (s.setCluster g x).inReset = s.inReset := rfl
@[simp] theorem setCluster_time : (s.setCluster g x).time = s.time := rfl
@[simp] theorem setCluster_serial : (s.setCluster g x).serial = s.serial := rfl
@[simp] theorem setCluster_issues : (s.setCluster g x).issues = s.issues := rfl
@[simp] theorem setCluster_free : (s.setCluster g x).free = s.free := rfl
@[simp] theorem setCluster_agenda : (s.setCluster g x).agenda = s.agenda := rfl

end

section
variable (s : State) (d : Nat) (x : Dom)

@[simp] theorem setDom_act : (s.setDom d x).act = s.act := rfl
@[simp] theorem setDom_core : (s.setDom d x).core = s.core := rfl
@[simp] theorem setDom_slot : (s.setDom d x).slot = s.slot := rfl
@[simp] theorem setDom_live : (s.setDom d x).live = s.live := rfl
@[simp] theorem setDom_acts : (s.setDom d x).acts = s.acts := rfl
@[simp] theorem setDom_cores : (s.setDom d x).cores = s.cores := rfl
@[simp] theorem setDom_clusters : (s.setDom d x).clusters = s.clusters := rfl
@[simp] theorem setDom_dies : (s.setDom d x).dies = s.dies := rfl
@[simp] theorem setDom_mem : (s.setDom d x).mem = s.mem := rfl
@[simp] theorem setDom_sealLine : (s.setDom d x).sealLine = s.sealLine := rfl
@[simp] theorem setDom_sealFrame : (s.setDom d x).sealFrame = s.sealFrame := rfl
@[simp] theorem setDom_l2 : (s.setDom d x).l2 = s.l2 := rfl
@[simp] theorem setDom_stamps : (s.setDom d x).stamps = s.stamps := rfl
@[simp] theorem setDom_waymask : (s.setDom d x).waymask = s.waymask := rfl
@[simp] theorem setDom_tlb : (s.setDom d x).tlb = s.tlb := rfl
@[simp] theorem setDom_walk : (s.setDom d x).walk = s.walk := rfl
@[simp] theorem setDom_frames : (s.setDom d x).frames = s.frames := rfl
@[simp] theorem setDom_scrubs : (s.setDom d x).scrubs = s.scrubs := rfl
@[simp] theorem setDom_ext : (s.setDom d x).ext = s.ext := rfl
@[simp] theorem setDom_heldWrites : (s.setDom d x).heldWrites = s.heldWrites := rfl
@[simp] theorem setDom_lost : (s.setDom d x).lost = s.lost := rfl
@[simp] theorem setDom_missSent : (s.setDom d x).missSent = s.missSent := rfl
@[simp] theorem setDom_hostTab : (s.setDom d x).hostTab = s.hostTab := rfl
@[simp] theorem setDom_flight : (s.setDom d x).flight = s.flight := rfl
@[simp] theorem setDom_waiting : (s.setDom d x).waiting = s.waiting := rfl
@[simp] theorem setDom_charges : (s.setDom d x).charges = s.charges := rfl
@[simp] theorem setDom_device : (s.setDom d x).device = s.device := rfl
@[simp] theorem setDom_costs : (s.setDom d x).costs = s.costs := rfl
@[simp] theorem setDom_steals : (s.setDom d x).steals = s.steals := rfl
@[simp] theorem setDom_conts : (s.setDom d x).conts = s.conts := rfl
@[simp] theorem setDom_defers : (s.setDom d x).defers = s.defers := rfl
@[simp] theorem setDom_requests : (s.setDom d x).requests = s.requests := rfl
@[simp] theorem setDom_commands : (s.setDom d x).commands = s.commands := rfl
@[simp] theorem setDom_grants : (s.setDom d x).grants = s.grants := rfl
@[simp] theorem setDom_ms : (s.setDom d x).ms = s.ms := rfl
@[simp] theorem setDom_log : (s.setDom d x).log = s.log := rfl
@[simp] theorem setDom_logCount : (s.setDom d x).logCount = s.logCount := rfl
@[simp] theorem setDom_logh : (s.setDom d x).logh = s.logh := rfl
@[simp] theorem setDom_evidence : (s.setDom d x).evidence = s.evidence := rfl
@[simp] theorem setDom_receipts : (s.setDom d x).receipts = s.receipts := rfl
@[simp] theorem setDom_fns : (s.setDom d x).fns = s.fns := rfl
@[simp] theorem setDom_hostOut : (s.setDom d x).hostOut = s.hostOut := rfl
@[simp] theorem setDom_msix : (s.setDom d x).msix = s.msix := rfl
@[simp] theorem setDom_cxlOut : (s.setDom d x).cxlOut = s.cxlOut := rfl
@[simp] theorem setDom_ports : (s.setDom d x).ports = s.ports := rfl
@[simp] theorem setDom_lanIngress : (s.setDom d x).lanIngress = s.lanIngress := rfl
@[simp] theorem setDom_images : (s.setDom d x).images = s.images := rfl
@[simp] theorem setDom_stage : (s.setDom d x).stage = s.stage := rfl
@[simp] theorem setDom_err : (s.setDom d x).err = s.err := rfl
@[simp] theorem setDom_diemask : (s.setDom d x).diemask = s.diemask := rfl
@[simp] theorem setDom_plimit : (s.setDom d x).plimit = s.plimit := rfl
@[simp] theorem setDom_pwr : (s.setDom d x).pwr = s.pwr := rfl
@[simp] theorem setDom_cxlTier : (s.setDom d x).cxlTier = s.cxlTier := rfl
@[simp] theorem setDom_inReset : (s.setDom d x).inReset = s.inReset := rfl
@[simp] theorem setDom_time : (s.setDom d x).time = s.time := rfl
@[simp] theorem setDom_serial : (s.setDom d x).serial = s.serial := rfl
@[simp] theorem setDom_issues : (s.setDom d x).issues = s.issues := rfl
@[simp] theorem setDom_free : (s.setDom d x).free = s.free := rfl
@[simp] theorem setDom_agenda : (s.setDom d x).agenda = s.agenda := rfl

end

section
variable (s : State) (d : Nat) (f : DieRegs → DieRegs)

@[simp] theorem modDie_act : (s.modDie d f).act = s.act := rfl
@[simp] theorem modDie_core : (s.modDie d f).core = s.core := rfl
@[simp] theorem modDie_slot : (s.modDie d f).slot = s.slot := rfl
@[simp] theorem modDie_live : (s.modDie d f).live = s.live := rfl
@[simp] theorem modDie_acts : (s.modDie d f).acts = s.acts := rfl
@[simp] theorem modDie_cores : (s.modDie d f).cores = s.cores := rfl
@[simp] theorem modDie_clusters : (s.modDie d f).clusters = s.clusters := rfl
@[simp] theorem modDie_doms : (s.modDie d f).doms = s.doms := rfl
@[simp] theorem modDie_mem : (s.modDie d f).mem = s.mem := rfl
@[simp] theorem modDie_sealLine : (s.modDie d f).sealLine = s.sealLine := rfl
@[simp] theorem modDie_sealFrame : (s.modDie d f).sealFrame = s.sealFrame := rfl
@[simp] theorem modDie_l2 : (s.modDie d f).l2 = s.l2 := rfl
@[simp] theorem modDie_stamps : (s.modDie d f).stamps = s.stamps := rfl
@[simp] theorem modDie_waymask : (s.modDie d f).waymask = s.waymask := rfl
@[simp] theorem modDie_tlb : (s.modDie d f).tlb = s.tlb := rfl
@[simp] theorem modDie_walk : (s.modDie d f).walk = s.walk := rfl
@[simp] theorem modDie_frames : (s.modDie d f).frames = s.frames := rfl
@[simp] theorem modDie_scrubs : (s.modDie d f).scrubs = s.scrubs := rfl
@[simp] theorem modDie_ext : (s.modDie d f).ext = s.ext := rfl
@[simp] theorem modDie_heldWrites : (s.modDie d f).heldWrites = s.heldWrites := rfl
@[simp] theorem modDie_lost : (s.modDie d f).lost = s.lost := rfl
@[simp] theorem modDie_missSent : (s.modDie d f).missSent = s.missSent := rfl
@[simp] theorem modDie_hostTab : (s.modDie d f).hostTab = s.hostTab := rfl
@[simp] theorem modDie_flight : (s.modDie d f).flight = s.flight := rfl
@[simp] theorem modDie_waiting : (s.modDie d f).waiting = s.waiting := rfl
@[simp] theorem modDie_charges : (s.modDie d f).charges = s.charges := rfl
@[simp] theorem modDie_device : (s.modDie d f).device = s.device := rfl
@[simp] theorem modDie_costs : (s.modDie d f).costs = s.costs := rfl
@[simp] theorem modDie_steals : (s.modDie d f).steals = s.steals := rfl
@[simp] theorem modDie_conts : (s.modDie d f).conts = s.conts := rfl
@[simp] theorem modDie_defers : (s.modDie d f).defers = s.defers := rfl
@[simp] theorem modDie_requests : (s.modDie d f).requests = s.requests := rfl
@[simp] theorem modDie_commands : (s.modDie d f).commands = s.commands := rfl
@[simp] theorem modDie_grants : (s.modDie d f).grants = s.grants := rfl
@[simp] theorem modDie_ms : (s.modDie d f).ms = s.ms := rfl
@[simp] theorem modDie_log : (s.modDie d f).log = s.log := rfl
@[simp] theorem modDie_logCount : (s.modDie d f).logCount = s.logCount := rfl
@[simp] theorem modDie_logh : (s.modDie d f).logh = s.logh := rfl
@[simp] theorem modDie_evidence : (s.modDie d f).evidence = s.evidence := rfl
@[simp] theorem modDie_receipts : (s.modDie d f).receipts = s.receipts := rfl
@[simp] theorem modDie_fns : (s.modDie d f).fns = s.fns := rfl
@[simp] theorem modDie_hostOut : (s.modDie d f).hostOut = s.hostOut := rfl
@[simp] theorem modDie_msix : (s.modDie d f).msix = s.msix := rfl
@[simp] theorem modDie_cxlOut : (s.modDie d f).cxlOut = s.cxlOut := rfl
@[simp] theorem modDie_ports : (s.modDie d f).ports = s.ports := rfl
@[simp] theorem modDie_lanIngress : (s.modDie d f).lanIngress = s.lanIngress := rfl
@[simp] theorem modDie_images : (s.modDie d f).images = s.images := rfl
@[simp] theorem modDie_stage : (s.modDie d f).stage = s.stage := rfl
@[simp] theorem modDie_err : (s.modDie d f).err = s.err := rfl
@[simp] theorem modDie_diemask : (s.modDie d f).diemask = s.diemask := rfl
@[simp] theorem modDie_plimit : (s.modDie d f).plimit = s.plimit := rfl
@[simp] theorem modDie_pwr : (s.modDie d f).pwr = s.pwr := rfl
@[simp] theorem modDie_cxlTier : (s.modDie d f).cxlTier = s.cxlTier := rfl
@[simp] theorem modDie_inReset : (s.modDie d f).inReset = s.inReset := rfl
@[simp] theorem modDie_time : (s.modDie d f).time = s.time := rfl
@[simp] theorem modDie_serial : (s.modDie d f).serial = s.serial := rfl
@[simp] theorem modDie_issues : (s.modDie d f).issues = s.issues := rfl
@[simp] theorem modDie_free : (s.modDie d f).free = s.free := rfl
@[simp] theorem modDie_agenda : (s.modDie d f).agenda = s.agenda := rfl

end

section
variable (s : State) (n : Nat) (f : HostFn → HostFn)

@[simp] theorem modFn_act : (s.modFn n f).act = s.act := rfl
@[simp] theorem modFn_core : (s.modFn n f).core = s.core := rfl
@[simp] theorem modFn_slot : (s.modFn n f).slot = s.slot := rfl
@[simp] theorem modFn_live : (s.modFn n f).live = s.live := rfl
@[simp] theorem modFn_acts : (s.modFn n f).acts = s.acts := rfl
@[simp] theorem modFn_cores : (s.modFn n f).cores = s.cores := rfl
@[simp] theorem modFn_clusters : (s.modFn n f).clusters = s.clusters := rfl
@[simp] theorem modFn_doms : (s.modFn n f).doms = s.doms := rfl
@[simp] theorem modFn_dies : (s.modFn n f).dies = s.dies := rfl
@[simp] theorem modFn_mem : (s.modFn n f).mem = s.mem := rfl
@[simp] theorem modFn_sealLine : (s.modFn n f).sealLine = s.sealLine := rfl
@[simp] theorem modFn_sealFrame : (s.modFn n f).sealFrame = s.sealFrame := rfl
@[simp] theorem modFn_l2 : (s.modFn n f).l2 = s.l2 := rfl
@[simp] theorem modFn_stamps : (s.modFn n f).stamps = s.stamps := rfl
@[simp] theorem modFn_waymask : (s.modFn n f).waymask = s.waymask := rfl
@[simp] theorem modFn_tlb : (s.modFn n f).tlb = s.tlb := rfl
@[simp] theorem modFn_walk : (s.modFn n f).walk = s.walk := rfl
@[simp] theorem modFn_frames : (s.modFn n f).frames = s.frames := rfl
@[simp] theorem modFn_scrubs : (s.modFn n f).scrubs = s.scrubs := rfl
@[simp] theorem modFn_ext : (s.modFn n f).ext = s.ext := rfl
@[simp] theorem modFn_heldWrites : (s.modFn n f).heldWrites = s.heldWrites := rfl
@[simp] theorem modFn_lost : (s.modFn n f).lost = s.lost := rfl
@[simp] theorem modFn_missSent : (s.modFn n f).missSent = s.missSent := rfl
@[simp] theorem modFn_hostTab : (s.modFn n f).hostTab = s.hostTab := rfl
@[simp] theorem modFn_flight : (s.modFn n f).flight = s.flight := rfl
@[simp] theorem modFn_waiting : (s.modFn n f).waiting = s.waiting := rfl
@[simp] theorem modFn_charges : (s.modFn n f).charges = s.charges := rfl
@[simp] theorem modFn_device : (s.modFn n f).device = s.device := rfl
@[simp] theorem modFn_costs : (s.modFn n f).costs = s.costs := rfl
@[simp] theorem modFn_steals : (s.modFn n f).steals = s.steals := rfl
@[simp] theorem modFn_conts : (s.modFn n f).conts = s.conts := rfl
@[simp] theorem modFn_defers : (s.modFn n f).defers = s.defers := rfl
@[simp] theorem modFn_requests : (s.modFn n f).requests = s.requests := rfl
@[simp] theorem modFn_commands : (s.modFn n f).commands = s.commands := rfl
@[simp] theorem modFn_grants : (s.modFn n f).grants = s.grants := rfl
@[simp] theorem modFn_ms : (s.modFn n f).ms = s.ms := rfl
@[simp] theorem modFn_log : (s.modFn n f).log = s.log := rfl
@[simp] theorem modFn_logCount : (s.modFn n f).logCount = s.logCount := rfl
@[simp] theorem modFn_logh : (s.modFn n f).logh = s.logh := rfl
@[simp] theorem modFn_evidence : (s.modFn n f).evidence = s.evidence := rfl
@[simp] theorem modFn_receipts : (s.modFn n f).receipts = s.receipts := rfl
@[simp] theorem modFn_hostOut : (s.modFn n f).hostOut = s.hostOut := rfl
@[simp] theorem modFn_msix : (s.modFn n f).msix = s.msix := rfl
@[simp] theorem modFn_cxlOut : (s.modFn n f).cxlOut = s.cxlOut := rfl
@[simp] theorem modFn_ports : (s.modFn n f).ports = s.ports := rfl
@[simp] theorem modFn_lanIngress : (s.modFn n f).lanIngress = s.lanIngress := rfl
@[simp] theorem modFn_images : (s.modFn n f).images = s.images := rfl
@[simp] theorem modFn_stage : (s.modFn n f).stage = s.stage := rfl
@[simp] theorem modFn_err : (s.modFn n f).err = s.err := rfl
@[simp] theorem modFn_diemask : (s.modFn n f).diemask = s.diemask := rfl
@[simp] theorem modFn_plimit : (s.modFn n f).plimit = s.plimit := rfl
@[simp] theorem modFn_pwr : (s.modFn n f).pwr = s.pwr := rfl
@[simp] theorem modFn_cxlTier : (s.modFn n f).cxlTier = s.cxlTier := rfl
@[simp] theorem modFn_inReset : (s.modFn n f).inReset = s.inReset := rfl
@[simp] theorem modFn_time : (s.modFn n f).time = s.time := rfl
@[simp] theorem modFn_serial : (s.modFn n f).serial = s.serial := rfl
@[simp] theorem modFn_issues : (s.modFn n f).issues = s.issues := rfl
@[simp] theorem modFn_free : (s.modFn n f).free = s.free := rfl
@[simp] theorem modFn_agenda : (s.modFn n f).agenda = s.agenda := rfl

end

section
variable (s : State) (n : Nat) (f : Port → Port)

@[simp] theorem modPort_act : (s.modPort n f).act = s.act := rfl
@[simp] theorem modPort_core : (s.modPort n f).core = s.core := rfl
@[simp] theorem modPort_slot : (s.modPort n f).slot = s.slot := rfl
@[simp] theorem modPort_live : (s.modPort n f).live = s.live := rfl
@[simp] theorem modPort_acts : (s.modPort n f).acts = s.acts := rfl
@[simp] theorem modPort_cores : (s.modPort n f).cores = s.cores := rfl
@[simp] theorem modPort_clusters : (s.modPort n f).clusters = s.clusters := rfl
@[simp] theorem modPort_doms : (s.modPort n f).doms = s.doms := rfl
@[simp] theorem modPort_dies : (s.modPort n f).dies = s.dies := rfl
@[simp] theorem modPort_mem : (s.modPort n f).mem = s.mem := rfl
@[simp] theorem modPort_sealLine : (s.modPort n f).sealLine = s.sealLine := rfl
@[simp] theorem modPort_sealFrame : (s.modPort n f).sealFrame = s.sealFrame := rfl
@[simp] theorem modPort_l2 : (s.modPort n f).l2 = s.l2 := rfl
@[simp] theorem modPort_stamps : (s.modPort n f).stamps = s.stamps := rfl
@[simp] theorem modPort_waymask : (s.modPort n f).waymask = s.waymask := rfl
@[simp] theorem modPort_tlb : (s.modPort n f).tlb = s.tlb := rfl
@[simp] theorem modPort_walk : (s.modPort n f).walk = s.walk := rfl
@[simp] theorem modPort_frames : (s.modPort n f).frames = s.frames := rfl
@[simp] theorem modPort_scrubs : (s.modPort n f).scrubs = s.scrubs := rfl
@[simp] theorem modPort_ext : (s.modPort n f).ext = s.ext := rfl
@[simp] theorem modPort_heldWrites : (s.modPort n f).heldWrites = s.heldWrites := rfl
@[simp] theorem modPort_lost : (s.modPort n f).lost = s.lost := rfl
@[simp] theorem modPort_missSent : (s.modPort n f).missSent = s.missSent := rfl
@[simp] theorem modPort_hostTab : (s.modPort n f).hostTab = s.hostTab := rfl
@[simp] theorem modPort_flight : (s.modPort n f).flight = s.flight := rfl
@[simp] theorem modPort_waiting : (s.modPort n f).waiting = s.waiting := rfl
@[simp] theorem modPort_charges : (s.modPort n f).charges = s.charges := rfl
@[simp] theorem modPort_device : (s.modPort n f).device = s.device := rfl
@[simp] theorem modPort_costs : (s.modPort n f).costs = s.costs := rfl
@[simp] theorem modPort_steals : (s.modPort n f).steals = s.steals := rfl
@[simp] theorem modPort_conts : (s.modPort n f).conts = s.conts := rfl
@[simp] theorem modPort_defers : (s.modPort n f).defers = s.defers := rfl
@[simp] theorem modPort_requests : (s.modPort n f).requests = s.requests := rfl
@[simp] theorem modPort_commands : (s.modPort n f).commands = s.commands := rfl
@[simp] theorem modPort_grants : (s.modPort n f).grants = s.grants := rfl
@[simp] theorem modPort_ms : (s.modPort n f).ms = s.ms := rfl
@[simp] theorem modPort_log : (s.modPort n f).log = s.log := rfl
@[simp] theorem modPort_logCount : (s.modPort n f).logCount = s.logCount := rfl
@[simp] theorem modPort_logh : (s.modPort n f).logh = s.logh := rfl
@[simp] theorem modPort_evidence : (s.modPort n f).evidence = s.evidence := rfl
@[simp] theorem modPort_receipts : (s.modPort n f).receipts = s.receipts := rfl
@[simp] theorem modPort_fns : (s.modPort n f).fns = s.fns := rfl
@[simp] theorem modPort_hostOut : (s.modPort n f).hostOut = s.hostOut := rfl
@[simp] theorem modPort_msix : (s.modPort n f).msix = s.msix := rfl
@[simp] theorem modPort_cxlOut : (s.modPort n f).cxlOut = s.cxlOut := rfl
@[simp] theorem modPort_lanIngress : (s.modPort n f).lanIngress = s.lanIngress := rfl
@[simp] theorem modPort_images : (s.modPort n f).images = s.images := rfl
@[simp] theorem modPort_stage : (s.modPort n f).stage = s.stage := rfl
@[simp] theorem modPort_err : (s.modPort n f).err = s.err := rfl
@[simp] theorem modPort_diemask : (s.modPort n f).diemask = s.diemask := rfl
@[simp] theorem modPort_plimit : (s.modPort n f).plimit = s.plimit := rfl
@[simp] theorem modPort_pwr : (s.modPort n f).pwr = s.pwr := rfl
@[simp] theorem modPort_cxlTier : (s.modPort n f).cxlTier = s.cxlTier := rfl
@[simp] theorem modPort_inReset : (s.modPort n f).inReset = s.inReset := rfl
@[simp] theorem modPort_time : (s.modPort n f).time = s.time := rfl
@[simp] theorem modPort_serial : (s.modPort n f).serial = s.serial := rfl
@[simp] theorem modPort_issues : (s.modPort n f).issues = s.issues := rfl
@[simp] theorem modPort_free : (s.modPort n f).free = s.free := rfl
@[simp] theorem modPort_agenda : (s.modPort n f).agenda = s.agenda := rfl

end

@[simp] theorem modCore_eq (s : State) (c : Nat) (f : Core → Core) : s.modCore c f = s.setCore c (f (s.getCore c)) := rfl
@[simp] theorem modCluster_eq (s : State) (g : Nat) (f : Cluster → Cluster) : s.modCluster g f = s.setCluster g (f (s.getCluster g)) := rfl
@[simp] theorem modDom_eq (s : State) (d : Nat) (f : Dom → Dom) : s.modDom d f = s.setDom d (f (s.getDom d)) := rfl

@[simp] theorem getCore_setCore (s : State) (c e : Nat) (x : Core) : (s.setCore c x).getCore e = if c = e then x else s.getCore e := by
  simp [getCore, setCore]
@[simp] theorem getCluster_setCluster (s : State) (g e : Nat) (x : Cluster) :
    (s.setCluster g x).getCluster e = if g = e then x else s.getCluster e := by simp [getCluster, setCluster]
@[simp] theorem getDom_setDom (s : State) (d e : Nat) (x : Dom) : (s.setDom d x).getDom e = if d = e then x else s.getDom e := by
  simp [getDom, setDom]
@[simp] theorem getDie_modDie (s : State) (d e : Nat) (f : DieRegs → DieRegs) :
    (s.modDie d f).getDie e = if d = e then f (s.getDie d) else s.getDie e := by simp [getDie, modDie]
@[simp] theorem getFn_modFn (s : State) (n e : Nat) (f : HostFn → HostFn) :
    (s.modFn n f).getFn e = if n = e then f (s.getFn n) else s.getFn e := by simp [getFn, modFn]
@[simp] theorem getPort_modPort (s : State) (n e : Nat) (f : Port → Port) :
    (s.modPort n f).getPort e = if n = e then f (s.getPort n) else s.getPort e := by simp [getPort, modPort]

/-- A slot reads back the record put there. -/
@[simp] theorem findAct_putAct (s : State) (c k : Nat) (a : Act) : (s.putAct c k a).findAct c k = some a := by
  simp only [findAct, putAct]
  split <;> simp_all

/-- s0 is never written (11 R172). -/
@[simp] theorem setS_zero (s : State) (w : Word) : s.setS 0 w = s := rfl
@[simp] theorem getS_zero (s : State) : s.getS 0 = 0 := rfl

/-- A scalar register reads back what was written, and the others what they held. -/
theorem getS_setS (s : State) (r q : SReg) (w : Word) : (s.setS r w).getS q = if q = r ∧ r ≠ 0 then w else s.getS q := by
  by_cases hr : r = 0
  · subst hr; rw [setS_zero, if_neg (by simp)]
  · by_cases hq : q = 0
    · subst hq; rw [getS_zero, getS_zero, if_neg fun h => hr h.1.symm]
    · unfold getS setS
      rw [if_neg hq, if_neg hr, if_neg hq]
      by_cases h : q = r
      · subst h; rw [if_pos ⟨rfl, hr⟩]; exact Vector.getElem_set_self _
      · rw [if_neg fun e => h e.1]
        exact Vector.getElem_set_ne r.isLt _ fun e => h (BitVec.eq_of_toNat_eq e.symm)

theorem getV_setV (s : State) (r q : VNum) (x : VReg) : (s.setV r x).getV q = if q = r then x else s.getV q := by
  unfold getV setV
  by_cases h : q = r
  · subst h; rw [if_pos rfl]; exact Vector.getElem_set_self _
  · rw [if_neg h]
    exact Vector.getElem_set_ne r.isLt _ fun e => h (BitVec.eq_of_toNat_eq e.symm)

/-- p0 is never written (11 R175). -/
@[simp] theorem setP_zero (s : State) (x : BitVec 32) : s.setP 0 x = s := rfl
@[simp] theorem getP_zero (s : State) : s.getP 0 = BitVec.allOnes 32 := rfl

theorem getP_setP (s : State) (r q : PNum) (x : BitVec 32) : (s.setP r x).getP q = if q = r ∧ r ≠ 0 then x else s.getP q := by
  by_cases hr : r = 0
  · subst hr; rw [setP_zero, if_neg (by simp)]
  · by_cases hq : q = 0
    · subst hq; rw [getP_zero, getP_zero, if_neg fun h => hr h.1.symm]
    · unfold getP setP
      rw [if_neg hq, if_neg hr, if_neg hq]
      by_cases h : q = r
      · subst h; rw [if_pos ⟨rfl, hr⟩]; exact Vector.getElem_set_self _
      · rw [if_neg fun e => h e.1]
        exact Vector.getElem_set_ne r.isLt _ fun e => h (BitVec.eq_of_toNat_eq e.symm)

/-- A write of one register file leaves the other two alone. -/
@[simp] theorem getV_setS (s : State) (r : SReg) (w : Word) (q : VNum) : (s.setS r w).getV q = s.getV q := by
  by_cases h : r = 0
  · rw [h]; rfl
  · unfold setS; rw [if_neg h]; rfl
@[simp] theorem getP_setS (s : State) (r : SReg) (w : Word) (q : PNum) : (s.setS r w).getP q = s.getP q := by
  by_cases h : r = 0
  · rw [h]; rfl
  · unfold setS; rw [if_neg h]; rfl
@[simp] theorem getS_setV (s : State) (r : VNum) (x : VReg) (q : SReg) : (s.setV r x).getS q = s.getS q := rfl
@[simp] theorem getP_setV (s : State) (r : VNum) (x : VReg) (q : PNum) : (s.setV r x).getP q = s.getP q := rfl
@[simp] theorem getS_setP (s : State) (r : PNum) (x : BitVec 32) (q : SReg) : (s.setP r x).getS q = s.getS q := by
  by_cases h : r = 0
  · rw [h]; rfl
  · unfold setP; rw [if_neg h]; rfl
@[simp] theorem getV_setP (s : State) (r : PNum) (x : BitVec 32) (q : VNum) : (s.setP r x).getV q = s.getV q := by
  by_cases h : r = 0
  · rw [h]; rfl
  · unfold setP; rw [if_neg h]; rfl

end Sys2Proof.Machine.State
end

