-- ==== Sys2Proof/Laws/Issue.lean ====
section
/-!
SUPPORT. What the issue of a word, its retirement and a trap can do, said once.
-/
namespace Sys2Proof.Machine

set_option Elab.async false

theorem issueWord_done {w : IWord} {s u : State} {f : State → Eff} {fl : Flow} {ts : List Term}
    (h : decodeTrap w s = none) (hf : f s = .done u fl ts) : issueWord w s f = .next (complete w u fl ts) := by
  simp only [issueWord, h, hf, finish]

theorem issueWord_trap {w : IWord} {s : State} {f : State → Eff} {c : Cause} {v : Word}
    (h : decodeTrap w s = none) (hf : f s = .trap c v) : issueWord w s f = .next (takeTrap s c v) := by
  simp only [issueWord, h, hf, finish]

theorem issueWord_stall {w : IWord} {s u : State} {f : State → Eff} {x : Wait}
    (h : decodeTrap w s = none) (hf : f s = .stall x u) : issueWord w s f = .next (stallAt u x) := by
  simp only [issueWord, h, hf, finish]

theorem issueWord_over {w : IWord} {s u : State} {f : State → Eff}
    (h : decodeTrap w s = none) (hs : s.act.halt ≠ .step) (hf : f s = .over u) : issueWord w s f = .next u := by
  simp only [issueWord, h, hf, finish, hs, if_false]

theorem issueWord_decode {w : IWord} {s : State} {f : State → Eff} {c : Cause} (h : decodeTrap w s = some c) :
    issueWord w s f = .next (takeTrap s c (w.setWidth 64)) := by
  simp only [issueWord, h]

theorem issue_done {i : Instr} {s u : State} {f : State → Eff} {fl : Flow} {ts : List Term}
    (h : Issues i s) (hf : f s = .done u fl ts) : issue i s f = .next (complete i.word u fl ts) := issueWord_done h hf

theorem issue_trap {i : Instr} {s : State} {f : State → Eff} {c : Cause} {v : Word}
    (h : Issues i s) (hf : f s = .trap c v) : issue i s f = .next (takeTrap s c v) := issueWord_trap h hf

theorem issue_stall {i : Instr} {s u : State} {f : State → Eff} {x : Wait}
    (h : Issues i s) (hf : f s = .stall x u) : issue i s f = .next (stallAt u x) := issueWord_stall h hf

theorem issue_over {i : Instr} {s u : State} {f : State → Eff} (h : Issues i s) (hs : s.act.halt ≠ .step)
    (hf : f s = .over u) : issue i s f = .next u := issueWord_over h hs hf

theorem issue_decode {i : Instr} {s : State} {f : State → Eff} {c : Cause} (h : decodeTrap i.word s = some c) :
    issue i s f = .next (takeTrap s c (i.word.setWidth 64)) := issueWord_decode h

theorem regOp_done {i : Instr} {s : State} {d : SReg} {v : Word} (h : Issues i s) :
    regOp i s d v = .next (complete i.word (s.setS d v) .seq []) := issue_done h rfl

/-- What a charge of an activation may change. -/
theorem chargeAct_rest (s : State) (ts : List Term) :
    chargeAct s ts = { s with
      act := { s.act with eu := (chargeAct s ts).act.eu }, clusters := (chargeAct s ts).clusters,
      charges := (chargeAct s ts).charges, device := (chargeAct s ts).device } := by
  simp only [chargeAct, chargeWith, State.setCluster]
  split <;> rfl

theorem chargeAct_meters (s : State) (ts : List Term) (g : Nat) :
    (chargeAct s ts).getCluster g = { s.getCluster g with
      residue := ((chargeAct s ts).getCluster g).residue, sum := ((chargeAct s ts).getCluster g).sum } := by
  simp only [chargeAct, chargeWith, State.setCluster, State.getCluster]
  split
  · simp only [tabGet_tabPut]; split <;> simp_all
  · simp only [tabGet_tabPut]; split <;> simp_all

/-- A loop check changes LC0 and LC1 alone. -/
theorem loopCheck_regs (r : Regs) (w : Word) :
    (loopCheck r w).1 = { r with lc0 := (loopCheck r w).1.lc0, lc1 := (loopCheck r w).1.lc1 } := by
  simp only [loopCheck]
  repeat' split
  all_goals rfl

/-- Advancing does not look at the energy recorded for the activation. -/
theorem advance_eu (a : Act) (f : Flow) (e : Nat) : advance { a with eu := e } f = { advance a f with eu := e } := by
  cases f <;> simp only [advance] <;> (repeat' split) <;> rfl

theorem retireWord_retires (w : IWord) (u : State) (f : Flow) (ts : List Term) : Retires u f (retireWord w u f ts) := by
  have h := chargeAct_rest u (retireTerms w ++ ts)
  have ha : (chargeAct u (retireTerms w ++ ts)).act = { u.act with eu := (chargeAct u (retireTerms w ++ ts)).act.eu } := by
    rw [h]
  have hi : (chargeAct u (retireTerms w ++ ts)).issues = u.issues := by rw [h]
  have ht : (chargeAct u (retireTerms w ++ ts)).time = u.time := by rw [h]
  refine ⟨?_, ?_, ?_⟩
  · simp only [retireWord, Act.readied]
    rw [ha, hi, ht, advance_eu]
    cases f <;> simp only [advance] <;> (repeat' split) <;> rfl
  · simp only [retireWord]; rw [hi, h]
  · intro g
    exact chargeAct_meters u _ g

end Sys2Proof.Machine
end

