-- ==== Sys2Proof/Laws/Access.lean ====
section
/-!
SUPPORT. What an access to memory can change: one relation, and for each operation of the caches, the translation units,
the home slices and the meters one lemma that it stays within that relation, whether the access completes, faults or waits
(23 R336).
-/
namespace Sys2Proof.Machine

/-- What accesses change: L1 lines and outstanding requests of cores, L2, memory with its seals and stamps, the units'
entries, the way masks, the writes outside the package, the meters and their charges. The canonical form is kept. -/
structure AccessOnly (s t : State) : Prop where
  rest : t = { s with
    cores := t.cores, clusters := t.clusters, charges := t.charges, device := t.device, mem := t.mem, sealLine := t.sealLine,
    l2 := t.l2, stamps := t.stamps, waymask := t.waymask, tlb := t.tlb, walk := t.walk, free := t.free, hostOut := t.hostOut }
  core : ∀ c, t.getCore c = { s.getCore c with
    l1 := (t.getCore c).l1, l1i := (t.getCore c).l1i, pending := (t.getCore c).pending }
  meter : ∀ g, t.getCluster g = { s.getCluster g with residue := (t.getCluster g).residue, sum := (t.getCluster g).sum }
  form : MemoryOk s → MemoryOk t

namespace AccessOnly

theorem refl (s : State) : AccessOnly s s := ⟨rfl, fun _ => rfl, fun _ => rfl, id⟩

theorem trans {s t u : State} (a : AccessOnly s t) (b : AccessOnly t u) : AccessOnly s u := by
  refine ⟨?_, fun c => ?_, fun g => ?_, b.form ∘ a.form⟩
  · have h1 := a.rest
    have h2 := b.rest
    rw [h1] at h2
    exact h2
  · have h1 := a.core c
    have h2 := b.core c
    rw [h1] at h2
    exact h2
  · have h1 := a.meter g
    have h2 := b.meter g
    rw [h1] at h2
    exact h2

/-- A fold of operations that each stay within the relation. -/
theorem foldl {α : Type} {f : State → α → State} (h : ∀ s x, AccessOnly s (f s x)) (l : List α) (s : State) :
    AccessOnly s (l.foldl f s) := by
  induction l generalizing s with
  | nil => exact refl s
  | cons x r ih => exact (h s x).trans (ih _)

/-- The activations and everything that decides what runs stay as they are. -/
theorem act {s t : State} (h : AccessOnly s t) : t.act = s.act := by rw [h.rest]
theorem acts {s t : State} (h : AccessOnly s t) : t.acts = s.acts := by rw [h.rest]
theorem frames {s t : State} (h : AccessOnly s t) : t.frames = s.frames := by rw [h.rest]
theorem doms {s t : State} (h : AccessOnly s t) : t.doms = s.doms := by rw [h.rest]
theorem spad {s t : State} (h : AccessOnly s t) (c : Nat) : (t.getCore c).spad = (s.getCore c).spad := by rw [h.core c]

theorem findAct {s t : State} (h : AccessOnly s t) (c k : Nat) : t.findAct c k = s.findAct c k := by
  rw [h.rest]; rfl

theorem formOk {s t : State} (h : AccessOnly s t) (f : FormOk s) : FormOk t :=
  ⟨h.form f.1, by rw [h.rest]; exact f.2.1, by rw [h.rest]; exact f.2.2⟩

end AccessOnly

/-- A core written keeps the canonical form if its scratchpad does. -/
theorem MemoryOk.setCore {s : State} (h : MemoryOk s) {c : Nat} {x : Core} (hx : x.spad.wf = true) : MemoryOk (s.setCore c x) := by
  refine ⟨h.1, fun y hy => ?_⟩
  rcases mem_tabPut hy with rfl | hy
  · exact hx
  · exact h.2 y hy

/-- A core's scratchpad is in canonical form. -/
theorem MemoryOk.spad {s : State} (h : MemoryOk s) (c : Nat) : (s.getCore c).spad.wf = true := by
  have find : ∀ t : Tab Core, (∀ x ∈ t, x.2.spad.wf = true) → (tabGet Core.blank t c).spad.wf = true := by
    intro t ht
    induction t with
    | nil => rfl
    | cons x r ih =>
      simp only [tabGet, tabFind]
      split
      · exact ht x (by simp)
      · exact ih fun y hy => ht y (by simp [hy])
  exact find s.cores h.2

/-- A core's L1 and outstanding requests changed. -/
theorem modCore_access (s : State) (c : Nat) (f : Core → Core)
    (h : ∀ x, f x = { x with l1 := (f x).l1, l1i := (f x).l1i, pending := (f x).pending }) : AccessOnly s (s.modCore c f) := by
  refine ⟨rfl, fun e => ?_, fun _ => rfl, fun m => m.setCore (by rw [h]; exact m.spad c)⟩
  simp only [State.modCore_eq, State.getCore_setCore]
  split
  · subst_vars; exact h _
  · rfl

/-- A meter's residue and sum changed. -/
theorem setCluster_access (s : State) (g : Nat) (r : Tab Nat) (n : Nat) :
    AccessOnly s (s.setCluster g { s.getCluster g with residue := r, sum := n }) := by
  refine ⟨rfl, fun _ => rfl, fun e => ?_, id⟩
  simp only [State.getCluster_setCluster]
  split
  · subst_vars; rfl
  · rfl

theorem charges_access (s : State) (l : List Charge) : AccessOnly s { s with charges := l } :=
  ⟨rfl, fun _ => rfl, fun _ => rfl, id⟩

theorem device_access (s : State) (n : Nat) : AccessOnly s { s with device := n } := ⟨rfl, fun _ => rfl, fun _ => rfl, id⟩

theorem chargeWith_access (s : State) (b : Bool) (d m n e : Nat) (ts : List Term) : AccessOnly s (chargeWith s b d m n e ts).2 := by
  unfold chargeWith
  split
  · exact (setCluster_access s m _ _).trans (device_access _ _)
  · exact ((setCluster_access s m _ _).trans (setCluster_access _ m _ _)).trans (charges_access _ _)

theorem charge_access (s : State) (d m : Nat) (ts : List Term) : AccessOnly s (charge s d m ts) := chargeWith_access ..
theorem chargeFrac_access (s : State) (d m n e : Nat) (ts : List Term) : AccessOnly s (chargeFrac s d m n e ts) := chargeWith_access ..
theorem chargeDevice_access (s : State) (m : Nat) (ts : List Term) : AccessOnly s (chargeDevice s m ts) := chargeWith_access ..
theorem chargeMove_access (s : State) (d c h : Nat) : AccessOnly s (chargeMove s d c h) := chargeWith_access ..

theorem chargeDram_access (s : State) (d m pa n : Nat) : AccessOnly s (chargeDram s d m pa n) := by
  unfold chargeDram
  split
  · exact charge_access ..
  · split
    · exact charge_access ..
    · exact .refl s

theorem writeUnder_access (s : State) (k g pl : Nat) (d : LineBits) : AccessOnly s (writeUnder s k g pl d) :=
  ⟨rfl, fun _ => rfl, fun _ => rfl, fun m => ⟨memPutLine_wf m.1 pl d, m.2⟩⟩
theorem writeSealed_access (s : State) (k pl : Nat) (d : LineBits) : AccessOnly s (writeSealed s k pl d) := writeUnder_access ..
theorem chargeOpen_access (s : State) : AccessOnly s (chargeOpen s) := ⟨rfl, fun _ => rfl, fun _ => rfl, id⟩

theorem hostLine_access (s : State) (pl : Nat) : AccessOnly s (hostLine s pl).2 := ⟨rfl, fun _ => rfl, fun _ => rfl, id⟩

theorem backRead_access (s : State) (k pl : Nat) : AccessOnly s (backRead s k pl).2 := by
  unfold backRead
  split <;> first | exact hostLine_access s pl | exact .refl s

theorem controlWrite_access (s : State) (w sl off : Nat) (d : LineBits) (m : BitVec 128) : AccessOnly s (controlWrite s w sl off d m) := by
  unfold controlWrite
  refine AccessOnly.foldl (fun s i => ?_) _ s
  dsimp only
  split
  · exact ⟨rfl, fun _ => rfl, fun _ => rfl, id⟩
  · exact .refl s

theorem backWrite_access (s : State) (w k pl : Nat) (d : LineBits) (m : BitVec 128) : AccessOnly s (backWrite s w k pl d m) := by
  unfold backWrite
  split
  · exact writeSealed_access ..
  · exact writeSealed_access ..
  · exact ⟨rfl, fun _ => rfl, fun _ => rfl, id⟩
  · exact ⟨rfl, fun _ => rfl, fun _ => rfl, id⟩
  · exact controlWrite_access ..
  · exact .refl s

theorem stamps_access (s : State) (x : Tab (Tab Stamp)) : AccessOnly s { s with stamps := x } :=
  ⟨rfl, fun _ => rfl, fun _ => rfl, id⟩
theorem l2_access (s : State) (x : Tab L2Line) : AccessOnly s { s with l2 := x } := ⟨rfl, fun _ => rfl, fun _ => rfl, id⟩
theorem tlb_access (s : State) (x : List TEntry) : AccessOnly s { s with tlb := x } := ⟨rfl, fun _ => rfl, fun _ => rfl, id⟩
theorem walk_access (s : State) (x : List WEntry) : AccessOnly s { s with walk := x } := ⟨rfl, fun _ => rfl, fun _ => rfl, id⟩
theorem draw_access (s : State) : AccessOnly s s.draw.2 := ⟨rfl, fun _ => rfl, fun _ => rfl, id⟩

theorem homeStore_access (s : State) (w m k pl : Nat) (d : LineBits) (b : BitVec 128) (st : Nat → Option Stamp) :
    AccessOnly s (homeStore s w m k pl d b st) := by
  have go : ∀ u : State, AccessOnly s u → AccessOnly s (match tabFind u.l2 pl with
      | some l => { u with l2 := tabPut u.l2 pl { l with data := mergeLine (l2Data u pl l) d b, dirty := true,
                                                         gen := (u.getDom l.keyid).gen } }
      | none => chargeDram (backWrite u w k pl d b) w m (128 * pl) (maskHalves b)) := by
    intro u hu
    split
    · exact hu.trans (l2_access _ _)
    · exact (hu.trans (backWrite_access ..)).trans (chargeDram_access ..)
  unfold homeStore
  apply go
  split <;> exact stamps_access _ _

theorem putL1_access (s : State) (c : Nat) (l : L1Line) : AccessOnly s (putL1 s c l) := modCore_access s c _ fun _ => rfl
theorem shareL1_access (s : State) (c : Nat) (l : L1Line) (m : BitVec 128) : AccessOnly s (shareL1 s c l m) :=
  modCore_access s c _ fun _ => rfl
theorem dropL1_access (s : State) (c d vl : Nat) : AccessOnly s (dropL1 s c d vl) := modCore_access s c _ fun _ => rfl
theorem addPending_access (s : State) (c : Nat) (da : Option Nat) : AccessOnly s (addPending s c da) :=
  modCore_access s c _ fun _ => rfl

theorem storeBack_access (s : State) (c : Nat) (l : L1Line) : AccessOnly s (storeBack s c l) := by
  unfold storeBack
  split
  · exact .refl s
  · exact (homeStore_access ..).trans (chargeMove_access ..)

theorem cleanL1_access (s : State) (c : Nat) (l : L1Line) : AccessOnly s (cleanL1 s c l) := by
  unfold cleanL1
  split
  · exact .refl s
  · exact (storeBack_access ..).trans (putL1_access ..)

theorem flushL1_access (s : State) (c : Nat) (l : L1Line) : AccessOnly s (flushL1 s c l) :=
  (storeBack_access ..).trans (dropL1_access ..)

theorem flushAddr_access (s : State) (c d : Nat) (va : Word) : AccessOnly s (flushAddr s c d va) := by
  unfold flushAddr
  refine AccessOnly.foldl (fun s l => ?_) _ s
  split
  · exact flushL1_access ..
  · exact .refl s

/-- A release writes dirty bytes back; it changes nothing that decides what runs. -/
theorem release_access (s : State) (c d : Nat) (sc : Scope) : AccessOnly s (release s c d sc) := by
  unfold release
  split
  · exact .refl s
  · refine AccessOnly.foldl (fun s l => ?_) _ s
    split
    · exact cleanL1_access ..
    · exact .refl s

theorem acquire_access (s : State) (c d : Nat) (sc : Scope) : AccessOnly s (acquire s c d sc) := by
  unfold acquire
  split
  · exact .refl s
  · exact modCore_access s c _ fun _ => rfl

theorem dropCopies_access (s : State) (pl : Nat) : AccessOnly s (dropCopies s pl) := by
  unfold dropCopies
  refine AccessOnly.foldl (fun s x => AccessOnly.foldl (fun s l => ?_) _ s) _ s
  split
  · exact flushL1_access ..
  · exact .refl s

theorem dropL2_access (s : State) (pl : Nat) : AccessOnly s (dropL2 s pl) := by
  refine (dropCopies_access s pl).trans ?_
  unfold dropL2
  dsimp only
  split
  · exact .refl _
  · split
    · exact ((l2_access _ _).trans (writeUnder_access ..)).trans (chargeDram_access ..)
    · exact l2_access _ _

theorem allocL2_access (s : State) (pl : Nat) (l : L2Line) : AccessOnly s (allocL2 s pl l) := by
  unfold allocL2
  dsimp only
  split
  · exact .refl s
  · split
    · refine ((draw_access s).trans ?_).trans (l2_access _ _)
      split
      · exact dropL2_access ..
      · exact .refl _
    · exact (draw_access s).trans (l2_access _ _)

theorem putT_access (s : State) (e : TEntry) : AccessOnly s (putT s e) := by
  unfold putT
  dsimp only
  split
  · exact tlb_access _ _
  · exact (draw_access s).trans (tlb_access _ _)

theorem putW_access (s : State) (w : WEntry) : AccessOnly s (putW s w) := by
  unfold putW
  split
  · exact walk_access _ _
  · exact .refl s

theorem roomL1_access (s : State) (c d vl : Nat) : AccessOnly s (roomL1 s c d vl) := by
  unfold roomL1
  dsimp only
  split
  · exact .refl s
  · refine (draw_access s).trans ?_
    split
    · exact flushL1_access ..
    · exact .refl _

theorem roomL1i_access (s : State) (c : Nat) : AccessOnly s (roomL1i s c) := by
  unfold roomL1i
  dsimp only
  split
  · exact .refl s
  · exact (draw_access s).trans (modCore_access _ c _ fun _ => rfl)

/-- Either of two states. -/
theorem if_access {s t u : State} {p : Prop} [Decidable p] (ht : AccessOnly s t) (hu : AccessOnly s u) :
    AccessOnly s (if p then t else u) := by
  split
  · exact ht
  · exact hu

theorem homeServeAs_access (b : Bool) (s : State) (c d m : Nat) (va : Word) (p : HomePlace) :
    AccessOnly s (homeServeAs b s c d m va p).2 := by
  unfold homeServeAs
  dsimp only
  split
  · exact .refl s
  · split
    · exact ((backRead_access ..).trans (if_access (chargeDram_access ..) (.refl _))).trans (allocL2_access ..)
    · exact backRead_access ..

theorem homeServe_access (s : State) (c d m : Nat) (va : Word) (p : HomePlace) : AccessOnly s (homeServe s c d m va p).2 :=
  homeServeAs_access true s c d m va p

/-- The meter and charge fields of one state in another. -/
theorem uncharged_access {s t : State} (h : AccessOnly s t) : AccessOnly s (uncharged s t) := by
  refine ⟨?_, fun c => h.core c, fun _ => rfl, fun m => h.form m⟩
  rw [uncharged, h.rest]

theorem keepTraffic_access {s t : State} (h : AccessOnly s t) : AccessOnly s (keepTraffic s t) :=
  ⟨rfl, fun _ => rfl, fun g => h.meter g, id⟩

/-- Whatever an access answers, its state stays within the relation: that of the answer, which `st` names, or the one that
a fault carries. -/
def Within {α : Type} (s : State) (st : α → State) : Acc α → Prop
  | .ok a => AccessOnly s (st a)
  | .error (.fault _ _ t) => AccessOnly s t
  | .error (.wait _) => True

namespace Within
variable {α β : Type} {s t : State} {st : α → State}

/-- An access refused with no traffic. -/
theorem fault (s : State) (st : α → State) (c : Cause) (v : Word) : Within s st (.error (.fault c v s)) := .refl s

/-- An access that completes. -/
theorem done {a : α} (h : AccessOnly s (st a)) : Within s st (.ok a) := h

/-- A failure within the relation is one whatever the answer would have been. -/
theorem fail {e : AccErr} (h : Within s st (.error e)) (su : β → State) : Within s su (.error e) := by
  cases e <;> exact h

/-- What follows an operation within the relation. -/
theorem after {r : Acc α} (h : AccessOnly s t) (k : Within t st r) : Within s st r := by
  match r with
  | .ok _ => exact h.trans k
  | .error (.fault ..) => exact h.trans k
  | .error (.wait _) => exact k

/-- The state that a completed or a faulting access leaves. -/
theorem ok {r : Acc α} {a : α} (h : Within s st r) (e : r = .ok a) : AccessOnly s (st a) := by subst e; exact h
theorem faulted {r : Acc α} {c : Cause} {v : Word} (h : Within s st r) (e : r = .error (.fault c v t)) : AccessOnly s t := by
  subst e; exact h

end Within

/-- An access `y` that fails where its first part `x` fails, and else reads what it answers. -/
theorem Within.step {α β : Type} {s : State} {st : α → State} {su : β → State} {x : Acc α} {y : Acc β} (h : Within s st x)
    (he : ∀ e, x = .error e → y = .error e) (ho : ∀ a, x = .ok a → Within (st a) su y) : Within s su y := by
  cases hx : x with
  | error e => rw [he e hx]; rw [hx] at h; exact h.fail su
  | ok a => rw [hx] at h; exact .after h (ho a hx)

theorem walkFrom_within (s : State) (d m : Nat) (va : Word) (above : List Nat) (n f : Nat) : Within s Prod.snd (walkFrom s d m va above n f) := by
  induction n generalizing s f above with
  | zero => exact .fault ..
  | succ n ih =>
    simp only [walkFrom]
    split
    · exact .fault ..
    · split
      · trivial
      · split
        · exact .fault ..
        · generalize hu : (if (tabFind s.l2 ((4096 * f + 8 * levelIndex va (n + 1)) / 128)).isSome = true then s
            else chargeDram s d m (4096 * f) (if n + 1 = 1 then 2 else 1)) = u
          refine .after (hu ▸ if_access (.refl s) (chargeDram_access ..) : AccessOnly s u) ?_
          split
          · exact .fault ..
          · split
            · exact putT_access ..
            · exact .after (putW_access ..) (ih ..)

theorem findLeaf_within (s : State) (d m : Nat) (va : Word) : Within s Prod.snd (findLeaf s d m va) := by
  simp only [findLeaf]
  split
  · exact AccessOnly.refl s
  · split
    · exact .fault ..
    · split <;> exact walkFrom_within ..

theorem leafCheck_within (s : State) (d m : Nat) (k : Bool) (need : Need) (va : Word) :
    Within s Prod.snd (leafCheck s d m k need va) := by
  refine (findLeaf_within s d m va).step (fun e h => by simp only [leafCheck, h]) fun a h => ?_
  simp only [leafCheck, h]
  split
  · exact .fault ..
  · split
    · exact .fault ..
    · exact AccessOnly.refl _

theorem translate_within (s : State) (d m : Nat) (k : Bool) (need : Need) (va : Word) (heal : Bool) :
    Within s Prod.snd (translate s d m k need va heal) := by
  refine (leafCheck_within s d m k need va).step (fun e h => by simp only [translate, h]) fun a h => ?_
  simp only [translate, h]
  split
  · exact .fault ..
  · split
    · trivial
    · exact AccessOnly.refl _

/-- The checks of an access that reaches the home slice. -/
theorem homePlace_within (s : State) (d m : Nat) (k : Bool) (need : Need) (va : Word) (heal : Bool) :
    Within s Prod.snd (homePlace s d m k need va heal) := by
  unfold homePlace
  split
  · exact .fault ..
  · split
    · split
      · exact .fault ..
      · split
        · trivial
        · exact AccessOnly.refl s
    · refine (translate_within s d m k need va heal).step (fun e h => by rw [h]) fun a h => ?_
      rw [h]
      exact AccessOnly.refl _

/-- A line that its home slice serves. -/
theorem homeLine_within (s : State) (c d m : Nat) (k : Bool) (need : Need) (va : Word) (heal : Bool) :
    Within s Prod.snd (homeLine s c d m k need va heal) := by
  refine (homePlace_within s d m k need va heal).step (fun e h => by simp only [homeLine, h]) fun a h => ?_
  simp only [homeLine, h]
  exact homeServe_access ..

/-- A line filled into an L1. -/
theorem fillL1_within (s : State) (c d : Nat) (k : Bool) (need : Need) (va : Word) :
    Within s Prod.snd (fillL1 s c d k need va) := by
  refine (homeLine_within s c d (clusterOf c) k need va false).step (fun e h => by simp only [fillL1, h]) fun a h => ?_
  simp only [fillL1, h]
  exact ((((addPending_access ..).trans (roomL1_access ..)).trans (chargeMove_access ..)).trans (shareL1_access ..)).trans
    (putL1_access ..)

theorem lineCheck_within (s : State) (c d : Nat) (k : Bool) (need : Need) (va : Word) (n : Nat) :
    Within s id (lineCheck s c d k need va n) := by
  unfold lineCheck
  dsimp only
  split
  · split
    · exact AccessOnly.refl s
    · exact .fault ..
  · refine (homePlace_within s d (clusterOf c) k need va false).step (fun e h => by rw [h]; rfl) fun a h => ?_
    rw [h]
    exact AccessOnly.refl _

theorem lineFor_within (s : State) (c d : Nat) (k : Bool) (need : Need) (va : Word) (n : Nat) :
    Within s Prod.snd (lineFor s c d k need va n) := by
  simp only [lineFor]
  split
  · exact .fault ..
  · split
    · split
      · split
        · exact AccessOnly.refl s
        · exact .fault ..
      · exact fillL1_within ..
    · exact fillL1_within ..

theorem loadLine_within (s : State) (c d : Nat) (k : Bool) (va : Word) (n : Nat) :
    Within s (fun x => x.2.2) (loadLine s c d k va n) := by
  refine (lineFor_within s c d k .load va n).step (fun e h => by simp only [loadLine, h]) fun a h => ?_
  simp only [loadLine, h]
  exact AccessOnly.refl _

theorem storeLine_within (s : State) (c d : Nat) (k : Bool) (va : Word) (n x : Nat) (st : Option Stamp) :
    Within s id (storeLine s c d k va n x st) := by
  refine (lineFor_within s c d k .store va n).step (fun e h => by simp only [storeLine, h]) fun a h => ?_
  simp only [storeLine, h]
  exact (shareL1_access ..).trans (putL1_access ..)

theorem watchStop_within {α : Type} {s : State} {r : Acc State} (h : Within s id r) (va : Word) (st : α → State) :
    Within s st (watchStop r va) := by
  cases r with
  | error e => exact h.fail st
  | ok t => exact h

/-- An aligned load of the activation. -/
theorem loadBytes_within (s : State) (va : Word) (n : Nat) : Within s (fun x => x.2.2) (loadBytes s va n) := by
  unfold loadBytes
  split
  · exact .fault ..
  · split
    · exact watchStop_within (lineCheck_within ..) ..
    · exact loadLine_within ..

/-- An aligned store of the activation. -/
theorem storeBytes_within (s : State) (va : Word) (n x : Nat) (st : Option Stamp) : Within s id (storeBytes s va n x st) := by
  unfold storeBytes
  split
  · exact .fault ..
  · split
    · exact watchStop_within (lineCheck_within ..) ..
    · exact storeLine_within ..

/-- An operation at a home slice, its checks passed. -/
theorem servedAt_access {α : Type} (s : State) (c d m : Nat) (va : Word) (p : HomePlace)
    (f : HomeLine → LineBits × BitVec 128 × (Nat → Option Stamp) × α) : AccessOnly s (servedAt s c d m va p f).2.2 := by
  refine (homeServe_access s c d m va p).trans ?_
  simp only [servedAt]
  split
  · exact .refl _
  · exact homeStore_access ..

theorem atHome_within {α : Type} (s : State) (c d m : Nat) (k : Bool) (need : Need) (va : Word)
    (f : HomeLine → LineBits × BitVec 128 × (Nat → Option Stamp) × α) :
    Within s (fun x => x.2.2) (atHome s c d m k need va f) := by
  refine (homePlace_within s d m k need va false).step (fun e h => by simp only [atHome, h]) fun a h => ?_
  simp only [atHome, h]
  exact servedAt_access ..

/-- The checks before an operation at the home slice. -/
theorem homeCheck_within (s : State) (need : Need) (va : Word) : Within s Prod.snd (homeCheck s need va) := by
  simp only [homeCheck]
  split
  · exact .fault ..
  · exact homePlace_within ..

/-- An operation of the activation at the home slice, if what it does before the operation stays within the relation. -/
theorem homeStep_within {α : Type} (s : State) (need : Need) (w : Option WatchKind) (va : Word) (n : Nat) (wr : Nat → BitVec 128)
    (pre : State → State) (f : Nat → Option (Nat × Option Stamp) × α) (hp : ∀ t, AccessOnly t (pre t)) :
    Within s (fun x => x.2.2) (homeStep s need w va n wr pre f) := by
  unfold homeStep
  split
  · exact .fault ..
  · refine (homeCheck_within s need va).step (fun e h => by simp only [h]) fun a h => ?_
    simp only [h]
    split
    · exact .fault ..
    · apply Within.done
      dsimp only
      refine .trans (.trans ((hp _).trans (flushAddr_access _ s.core s.act.dom va)) ?_) (addPending_access ..)
      exact servedAt_access (flushAddr (pre a.2) s.core s.act.dom va) s.core s.act.dom (clusterOf s.core) va a.1
        (fun h => match f (lineNat h.data (va.toNat % 128) n) with
          | (some (x, st), a) => (lineOf (va.toNat % 128) n x, wr (va.toNat % 128), (fun _ => st), a)
          | (none, a) => (0, 0, (fun _ => none), a))

theorem homeAccess_within {α : Type} (s : State) (need : Need) (w : Option WatchKind) (va : Word) (n : Nat) (pre : State → State)
    (f : Nat → Option (Nat × Option Stamp) × α) (hp : ∀ t, AccessOnly t (pre t)) :
    Within s (fun x => x.2.2) (homeAccess s need w va n pre f) := homeStep_within s need w va n _ pre f hp

theorem blockAccess_within {α : Type} (s : State) (w : Option WatchKind) (va : Word) (n : Nat) (fields : List (Nat × Nat))
    (pre : State → State) (f : Nat → Option (Nat × Option Stamp) × α) (hp : ∀ t, AccessOnly t (pre t)) :
    Within s (fun x => x.2.2) (blockAccess s w va n fields pre f) := homeStep_within s .both w va n _ pre f hp

/-- An instruction line that a fetch reads. -/
theorem fetchLine_within (s : State) (c d : Nat) (k : Bool) (va : Word) : Within s Prod.snd (fetchLine s c d k va) := by
  unfold fetchLine
  split
  · exact .fault ..
  · split
    · split
      · exact AccessOnly.refl s
      · exact .fault ..
    · refine (homeLine_within s c d (clusterOf c) k .fetch va false).step (fun e h => by simp only [h]) fun a h => ?_
      simp only [h]
      apply Within.done
      dsimp only
      exact (((addPending_access ..).trans (chargeMove_access ..)).trans (roomL1i_access ..)).trans
        (modCore_access _ c _ fun _ => rfl)

theorem devRead_within (s : State) (d m c : Nat) (va : Word) (n : Nat) : Within s Prod.snd (devRead s d m c va n) := by
  refine (homeLine_within s c d m true .load va false).step (fun e h => by simp only [devRead, h]) fun a h => ?_
  simp only [devRead, h]
  exact AccessOnly.refl _

theorem devWrite_within (s : State) (d m c : Nat) (va : Word) (bs : List Byte) : Within s id (devWrite s d m c va bs) := by
  refine (atHome_within s c d m true .store va
    fun _ => (lineOf (va.toNat % 128) bs.length (leNat bs), byteMask (va.toNat % 128) bs.length, (fun _ => none), ())).step
    (fun e h => by simp only [devWrite, h]) fun a h => ?_
  simp only [devWrite, h]
  exact AccessOnly.refl _

theorem devReadAll_within (s : State) (d m c : Nat) (va : Word) (n : Nat) : Within s Prod.snd (devReadAll s d m c va n) := by
  induction n generalizing s va with
  | zero => exact AccessOnly.refl s
  | succ n ih =>
    refine (devRead_within s d m c va 64).step (fun e h => by simp only [devReadAll, h]) fun a h => ?_
    refine (ih a.2 (va + 64)).step (fun e g => by simp only [devReadAll, h, g]) fun b g => ?_
    simp only [devReadAll, h, g]
    exact AccessOnly.refl _

theorem devWriteAll_within (s : State) (d m c : Nat) (va : Word) (n : Nat) (bs : List Byte) :
    Within s id (devWriteAll s d m c va n bs) := by
  induction n generalizing s va bs with
  | zero => exact AccessOnly.refl s
  | succ n ih =>
    refine (devWrite_within s d m c va (bs.take 64)).step (fun e h => by simp only [devWriteAll, h]) fun a h => ?_
    simp only [devWriteAll, h]
    exact ih ..

/-- Bytes of a save record read by the device. -/
theorem recordRead_within (s : State) (d m c : Nat) (va : Word) (n : Nat) : Within s Prod.snd (recordRead s d m c va n) := by
  refine (homePlace_within s d m true .load va false).step (fun e h => by simp only [recordRead, h]) fun a h => ?_
  simp only [recordRead, h]
  have k := homeServeAs_access false a.2 c d m va a.1
  exact if_access k (k.trans (chargeDram_access ..))

/-- Bytes of a save record written by the device. -/
theorem recordWrite_within (s : State) (d m c : Nat) (va : Word) (bs : List Byte) : Within s id (recordWrite s d m c va bs) := by
  refine (homePlace_within s d m true .store va false).step (fun e h => by simp only [recordWrite, h]) fun a h => ?_
  simp only [recordWrite, h]
  have k := homeServeAs_access false a.2 c d m va a.1
  exact (if_access (k.trans (chargeDram_access ..)) k).trans (homeStore_access ..)

theorem recordReadAll_within (s : State) (d m c : Nat) (va : Word) (n : Nat) : Within s Prod.snd (recordReadAll s d m c va n) := by
  induction n generalizing s va with
  | zero => exact AccessOnly.refl s
  | succ n ih =>
    refine (recordRead_within s d m c va 64).step (fun e h => by simp only [recordReadAll, h]) fun a h => ?_
    refine (ih a.2 (va + 64)).step (fun e g => by simp only [recordReadAll, h, g]) fun b g => ?_
    simp only [recordReadAll, h, g]
    exact AccessOnly.refl _

theorem recordWriteAll_within (s : State) (d m c : Nat) (va : Word) (n : Nat) (bs : List Byte) :
    Within s id (recordWriteAll s d m c va n bs) := by
  induction n generalizing s va bs with
  | zero => exact AccessOnly.refl s
  | succ n ih =>
    refine (recordWrite_within s d m c va (bs.take 64)).step (fun e h => by simp only [recordWriteAll, h]) fun a h => ?_
    simp only [recordWriteAll, h]
    exact ih ..

theorem physStore_access (s : State) (d m pa : Nat) (bs : List Byte) : AccessOnly s (physStore s d m pa bs) := homeStore_access ..

end Sys2Proof.Machine
end

