-- ==== Sys2Proof/Laws/Encode.lean ====
section
/-!
SUPPORT. The fields of a word built by each format of 11 R165 are the fields it was built from.
-/
namespace Sys2Proof

set_option Elab.async false

theorem fmtR_bit (f : BitVec 7) (b a d : BitVec 6) (op : BitVec 7) (i : Nat) :
    (fmtR f b a d op).getLsbD i = if i < 7 then op.getLsbD (i - 0) else if i < 13 then d.getLsbD (i - 7) else if i < 19 then a.getLsbD (i - 13) else if i < 25 then b.getLsbD (i - 19) else f.getLsbD (i - 25) := by
  refine (BitVec.getLsbD_append (x := f ++ b ++ a ++ d) (y := op)).trans ?_
  simp only [BitVec.getLsbD_append]
  repeat' split
  all_goals first | rfl | omega

@[simp] theorem fOp_fmtR (f : BitVec 7) (b a d : BitVec 6) (op : BitVec 7) : fOp (fmtR f b a d op) = op := by
  unfold fOp
  ext i hi
  rw [BitVec.getElem_extractLsb', fmtR_bit]
  repeat' split
  all_goals first | omega | (rw [← BitVec.getLsbD_eq_getElem]; congr 1; omega)

@[simp] theorem fD_fmtR (f : BitVec 7) (b a d : BitVec 6) (op : BitVec 7) : fD (fmtR f b a d op) = d := by
  unfold fD
  ext i hi
  rw [BitVec.getElem_extractLsb', fmtR_bit]
  repeat' split
  all_goals first | omega | (rw [← BitVec.getLsbD_eq_getElem]; congr 1; omega)

@[simp] theorem fA_fmtR (f : BitVec 7) (b a d : BitVec 6) (op : BitVec 7) : fA (fmtR f b a d op) = a := by
  unfold fA
  ext i hi
  rw [BitVec.getElem_extractLsb', fmtR_bit]
  repeat' split
  all_goals first | omega | (rw [← BitVec.getLsbD_eq_getElem]; congr 1; omega)

@[simp] theorem fB_fmtR (f : BitVec 7) (b a d : BitVec 6) (op : BitVec 7) : fB (fmtR f b a d op) = b := by
  unfold fB
  ext i hi
  rw [BitVec.getElem_extractLsb', fmtR_bit]
  repeat' split
  all_goals first | omega | (rw [← BitVec.getLsbD_eq_getElem]; congr 1; omega)

@[simp] theorem fF_fmtR (f : BitVec 7) (b a d : BitVec 6) (op : BitVec 7) : fF (fmtR f b a d op) = f := by
  unfold fF
  ext i hi
  rw [BitVec.getElem_extractLsb', fmtR_bit]
  repeat' split
  all_goals first | omega | (rw [← BitVec.getLsbD_eq_getElem]; congr 1; omega)

theorem fmtI_bit (imm : BitVec 13) (a d : BitVec 6) (op : BitVec 7) (i : Nat) :
    (fmtI imm a d op).getLsbD i = if i < 7 then op.getLsbD (i - 0) else if i < 13 then d.getLsbD (i - 7) else if i < 19 then a.getLsbD (i - 13) else imm.getLsbD (i - 19) := by
  refine (BitVec.getLsbD_append (x := imm ++ a ++ d) (y := op)).trans ?_
  simp only [BitVec.getLsbD_append]
  repeat' split
  all_goals first | rfl | omega

@[simp] theorem fOp_fmtI (imm : BitVec 13) (a d : BitVec 6) (op : BitVec 7) : fOp (fmtI imm a d op) = op := by
  unfold fOp
  ext i hi
  rw [BitVec.getElem_extractLsb', fmtI_bit]
  repeat' split
  all_goals first | omega | (rw [← BitVec.getLsbD_eq_getElem]; congr 1; omega)

@[simp] theorem fD_fmtI (imm : BitVec 13) (a d : BitVec 6) (op : BitVec 7) : fD (fmtI imm a d op) = d := by
  unfold fD
  ext i hi
  rw [BitVec.getElem_extractLsb', fmtI_bit]
  repeat' split
  all_goals first | omega | (rw [← BitVec.getLsbD_eq_getElem]; congr 1; omega)

@[simp] theorem fA_fmtI (imm : BitVec 13) (a d : BitVec 6) (op : BitVec 7) : fA (fmtI imm a d op) = a := by
  unfold fA
  ext i hi
  rw [BitVec.getElem_extractLsb', fmtI_bit]
  repeat' split
  all_goals first | omega | (rw [← BitVec.getLsbD_eq_getElem]; congr 1; omega)

@[simp] theorem fImm13_fmtI (imm : BitVec 13) (a d : BitVec 6) (op : BitVec 7) : fImm13 (fmtI imm a d op) = imm := by
  unfold fImm13
  ext i hi
  rw [BitVec.getElem_extractLsb', fmtI_bit]
  repeat' split
  all_goals first | omega | (rw [← BitVec.getLsbD_eq_getElem]; congr 1; omega)

theorem fmtU_bit (imm : BitVec 19) (d : BitVec 6) (op : BitVec 7) (i : Nat) :
    (fmtU imm d op).getLsbD i = if i < 7 then op.getLsbD (i - 0) else if i < 13 then d.getLsbD (i - 7) else imm.getLsbD (i - 13) := by
  refine (BitVec.getLsbD_append (x := imm ++ d) (y := op)).trans ?_
  simp only [BitVec.getLsbD_append]
  repeat' split
  all_goals first | rfl | omega

@[simp] theorem fOp_fmtU (imm : BitVec 19) (d : BitVec 6) (op : BitVec 7) : fOp (fmtU imm d op) = op := by
  unfold fOp
  ext i hi
  rw [BitVec.getElem_extractLsb', fmtU_bit]
  repeat' split
  all_goals first | omega | (rw [← BitVec.getLsbD_eq_getElem]; congr 1; omega)

@[simp] theorem fD_fmtU (imm : BitVec 19) (d : BitVec 6) (op : BitVec 7) : fD (fmtU imm d op) = d := by
  unfold fD
  ext i hi
  rw [BitVec.getElem_extractLsb', fmtU_bit]
  repeat' split
  all_goals first | omega | (rw [← BitVec.getLsbD_eq_getElem]; congr 1; omega)

@[simp] theorem fImm19_fmtU (imm : BitVec 19) (d : BitVec 6) (op : BitVec 7) : fImm19 (fmtU imm d op) = imm := by
  unfold fImm19
  ext i hi
  rw [BitVec.getElem_extractLsb', fmtU_bit]
  repeat' split
  all_goals first | omega | (rw [← BitVec.getLsbD_eq_getElem]; congr 1; omega)

theorem fmtV_bit (sub : BitVec 4) (p : PNum) (b a d : BitVec 6) (op : BitVec 7) (i : Nat) :
    (fmtV sub p b a d op).getLsbD i = if i < 7 then op.getLsbD (i - 0) else if i < 13 then d.getLsbD (i - 7) else if i < 19 then a.getLsbD (i - 13) else if i < 25 then b.getLsbD (i - 19) else if i < 28 then p.getLsbD (i - 25) else sub.getLsbD (i - 28) := by
  refine (BitVec.getLsbD_append (x := sub ++ p ++ b ++ a ++ d) (y := op)).trans ?_
  simp only [BitVec.getLsbD_append]
  repeat' split
  all_goals first | rfl | omega

@[simp] theorem fOp_fmtV (sub : BitVec 4) (p : PNum) (b a d : BitVec 6) (op : BitVec 7) : fOp (fmtV sub p b a d op) = op := by
  unfold fOp
  ext i hi
  rw [BitVec.getElem_extractLsb', fmtV_bit]
  repeat' split
  all_goals first | omega | (rw [← BitVec.getLsbD_eq_getElem]; congr 1; omega)

@[simp] theorem fD_fmtV (sub : BitVec 4) (p : PNum) (b a d : BitVec 6) (op : BitVec 7) : fD (fmtV sub p b a d op) = d := by
  unfold fD
  ext i hi
  rw [BitVec.getElem_extractLsb', fmtV_bit]
  repeat' split
  all_goals first | omega | (rw [← BitVec.getLsbD_eq_getElem]; congr 1; omega)

@[simp] theorem fA_fmtV (sub : BitVec 4) (p : PNum) (b a d : BitVec 6) (op : BitVec 7) : fA (fmtV sub p b a d op) = a := by
  unfold fA
  ext i hi
  rw [BitVec.getElem_extractLsb', fmtV_bit]
  repeat' split
  all_goals first | omega | (rw [← BitVec.getLsbD_eq_getElem]; congr 1; omega)

@[simp] theorem fB_fmtV (sub : BitVec 4) (p : PNum) (b a d : BitVec 6) (op : BitVec 7) : fB (fmtV sub p b a d op) = b := by
  unfold fB
  ext i hi
  rw [BitVec.getElem_extractLsb', fmtV_bit]
  repeat' split
  all_goals first | omega | (rw [← BitVec.getLsbD_eq_getElem]; congr 1; omega)

@[simp] theorem fP_fmtV (sub : BitVec 4) (p : PNum) (b a d : BitVec 6) (op : BitVec 7) : fP (fmtV sub p b a d op) = p := by
  unfold fP
  ext i hi
  rw [BitVec.getElem_extractLsb', fmtV_bit]
  repeat' split
  all_goals first | omega | (rw [← BitVec.getLsbD_eq_getElem]; congr 1; omega)

@[simp] theorem fSub_fmtV (sub : BitVec 4) (p : PNum) (b a d : BitVec 6) (op : BitVec 7) : fSub (fmtV sub p b a d op) = sub := by
  unfold fSub
  ext i hi
  rw [BitVec.getElem_extractLsb', fmtV_bit]
  repeat' split
  all_goals first | omega | (rw [← BitVec.getLsbD_eq_getElem]; congr 1; omega)

theorem fmtVM_bit (off : BitVec 9) (t : BitVec 4) (a d : BitVec 6) (op : BitVec 7) (i : Nat) :
    (fmtVM off t a d op).getLsbD i = if i < 7 then op.getLsbD (i - 0) else if i < 13 then d.getLsbD (i - 7) else if i < 19 then a.getLsbD (i - 13) else if i < 23 then t.getLsbD (i - 19) else off.getLsbD (i - 23) := by
  refine (BitVec.getLsbD_append (x := off ++ t ++ a ++ d) (y := op)).trans ?_
  simp only [BitVec.getLsbD_append]
  repeat' split
  all_goals first | rfl | omega

@[simp] theorem fOp_fmtVM (off : BitVec 9) (t : BitVec 4) (a d : BitVec 6) (op : BitVec 7) : fOp (fmtVM off t a d op) = op := by
  unfold fOp
  ext i hi
  rw [BitVec.getElem_extractLsb', fmtVM_bit]
  repeat' split
  all_goals first | omega | (rw [← BitVec.getLsbD_eq_getElem]; congr 1; omega)

@[simp] theorem fD_fmtVM (off : BitVec 9) (t : BitVec 4) (a d : BitVec 6) (op : BitVec 7) : fD (fmtVM off t a d op) = d := by
  unfold fD
  ext i hi
  rw [BitVec.getElem_extractLsb', fmtVM_bit]
  repeat' split
  all_goals first | omega | (rw [← BitVec.getLsbD_eq_getElem]; congr 1; omega)

@[simp] theorem fA_fmtVM (off : BitVec 9) (t : BitVec 4) (a d : BitVec 6) (op : BitVec 7) : fA (fmtVM off t a d op) = a := by
  unfold fA
  ext i hi
  rw [BitVec.getElem_extractLsb', fmtVM_bit]
  repeat' split
  all_goals first | omega | (rw [← BitVec.getLsbD_eq_getElem]; congr 1; omega)

@[simp] theorem fTagVm_fmtVM (off : BitVec 9) (t : BitVec 4) (a d : BitVec 6) (op : BitVec 7) : fTagVm (fmtVM off t a d op) = t := by
  unfold fTagVm
  ext i hi
  rw [BitVec.getElem_extractLsb', fmtVM_bit]
  repeat' split
  all_goals first | omega | (rw [← BitVec.getLsbD_eq_getElem]; congr 1; omega)

@[simp] theorem fOff9_fmtVM (off : BitVec 9) (t : BitVec 4) (a d : BitVec 6) (op : BitVec 7) : fOff9 (fmtVM off t a d op) = off := by
  unfold fOff9
  ext i hi
  rw [BitVec.getElem_extractLsb', fmtVM_bit]
  repeat' split
  all_goals first | omega | (rw [← BitVec.getLsbD_eq_getElem]; congr 1; omega)

theorem fmtS_eq (imm : BitVec 13) (b a : BitVec 6) (op : BitVec 7) :
    fmtS imm b a op = fmtR (imm.extractLsb' 6 7) b a (imm.extractLsb' 0 6) op := rfl

@[simp] theorem fOp_fmtS (imm : BitVec 13) (b a : BitVec 6) (op : BitVec 7) : fOp (fmtS imm b a op) = op := by
  simp [fmtS_eq]
@[simp] theorem fA_fmtS (imm : BitVec 13) (b a : BitVec 6) (op : BitVec 7) : fA (fmtS imm b a op) = a := by
  simp [fmtS_eq]
@[simp] theorem fB_fmtS (imm : BitVec 13) (b a : BitVec 6) (op : BitVec 7) : fB (fmtS imm b a op) = b := by
  simp [fmtS_eq]
@[simp] theorem fImmS_fmtS (imm : BitVec 13) (b a : BitVec 6) (op : BitVec 7) : fImmS (fmtS imm b a op) = imm := by
  simp only [fImmS, fmtS_eq, fF_fmtR, fD_fmtR]
  ext i hi
  rw [← BitVec.getLsbD_eq_getElem]
  refine (BitVec.getLsbD_append (x := imm.extractLsb' 6 7) (y := imm.extractLsb' 0 6)).trans ?_
  rw [← BitVec.getLsbD_eq_getElem]
  split <;> (simp only [BitVec.getLsbD_extractLsb']; grind)

theorem fmtM_bit (n : BitVec 3) (a : BitVec 6) (e : BitVec 8) (op : BitVec 7) (i : Nat) :
    (fmtM n a e op).getLsbD i = if i < 7 then op.getLsbD (i - 0) else if i < 15 then e.getLsbD (i - 7)
      else if i < 21 then a.getLsbD (i - 15) else if i < 24 then n.getLsbD (i - 21) else false := by
  refine (BitVec.getLsbD_append (x := (0 : BitVec 8) ++ n ++ a ++ e) (y := op)).trans ?_
  simp only [BitVec.getLsbD_append]
  repeat' split
  all_goals first | omega | rfl | (simp; done)

@[simp] theorem fOp_fmtM (n : BitVec 3) (a : BitVec 6) (e : BitVec 8) (op : BitVec 7) : fOp (fmtM n a e op) = op := by
  unfold fOp
  ext i hi
  rw [BitVec.getElem_extractLsb', fmtM_bit]
  repeat' split
  all_goals first | omega | (rw [← BitVec.getLsbD_eq_getElem]; congr 1; omega)

@[simp] theorem fmtM_n (n : BitVec 3) (a : BitVec 6) (e : BitVec 8) (op : BitVec 7) :
    (fmtM n a e op).extractLsb' 21 3 = n := by
  ext i hi
  rw [BitVec.getElem_extractLsb', fmtM_bit]
  repeat' split
  all_goals first | omega | (rw [← BitVec.getLsbD_eq_getElem]; congr 1; omega)

@[simp] theorem fmtM_a (n : BitVec 3) (a : BitVec 6) (e : BitVec 8) (op : BitVec 7) :
    (fmtM n a e op).extractLsb' 15 6 = a := by
  ext i hi
  rw [BitVec.getElem_extractLsb', fmtM_bit]
  repeat' split
  all_goals first | omega | (rw [← BitVec.getLsbD_eq_getElem]; congr 1; omega)

@[simp] theorem fmtM_e (n : BitVec 3) (a : BitVec 6) (e : BitVec 8) (op : BitVec 7) :
    (fmtM n a e op).extractLsb' 7 8 = e := by
  ext i hi
  rw [BitVec.getElem_extractLsb', fmtM_bit]
  repeat' split
  all_goals first | omega | (rw [← BitVec.getLsbD_eq_getElem]; congr 1; omega)

@[simp] theorem fmtM_top (n : BitVec 3) (a : BitVec 6) (e : BitVec 8) (op : BitVec 7) :
    (fmtM n a e op).extractLsb' 24 8 = 0 := by
  ext i hi
  rw [BitVec.getElem_extractLsb', fmtM_bit]
  repeat' split
  all_goals first | omega | simp

theorem loopi_bit (len : BitVec 13) (count : BitVec 11) (l : BitVec 1) (op : BitVec 7) (i : Nat) :
    BitVec.getLsbD (len ++ count ++ l ++ op : BitVec 32) i = if i < 7 then op.getLsbD (i - 0)
      else if i < 8 then l.getLsbD (i - 7) else if i < 19 then count.getLsbD (i - 8) else len.getLsbD (i - 19) := by
  refine (BitVec.getLsbD_append (x := len ++ count ++ l) (y := op)).trans ?_
  simp only [BitVec.getLsbD_append]
  repeat' split
  all_goals first | rfl | omega

@[simp] theorem loopi_op (len : BitVec 13) (count : BitVec 11) (l : BitVec 1) (op : BitVec 7) :
    fOp (len ++ count ++ l ++ op) = op := by
  unfold fOp
  ext i hi
  rw [BitVec.getElem_extractLsb', loopi_bit]
  repeat' split
  all_goals first | omega | (rw [← BitVec.getLsbD_eq_getElem]; congr 1; omega)
@[simp] theorem loopi_len (len : BitVec 13) (count : BitVec 11) (l : BitVec 1) (op : BitVec 7) :
    fImm13 (len ++ count ++ l ++ op) = len := by
  unfold fImm13
  ext i hi
  rw [BitVec.getElem_extractLsb', loopi_bit]
  repeat' split
  all_goals first | omega | (rw [← BitVec.getLsbD_eq_getElem]; congr 1; omega)
@[simp] theorem loopi_count (len : BitVec 13) (count : BitVec 11) (l : BitVec 1) (op : BitVec 7) :
    BitVec.extractLsb' 8 11 (len ++ count ++ l ++ op : BitVec 32) = count := by
  ext i hi
  rw [BitVec.getElem_extractLsb', loopi_bit]
  repeat' split
  all_goals first | omega | (rw [← BitVec.getLsbD_eq_getElem]; congr 1; omega)
@[simp] theorem loopi_lvl (len : BitVec 13) (count : BitVec 11) (l : Bool) (op : BitVec 7) :
    (len ++ count ++ BitVec.ofBool l ++ op : BitVec 32)[7] = l := by
  rw [← BitVec.getLsbD_eq_getElem, loopi_bit]; simp

@[simp] theorem fmtI_bit7 (imm : BitVec 13) (a d : BitVec 6) (op : BitVec 7) : (fmtI imm a d op)[7] = d[0] := by
  rw [← BitVec.getLsbD_eq_getElem, fmtI_bit]; simp

/-- The narrow fields read back what `up5` and its like put there. -/
@[simp] theorem lo5_up5 (v : BitVec 5) : lo5 (up5 v) = v := by revert v; decide
@[simp] theorem lo4_up4 (v : BitVec 4) : lo4 (up4 v) = v := by revert v; decide
@[simp] theorem lo3_up3 (v : BitVec 3) : lo3 (up3 v) = v := by revert v; decide
@[simp] theorem lo2_up2 (v : BitVec 2) : lo2 (up2 v) = v := by revert v; decide
@[simp] theorem fits_up5 (v : BitVec 5) : fits 5 (up5 v) = true := by revert v; decide
@[simp] theorem fits_up4 (v : BitVec 4) : fits 4 (up4 v) = true := by revert v; decide
@[simp] theorem fits_up3 (v : BitVec 3) : fits 3 (up3 v) = true := by revert v; decide
@[simp] theorem fits_up2 (v : BitVec 2) : fits 2 (up2 v) = true := by revert v; decide
@[simp] theorem tag_ofCode_code (t : Tag) : Tag.ofCode t.code = t := by cases t <;> decide
@[simp] theorem scope_ofCode_code (t : Scope) : Scope.ofCode t.code = some t := by cases t <;> decide
@[simp] theorem width_ofCode_code (t : Width) : Width.ofCode t.code = t := by cases t <;> decide
@[simp] theorem order_ofCode_code (t : Order) : Order.ofCode t.code = t := by cases t <;> decide
@[simp] theorem awidth_ofBit_bit (t : AWidth) : AWidth.ofBit t.bit = t := by cases t <;> decide
@[simp] theorem sysReg_ofNum_num (r : SysReg) : SysReg.ofNum r.num = some r := by
  cases r with
  | bpa i => revert i; decide
  | wpa i => revert i; decide
  | wpm i => revert i; decide
  | _ => decide
@[simp] theorem fLda_width (wd : Width) (sc : Scope) : (fLda wd sc).extractLsb' 0 2 = wd.code := by
  cases wd <;> cases sc <;> decide
@[simp] theorem fLda_scope (wd : Width) (sc : Scope) : (fLda wd sc).extractLsb' 2 3 = sc.code := by
  cases wd <;> cases sc <;> decide
@[simp] theorem fLda_top (wd : Width) (sc : Scope) : (fLda wd sc).extractLsb' 5 2 = 0 := by
  cases wd <;> cases sc <;> decide
@[simp] theorem fAmo_op (op : BitVec 4) (wd : AWidth) (o : Order) : (fAmo op wd o).extractLsb' 0 4 = op := by
  revert op; cases wd <;> cases o <;> decide
@[simp] theorem fAmo_width (op : BitVec 4) (wd : AWidth) (o : Order) : (fAmo op wd o).extractLsb' 4 1 = wd.bit := by
  revert op; cases wd <;> cases o <;> decide
@[simp] theorem fAmo_order (op : BitVec 4) (wd : AWidth) (o : Order) : (fAmo op wd o).extractLsb' 5 2 = o.code := by
  revert op; cases wd <;> cases o <;> decide
@[simp] theorem fVs_pred (p : PNum) (t : BitVec 4) : (fVs p t).extractLsb' 4 3 = p := by revert p t; decide
@[simp] theorem fVs_tag (p : PNum) (t : BitVec 4) : (fVs p t).extractLsb' 0 4 = t := by revert p t; decide

@[simp] theorem low2_group (g : BitVec 4) : lo2 (g ++ 0#2) = 0#2 := by revert g; decide
@[simp] theorem high4_group (g : BitVec 4) : BitVec.extractLsb' 2 4 (g ++ 0#2) = g := by revert g; decide
@[simp] theorem fits_part (q : BitVec 3) (s : BitVec 2) : fits 5 (0#1 ++ q ++ s) = true := by revert q s; decide
@[simp] theorem slot_part (q : BitVec 3) (s : BitVec 2) : lo2 (0#1 ++ q ++ s) = s := by revert q s; decide
@[simp] theorem part_part (q : BitVec 3) (s : BitVec 2) : BitVec.extractLsb' 2 3 (0#1 ++ q ++ s) = q := by revert q s; decide
@[simp] theorem mode_bp (k p : BitVec 3) : (k ++ p).toNat >>> 3 % 8 = k.toNat := by revert k p; decide
@[simp] theorem pred_bp (k p : BitVec 3) : lo3 (k ++ p) = p := by revert k p; decide
@[simp] theorem safept_top (n : BitVec 8) : BitVec.extractLsb' 8 5 (0#5 ++ n) = 0#5 := by revert n; decide
@[simp] theorem safept_low (n : BitVec 8) : BitVec.extractLsb' 0 8 (0#5 ++ n) = n := by revert n; decide

end Sys2Proof
end

