-- ==== Sys2Proof/Laws/Majors.lean ====
section
/-!
SUPPORT. Which part of the decoder reads a major opcode (11 R168).
-/
namespace Sys2Proof

theorem decodeWord_01 (w : IWord) (h : fOp w = 0x01) : decodeWord w = decAlu w := by
  unfold decodeWord decodeMain; rw [h]; rfl
theorem decodeWord_02 (w : IWord) (h : fOp w = 0x02) : decodeWord w = .ok (.addi (fD w) (fA w) (fImm13 w)) := by
  unfold decodeWord decodeMain; rw [h]; rfl
theorem decodeWord_03 (w : IWord) (h : fOp w = 0x03) : decodeWord w = .ok (.andi (fD w) (fA w) (fImm13 w)) := by
  unfold decodeWord decodeMain; rw [h]; rfl
theorem decodeWord_04 (w : IWord) (h : fOp w = 0x04) : decodeWord w = .ok (.ori (fD w) (fA w) (fImm13 w)) := by
  unfold decodeWord decodeMain; rw [h]; rfl
theorem decodeWord_05 (w : IWord) (h : fOp w = 0x05) : decodeWord w = .ok (.xori (fD w) (fA w) (fImm13 w)) := by
  unfold decodeWord decodeMain; rw [h]; rfl
theorem decodeWord_06 (w : IWord) (h : fOp w = 0x06) : decodeWord w = .ok (.slti (fD w) (fA w) (fImm13 w)) := by
  unfold decodeWord decodeMain; rw [h]; rfl
theorem decodeWord_07 (w : IWord) (h : fOp w = 0x07) : decodeWord w = .ok (.sltin (fD w) (fA w) (fImm13 w)) := by
  unfold decodeWord decodeMain; rw [h]; rfl
theorem decodeWord_08 (w : IWord) (h : fOp w = 0x08) : decodeWord w = decShiftImm w := by
  unfold decodeWord decodeMain; rw [h]; rfl
theorem decodeWord_09 (w : IWord) (h : fOp w = 0x09) : decodeWord w = .ok (.liu (fD w) (fImm19 w)) := by
  unfold decodeWord decodeMain; rw [h]; rfl
theorem decodeWord_0A (w : IWord) (h : fOp w = 0x0A) : decodeWord w = .ok (.addpc (fD w) (fImm19 w)) := by
  unfold decodeWord decodeMain; rw [h]; rfl
theorem decodeWord_0B (w : IWord) (h : fOp w = 0x0B) : decodeWord w = decSys w := by
  unfold decodeWord decodeMain; rw [h]; rfl
theorem decodeWord_0C (w : IWord) (h : fOp w = 0x0C) : decodeWord w = decSys w := by
  unfold decodeWord decodeMain; rw [h]; rfl
theorem decodeWord_10 (w : IWord) (h : fOp w = 0x10) : decodeWord w = .ok (.ldB (fD w) (fA w) (fImm13 w)) := by
  unfold decodeWord decodeMain; rw [h]; rfl
theorem decodeWord_11 (w : IWord) (h : fOp w = 0x11) : decodeWord w = .ok (.ldH (fD w) (fA w) (fImm13 w)) := by
  unfold decodeWord decodeMain; rw [h]; rfl
theorem decodeWord_12 (w : IWord) (h : fOp w = 0x12) : decodeWord w = .ok (.ldW (fD w) (fA w) (fImm13 w)) := by
  unfold decodeWord decodeMain; rw [h]; rfl
theorem decodeWord_13 (w : IWord) (h : fOp w = 0x13) : decodeWord w = .ok (.ldD (fD w) (fA w) (fImm13 w)) := by
  unfold decodeWord decodeMain; rw [h]; rfl
theorem decodeWord_14 (w : IWord) (h : fOp w = 0x14) : decodeWord w = .ok (.ldBn (fD w) (fA w) (fImm13 w)) := by
  unfold decodeWord decodeMain; rw [h]; rfl
theorem decodeWord_15 (w : IWord) (h : fOp w = 0x15) : decodeWord w = .ok (.ldHn (fD w) (fA w) (fImm13 w)) := by
  unfold decodeWord decodeMain; rw [h]; rfl
theorem decodeWord_16 (w : IWord) (h : fOp w = 0x16) : decodeWord w = .ok (.ldWn (fD w) (fA w) (fImm13 w)) := by
  unfold decodeWord decodeMain; rw [h]; rfl
theorem decodeWord_18 (w : IWord) (h : fOp w = 0x18) : decodeWord w = .ok (.stB (fA w) (fB w) (fImmS w)) := by
  unfold decodeWord decodeMain; rw [h]; rfl
theorem decodeWord_19 (w : IWord) (h : fOp w = 0x19) : decodeWord w = .ok (.stH (fA w) (fB w) (fImmS w)) := by
  unfold decodeWord decodeMain; rw [h]; rfl
theorem decodeWord_1A (w : IWord) (h : fOp w = 0x1A) : decodeWord w = .ok (.stW (fA w) (fB w) (fImmS w)) := by
  unfold decodeWord decodeMain; rw [h]; rfl
theorem decodeWord_1B (w : IWord) (h : fOp w = 0x1B) : decodeWord w = .ok (.stD (fA w) (fB w) (fImmS w)) := by
  unfold decodeWord decodeMain; rw [h]; rfl
theorem decodeWord_1C (w : IWord) (h : fOp w = 0x1C) : decodeWord w = decLda w := by
  unfold decodeWord decodeMain; rw [h]; rfl
theorem decodeWord_1D (w : IWord) (h : fOp w = 0x1D) : decodeWord w = decStl w := by
  unfold decodeWord decodeMain; rw [h]; rfl
theorem decodeWord_1E (w : IWord) (h : fOp w = 0x1E) : decodeWord w = decPref w := by
  unfold decodeWord decodeMain; rw [h]; rfl
theorem decodeWord_1F (w : IWord) (h : fOp w = 0x1F) : decodeWord w = decCacheOp w := by
  unfold decodeWord decodeMain; rw [h]; rfl
theorem decodeWord_20 (w : IWord) (h : fOp w = 0x20) : decodeWord w = .ok (.spldW (fD w) (fA w) (fImm13 w)) := by
  unfold decodeWord decodeMain; rw [h]; rfl
theorem decodeWord_21 (w : IWord) (h : fOp w = 0x21) : decodeWord w = .ok (.spldD (fD w) (fA w) (fImm13 w)) := by
  unfold decodeWord decodeMain; rw [h]; rfl
theorem decodeWord_22 (w : IWord) (h : fOp w = 0x22) : decodeWord w = .ok (.spstW (fA w) (fB w) (fImmS w)) := by
  unfold decodeWord decodeMain; rw [h]; rfl
theorem decodeWord_23 (w : IWord) (h : fOp w = 0x23) : decodeWord w = .ok (.spstD (fA w) (fB w) (fImmS w)) := by
  unfold decodeWord decodeMain; rw [h]; rfl
theorem decodeWord_24 (w : IWord) (h : fOp w = 0x24) : decodeWord w = decVm w := by
  unfold decodeWord decodeMain; rw [h]; rfl
theorem decodeWord_25 (w : IWord) (h : fOp w = 0x25) : decodeWord w = decVm w := by
  unfold decodeWord decodeMain; rw [h]; rfl
theorem decodeWord_26 (w : IWord) (h : fOp w = 0x26) : decodeWord w = decVm w := by
  unfold decodeWord decodeMain; rw [h]; rfl
theorem decodeWord_27 (w : IWord) (h : fOp w = 0x27) : decodeWord w = decVm w := by
  unfold decodeWord decodeMain; rw [h]; rfl
theorem decodeWord_28 (w : IWord) (h : fOp w = 0x28) : decodeWord w = decVs w := by
  unfold decodeWord decodeMain; rw [h]; rfl
theorem decodeWord_29 (w : IWord) (h : fOp w = 0x29) : decodeWord w = decVs w := by
  unfold decodeWord decodeMain; rw [h]; rfl
theorem decodeWord_2A (w : IWord) (h : fOp w = 0x2A) : decodeWord w = decVs w := by
  unfold decodeWord decodeMain; rw [h]; rfl
theorem decodeWord_2B (w : IWord) (h : fOp w = 0x2B) : decodeWord w = decVs w := by
  unfold decodeWord decodeMain; rw [h]; rfl
theorem decodeWord_30 (w : IWord) (h : fOp w = 0x30) : decodeWord w = .ok (.beq (fD w) (fA w) (fImm13 w)) := by
  unfold decodeWord decodeMain; rw [h]; rfl
theorem decodeWord_31 (w : IWord) (h : fOp w = 0x31) : decodeWord w = .ok (.bne (fD w) (fA w) (fImm13 w)) := by
  unfold decodeWord decodeMain; rw [h]; rfl
theorem decodeWord_32 (w : IWord) (h : fOp w = 0x32) : decodeWord w = .ok (.blt (fD w) (fA w) (fImm13 w)) := by
  unfold decodeWord decodeMain; rw [h]; rfl
theorem decodeWord_33 (w : IWord) (h : fOp w = 0x33) : decodeWord w = .ok (.bge (fD w) (fA w) (fImm13 w)) := by
  unfold decodeWord decodeMain; rw [h]; rfl
theorem decodeWord_34 (w : IWord) (h : fOp w = 0x34) : decodeWord w = .ok (.bltn (fD w) (fA w) (fImm13 w)) := by
  unfold decodeWord decodeMain; rw [h]; rfl
theorem decodeWord_35 (w : IWord) (h : fOp w = 0x35) : decodeWord w = .ok (.bgen (fD w) (fA w) (fImm13 w)) := by
  unfold decodeWord decodeMain; rw [h]; rfl
theorem decodeWord_36 (w : IWord) (h : fOp w = 0x36) : decodeWord w = decBp w := by
  unfold decodeWord decodeMain; rw [h]; rfl
theorem decodeWord_37 (w : IWord) (h : fOp w = 0x37) : decodeWord w = .ok (.j (fD w) (fImm19 w)) := by
  unfold decodeWord decodeMain; rw [h]; rfl
theorem decodeWord_38 (w : IWord) (h : fOp w = 0x38) : decodeWord w = .ok (.jr (fD w) (fA w) (fImm13 w)) := by
  unfold decodeWord decodeMain; rw [h]; rfl
theorem decodeWord_39 (w : IWord) (h : fOp w = 0x39) : decodeWord w = decLoop w := by
  unfold decodeWord decodeMain; rw [h]; rfl
theorem decodeWord_3A (w : IWord) (h : fOp w = 0x3A) : decodeWord w = decLoop w := by
  unfold decodeWord decodeMain; rw [h]; rfl
theorem decodeWord_40 (w : IWord) (h : fOp w = 0x40) : decodeWord w = decV40 w := by
  unfold decodeWord decodeMain; rw [h]; rfl
theorem decodeWord_41 (w : IWord) (h : fOp w = 0x41) : decodeWord w = decV41 w := by
  unfold decodeWord decodeMain; rw [h]; rfl
theorem decodeWord_42 (w : IWord) (h : fOp w = 0x42) : decodeWord w = decV42 w := by
  unfold decodeWord decodeMain; rw [h]; rfl
theorem decodeWord_43 (w : IWord) (h : fOp w = 0x43) : decodeWord w = decV43 w := by
  unfold decodeWord decodeMain; rw [h]; rfl
theorem decodeWord_44 (w : IWord) (h : fOp w = 0x44) : decodeWord w = decV44 w := by
  unfold decodeWord decodeMain; rw [h]; rfl
theorem decodeWord_45 (w : IWord) (h : fOp w = 0x45) : decodeWord w = decV45 w := by
  unfold decodeWord decodeMain; rw [h]; rfl
theorem decodeWord_46 (w : IWord) (h : fOp w = 0x46) : decodeWord w = decV46 w := by
  unfold decodeWord decodeMain; rw [h]; rfl
theorem decodeWord_47 (w : IWord) (h : fOp w = 0x47) : decodeWord w = decTable w := by
  unfold decodeWord decodeMain; rw [h]; rfl
theorem decodeWord_48 (w : IWord) (h : fOp w = 0x48) : decodeWord w = decPred w := by
  unfold decodeWord decodeMain; rw [h]; rfl
theorem decodeWord_49 (w : IWord) (h : fOp w = 0x49) : decodeWord w = decV49 w := by
  unfold decodeWord decodeMain; rw [h]; rfl
theorem decodeWord_50 (w : IWord) (h : fOp w = 0x50) : decodeWord w = decSplice w := by
  unfold decodeWord decodeMain; rw [h]; rfl
theorem decodeWord_51 (w : IWord) (h : fOp w = 0x51) : decodeWord w = decSplice w := by
  unfold decodeWord decodeMain; rw [h]; rfl
theorem decodeWord_52 (w : IWord) (h : fOp w = 0x52) : decodeWord w = decSplice w := by
  unfold decodeWord decodeMain; rw [h]; rfl
theorem decodeWord_53 (w : IWord) (h : fOp w = 0x53) : decodeWord w = decSplice w := by
  unfold decodeWord decodeMain; rw [h]; rfl
theorem decodeWord_54 (w : IWord) (h : fOp w = 0x54) : decodeWord w = decSplice w := by
  unfold decodeWord decodeMain; rw [h]; rfl
theorem decodeWord_55 (w : IWord) (h : fOp w = 0x55) : decodeWord w = decSplice w := by
  unfold decodeWord decodeMain; rw [h]; rfl
theorem decodeWord_56 (w : IWord) (h : fOp w = 0x56) : decodeWord w = decSplice w := by
  unfold decodeWord decodeMain; rw [h]; rfl
theorem decodeWord_58 (w : IWord) (h : fOp w = 0x58) : decodeWord w = decReeve w := by
  unfold decodeWord decodeMain; rw [h]; rfl
theorem decodeWord_59 (w : IWord) (h : fOp w = 0x59) : decodeWord w = decReeve w := by
  unfold decodeWord decodeMain; rw [h]; rfl
theorem decodeWord_5A (w : IWord) (h : fOp w = 0x5A) : decodeWord w = decReeve w := by
  unfold decodeWord decodeMain; rw [h]; rfl
theorem decodeWord_5B (w : IWord) (h : fOp w = 0x5B) : decodeWord w = decReeve w := by
  unfold decodeWord decodeMain; rw [h]; rfl
theorem decodeWord_5C (w : IWord) (h : fOp w = 0x5C) : decodeWord w = decReeve w := by
  unfold decodeWord decodeMain; rw [h]; rfl
theorem decodeWord_5D (w : IWord) (h : fOp w = 0x5D) : decodeWord w = decReeve w := by
  unfold decodeWord decodeMain; rw [h]; rfl
theorem decodeWord_5E (w : IWord) (h : fOp w = 0x5E) : decodeWord w = decReeve w := by
  unfold decodeWord decodeMain; rw [h]; rfl
theorem decodeWord_60 (w : IWord) (h : fOp w = 0x60) : decodeWord w = decAmo w := by
  unfold decodeWord decodeMain; rw [h]; rfl
theorem decodeWord_61 (w : IWord) (h : fOp w = 0x61) : decodeWord w = decRed w := by
  unfold decodeWord decodeMain; rw [h]; rfl
theorem decodeWord_62 (w : IWord) (h : fOp w = 0x62) : decodeWord w = need (decide ((fF w).extractLsb' 1 6 = 0)) (.cas (fD w) (fA w) (fB w) (AWidth.ofBit ((fF w).extractLsb' 0 1))) := by
  unfold decodeWord decodeMain; rw [h]; rfl
theorem decodeWord_63 (w : IWord) (h : fOp w = 0x63) : decodeWord w = need (bZero w && fZero w && chunkOk (fD w)) (.chunk (fD w) (fA w)) := by
  unfold decodeWord decodeMain; rw [h]; rfl
theorem decodeWord_64 (w : IWord) (h : fOp w = 0x64) : decodeWord w = decFence w := by
  unfold decodeWord decodeMain; rw [h]; rfl
theorem decodeWord_65 (w : IWord) (h : fOp w = 0x65) : decodeWord w = decBarrier w := by
  unfold decodeWord decodeMain; rw [h]; rfl
theorem decodeWord_66 (w : IWord) (h : fOp w = 0x66) : decodeWord w = decIsync w := by
  unfold decodeWord decodeMain; rw [h]; rfl
theorem decodeWord_68 (w : IWord) (h : fOp w = 0x68) : decodeWord w = decRing w := by
  unfold decodeWord decodeMain; rw [h]; rfl
theorem decodeWord_70 (w : IWord) (h : fOp w = 0x70) : decodeWord w = decSend w := by
  unfold decodeWord decodeMain; rw [h]; rfl
theorem decodeWord_71 (w : IWord) (h : fOp w = 0x71) : decodeWord w = decMpop w := by
  unfold decodeWord decodeMain; rw [h]; rfl
theorem decodeWord_72 (w : IWord) (h : fOp w = 0x72) : decodeWord w = decTagOp w := by
  unfold decodeWord decodeMain; rw [h]; rfl
theorem decodeWord_73 (w : IWord) (h : fOp w = 0x73) : decodeWord w = decEnd w := by
  unfold decodeWord decodeMain; rw [h]; rfl
theorem decodeWord_74 (w : IWord) (h : fOp w = 0x74) : decodeWord w = need (dZero w && fZero w) (.fork (fA w) (fB w)) := by
  unfold decodeWord decodeMain; rw [h]; rfl
theorem decodeWord_75 (w : IWord) (h : fOp w = 0x75) : decodeWord w = decSafept w := by
  unfold decodeWord decodeMain; rw [h]; rfl
theorem decodeWord_78 (w : IWord) (h : fOp w = 0x78) : decodeWord w = need (dZero w && aZero w) (.trap (fImm13 w)) := by
  unfold decodeWord decodeMain; rw [h]; rfl
theorem decodeWord_79 (w : IWord) (h : fOp w = 0x79) : decodeWord w = need (dZero w && aZero w && decide (fImm13 w = 0)) .eret := by
  unfold decodeWord decodeMain; rw [h]; rfl
theorem decodeWord_7A (w : IWord) (h : fOp w = 0x7A) : decodeWord w = need (dZero w && aZero w) (.bkpt (fImm13 w)) := by
  unfold decodeWord decodeMain; rw [h]; rfl
theorem decodeWord_7B (w : IWord) (h : fOp w = 0x7B) : decodeWord w = decMeter w := by
  unfold decodeWord decodeMain; rw [h]; rfl
theorem decodeWord_7C (w : IWord) (h : fOp w = 0x7C) : decodeWord w = decFrame w := by
  unfold decodeWord; rw [h]; rfl
theorem decodeWord_7D (w : IWord) (h : fOp w = 0x7D) : decodeWord w = decKernel w := by
  unfold decodeWord; rw [h]; rfl

end Sys2Proof
end

