-- ==== Sys2Proof/Laws/PerInstr.lean ====
section
/-!
SUPPORT. The family RoundTrip, instruction by instruction: the decoder reads back every well-formed instruction from the
word the encoder gives it (11 R163-R169).
-/
namespace Sys2Proof.Laws.RoundTrip

set_option Elab.async false

set_option linter.unusedSimpArgs false

/-- The word of a well-formed instruction decodes to it. -/
def Statement (i : Instr) : Prop := i.wf = true → i.hasWord = true → decodeWord i.word = .ok i

theorem add (d a b : SReg) : Statement (.add d a b) := by
  intro _ _
  change decodeWord (fmtR 0x00 b a d 0x01) = _
  rw [decodeWord_01 _ (by simp only [fOp_fmtR])]
  unfold decAlu
  simp [need, bZero, aZero, dZero, fZero, vvv, vv0, vv, scopeB]

theorem sub (d a b : SReg) : Statement (.sub d a b) := by
  intro _ _
  change decodeWord (fmtR 0x01 b a d 0x01) = _
  rw [decodeWord_01 _ (by simp only [fOp_fmtR])]
  unfold decAlu
  simp [need, bZero, aZero, dZero, fZero, vvv, vv0, vv, scopeB]

theorem and (d a b : SReg) : Statement (.and d a b) := by
  intro _ _
  change decodeWord (fmtR 0x02 b a d 0x01) = _
  rw [decodeWord_01 _ (by simp only [fOp_fmtR])]
  unfold decAlu
  simp [need, bZero, aZero, dZero, fZero, vvv, vv0, vv, scopeB]

theorem or (d a b : SReg) : Statement (.or d a b) := by
  intro _ _
  change decodeWord (fmtR 0x03 b a d 0x01) = _
  rw [decodeWord_01 _ (by simp only [fOp_fmtR])]
  unfold decAlu
  simp [need, bZero, aZero, dZero, fZero, vvv, vv0, vv, scopeB]

theorem xor (d a b : SReg) : Statement (.xor d a b) := by
  intro _ _
  change decodeWord (fmtR 0x04 b a d 0x01) = _
  rw [decodeWord_01 _ (by simp only [fOp_fmtR])]
  unfold decAlu
  simp [need, bZero, aZero, dZero, fZero, vvv, vv0, vv, scopeB]

theorem andn (d a b : SReg) : Statement (.andn d a b) := by
  intro _ _
  change decodeWord (fmtR 0x05 b a d 0x01) = _
  rw [decodeWord_01 _ (by simp only [fOp_fmtR])]
  unfold decAlu
  simp [need, bZero, aZero, dZero, fZero, vvv, vv0, vv, scopeB]

theorem sll (d a b : SReg) : Statement (.sll d a b) := by
  intro _ _
  change decodeWord (fmtR 0x08 b a d 0x01) = _
  rw [decodeWord_01 _ (by simp only [fOp_fmtR])]
  unfold decAlu
  simp [need, bZero, aZero, dZero, fZero, vvv, vv0, vv, scopeB]

theorem srl (d a b : SReg) : Statement (.srl d a b) := by
  intro _ _
  change decodeWord (fmtR 0x09 b a d 0x01) = _
  rw [decodeWord_01 _ (by simp only [fOp_fmtR])]
  unfold decAlu
  simp [need, bZero, aZero, dZero, fZero, vvv, vv0, vv, scopeB]

theorem sra (d a b : SReg) : Statement (.sra d a b) := by
  intro _ _
  change decodeWord (fmtR 0x0A b a d 0x01) = _
  rw [decodeWord_01 _ (by simp only [fOp_fmtR])]
  unfold decAlu
  simp [need, bZero, aZero, dZero, fZero, vvv, vv0, vv, scopeB]

theorem rol (d a b : SReg) : Statement (.rol d a b) := by
  intro _ _
  change decodeWord (fmtR 0x0B b a d 0x01) = _
  rw [decodeWord_01 _ (by simp only [fOp_fmtR])]
  unfold decAlu
  simp [need, bZero, aZero, dZero, fZero, vvv, vv0, vv, scopeB]

theorem ror (d a b : SReg) : Statement (.ror d a b) := by
  intro _ _
  change decodeWord (fmtR 0x0C b a d 0x01) = _
  rw [decodeWord_01 _ (by simp only [fOp_fmtR])]
  unfold decAlu
  simp [need, bZero, aZero, dZero, fZero, vvv, vv0, vv, scopeB]

theorem slt (d a b : SReg) : Statement (.slt d a b) := by
  intro _ _
  change decodeWord (fmtR 0x10 b a d 0x01) = _
  rw [decodeWord_01 _ (by simp only [fOp_fmtR])]
  unfold decAlu
  simp [need, bZero, aZero, dZero, fZero, vvv, vv0, vv, scopeB]

theorem sltu (d a b : SReg) : Statement (.sltu d a b) := by
  intro _ _
  change decodeWord (fmtR 0x11 b a d 0x01) = _
  rw [decodeWord_01 _ (by simp only [fOp_fmtR])]
  unfold decAlu
  simp [need, bZero, aZero, dZero, fZero, vvv, vv0, vv, scopeB]

theorem min (d a b : SReg) : Statement (.min d a b) := by
  intro _ _
  change decodeWord (fmtR 0x12 b a d 0x01) = _
  rw [decodeWord_01 _ (by simp only [fOp_fmtR])]
  unfold decAlu
  simp [need, bZero, aZero, dZero, fZero, vvv, vv0, vv, scopeB]

theorem max (d a b : SReg) : Statement (.max d a b) := by
  intro _ _
  change decodeWord (fmtR 0x13 b a d 0x01) = _
  rw [decodeWord_01 _ (by simp only [fOp_fmtR])]
  unfold decAlu
  simp [need, bZero, aZero, dZero, fZero, vvv, vv0, vv, scopeB]

theorem minu (d a b : SReg) : Statement (.minu d a b) := by
  intro _ _
  change decodeWord (fmtR 0x14 b a d 0x01) = _
  rw [decodeWord_01 _ (by simp only [fOp_fmtR])]
  unfold decAlu
  simp [need, bZero, aZero, dZero, fZero, vvv, vv0, vv, scopeB]

theorem maxu (d a b : SReg) : Statement (.maxu d a b) := by
  intro _ _
  change decodeWord (fmtR 0x15 b a d 0x01) = _
  rw [decodeWord_01 _ (by simp only [fOp_fmtR])]
  unfold decAlu
  simp [need, bZero, aZero, dZero, fZero, vvv, vv0, vv, scopeB]

theorem seq (d a b : SReg) : Statement (.seq d a b) := by
  intro _ _
  change decodeWord (fmtR 0x16 b a d 0x01) = _
  rw [decodeWord_01 _ (by simp only [fOp_fmtR])]
  unfold decAlu
  simp [need, bZero, aZero, dZero, fZero, vvv, vv0, vv, scopeB]

theorem mul (d a b : SReg) : Statement (.mul d a b) := by
  intro _ _
  change decodeWord (fmtR 0x18 b a d 0x01) = _
  rw [decodeWord_01 _ (by simp only [fOp_fmtR])]
  unfold decAlu
  simp [need, bZero, aZero, dZero, fZero, vvv, vv0, vv, scopeB]

theorem mulh (d a b : SReg) : Statement (.mulh d a b) := by
  intro _ _
  change decodeWord (fmtR 0x19 b a d 0x01) = _
  rw [decodeWord_01 _ (by simp only [fOp_fmtR])]
  unfold decAlu
  simp [need, bZero, aZero, dZero, fZero, vvv, vv0, vv, scopeB]

theorem mulhu (d a b : SReg) : Statement (.mulhu d a b) := by
  intro _ _
  change decodeWord (fmtR 0x1A b a d 0x01) = _
  rw [decodeWord_01 _ (by simp only [fOp_fmtR])]
  unfold decAlu
  simp [need, bZero, aZero, dZero, fZero, vvv, vv0, vv, scopeB]

theorem mulhsn (d a b : SReg) : Statement (.mulhsn d a b) := by
  intro _ _
  change decodeWord (fmtR 0x1B b a d 0x01) = _
  rw [decodeWord_01 _ (by simp only [fOp_fmtR])]
  unfold decAlu
  simp [need, bZero, aZero, dZero, fZero, vvv, vv0, vv, scopeB]

theorem div (d a b : SReg) : Statement (.div d a b) := by
  intro _ _
  change decodeWord (fmtR 0x1C b a d 0x01) = _
  rw [decodeWord_01 _ (by simp only [fOp_fmtR])]
  unfold decAlu
  simp [need, bZero, aZero, dZero, fZero, vvv, vv0, vv, scopeB]

theorem divu (d a b : SReg) : Statement (.divu d a b) := by
  intro _ _
  change decodeWord (fmtR 0x1D b a d 0x01) = _
  rw [decodeWord_01 _ (by simp only [fOp_fmtR])]
  unfold decAlu
  simp [need, bZero, aZero, dZero, fZero, vvv, vv0, vv, scopeB]

theorem rem (d a b : SReg) : Statement (.rem d a b) := by
  intro _ _
  change decodeWord (fmtR 0x1E b a d 0x01) = _
  rw [decodeWord_01 _ (by simp only [fOp_fmtR])]
  unfold decAlu
  simp [need, bZero, aZero, dZero, fZero, vvv, vv0, vv, scopeB]

theorem remu (d a b : SReg) : Statement (.remu d a b) := by
  intro _ _
  change decodeWord (fmtR 0x1F b a d 0x01) = _
  rw [decodeWord_01 _ (by simp only [fOp_fmtR])]
  unfold decAlu
  simp [need, bZero, aZero, dZero, fZero, vvv, vv0, vv, scopeB]

theorem clz (d a : SReg) : Statement (.clz d a) := by
  intro _ _
  change decodeWord (fmtR 0x20 0 a d 0x01) = _
  rw [decodeWord_01 _ (by simp only [fOp_fmtR])]
  unfold decAlu
  simp [need, bZero, aZero, dZero, fZero, vvv, vv0, vv, scopeB]

theorem ctz (d a : SReg) : Statement (.ctz d a) := by
  intro _ _
  change decodeWord (fmtR 0x21 0 a d 0x01) = _
  rw [decodeWord_01 _ (by simp only [fOp_fmtR])]
  unfold decAlu
  simp [need, bZero, aZero, dZero, fZero, vvv, vv0, vv, scopeB]

theorem popc (d a : SReg) : Statement (.popc d a) := by
  intro _ _
  change decodeWord (fmtR 0x22 0 a d 0x01) = _
  rw [decodeWord_01 _ (by simp only [fOp_fmtR])]
  unfold decAlu
  simp [need, bZero, aZero, dZero, fZero, vvv, vv0, vv, scopeB]

theorem brev (d a : SReg) : Statement (.brev d a) := by
  intro _ _
  change decodeWord (fmtR 0x23 0 a d 0x01) = _
  rw [decodeWord_01 _ (by simp only [fOp_fmtR])]
  unfold decAlu
  simp [need, bZero, aZero, dZero, fZero, vvv, vv0, vv, scopeB]

theorem bswap (d a : SReg) : Statement (.bswap d a) := by
  intro _ _
  change decodeWord (fmtR 0x24 0 a d 0x01) = _
  rw [decodeWord_01 _ (by simp only [fOp_fmtR])]
  unfold decAlu
  simp [need, bZero, aZero, dZero, fZero, vvv, vv0, vv, scopeB]

theorem sextB (d a : SReg) : Statement (.sextB d a) := by
  intro _ _
  change decodeWord (fmtR 0x28 0 a d 0x01) = _
  rw [decodeWord_01 _ (by simp only [fOp_fmtR])]
  unfold decAlu
  simp [need, bZero, aZero, dZero, fZero, vvv, vv0, vv, scopeB]

theorem sextH (d a : SReg) : Statement (.sextH d a) := by
  intro _ _
  change decodeWord (fmtR 0x29 0 a d 0x01) = _
  rw [decodeWord_01 _ (by simp only [fOp_fmtR])]
  unfold decAlu
  simp [need, bZero, aZero, dZero, fZero, vvv, vv0, vv, scopeB]

theorem sextW (d a : SReg) : Statement (.sextW d a) := by
  intro _ _
  change decodeWord (fmtR 0x2A 0 a d 0x01) = _
  rw [decodeWord_01 _ (by simp only [fOp_fmtR])]
  unfold decAlu
  simp [need, bZero, aZero, dZero, fZero, vvv, vv0, vv, scopeB]

theorem zextB (d a : SReg) : Statement (.zextB d a) := by
  intro _ _
  change decodeWord (fmtR 0x2C 0 a d 0x01) = _
  rw [decodeWord_01 _ (by simp only [fOp_fmtR])]
  unfold decAlu
  simp [need, bZero, aZero, dZero, fZero, vvv, vv0, vv, scopeB]

theorem zextH (d a : SReg) : Statement (.zextH d a) := by
  intro _ _
  change decodeWord (fmtR 0x2D 0 a d 0x01) = _
  rw [decodeWord_01 _ (by simp only [fOp_fmtR])]
  unfold decAlu
  simp [need, bZero, aZero, dZero, fZero, vvv, vv0, vv, scopeB]

theorem zextW (d a : SReg) : Statement (.zextW d a) := by
  intro _ _
  change decodeWord (fmtR 0x2E 0 a d 0x01) = _
  rw [decodeWord_01 _ (by simp only [fOp_fmtR])]
  unfold decAlu
  simp [need, bZero, aZero, dZero, fZero, vvv, vv0, vv, scopeB]

theorem lea1 (d a b : SReg) : Statement (.lea1 d a b) := by
  intro _ _
  change decodeWord (fmtR 0x30 b a d 0x01) = _
  rw [decodeWord_01 _ (by simp only [fOp_fmtR])]
  unfold decAlu
  simp [need, bZero, aZero, dZero, fZero, vvv, vv0, vv, scopeB]

theorem lea2 (d a b : SReg) : Statement (.lea2 d a b) := by
  intro _ _
  change decodeWord (fmtR 0x31 b a d 0x01) = _
  rw [decodeWord_01 _ (by simp only [fOp_fmtR])]
  unfold decAlu
  simp [need, bZero, aZero, dZero, fZero, vvv, vv0, vv, scopeB]

theorem lea4 (d a b : SReg) : Statement (.lea4 d a b) := by
  intro _ _
  change decodeWord (fmtR 0x32 b a d 0x01) = _
  rw [decodeWord_01 _ (by simp only [fOp_fmtR])]
  unfold decAlu
  simp [need, bZero, aZero, dZero, fZero, vvv, vv0, vv, scopeB]

theorem lea8 (d a b : SReg) : Statement (.lea8 d a b) := by
  intro _ _
  change decodeWord (fmtR 0x33 b a d 0x01) = _
  rw [decodeWord_01 _ (by simp only [fOp_fmtR])]
  unfold decAlu
  simp [need, bZero, aZero, dZero, fZero, vvv, vv0, vv, scopeB]

theorem addi (d a : SReg) (imm : BitVec 13) : Statement (.addi d a imm) := by
  intro _ _
  change decodeWord (fmtI imm a d 0x02) = _
  rw [decodeWord_02 _ (by simp only [fOp_fmtI])]
  simp [need, bZero, aZero, dZero, fZero]

theorem andi (d a : SReg) (imm : BitVec 13) : Statement (.andi d a imm) := by
  intro _ _
  change decodeWord (fmtI imm a d 0x03) = _
  rw [decodeWord_03 _ (by simp only [fOp_fmtI])]
  simp [need, bZero, aZero, dZero, fZero]

theorem ori (d a : SReg) (imm : BitVec 13) : Statement (.ori d a imm) := by
  intro _ _
  change decodeWord (fmtI imm a d 0x04) = _
  rw [decodeWord_04 _ (by simp only [fOp_fmtI])]
  simp [need, bZero, aZero, dZero, fZero]

theorem xori (d a : SReg) (imm : BitVec 13) : Statement (.xori d a imm) := by
  intro _ _
  change decodeWord (fmtI imm a d 0x05) = _
  rw [decodeWord_05 _ (by simp only [fOp_fmtI])]
  simp [need, bZero, aZero, dZero, fZero]

theorem slti (d a : SReg) (imm : BitVec 13) : Statement (.slti d a imm) := by
  intro _ _
  change decodeWord (fmtI imm a d 0x06) = _
  rw [decodeWord_06 _ (by simp only [fOp_fmtI])]
  simp [need, bZero, aZero, dZero, fZero]

theorem sltin (d a : SReg) (imm : BitVec 13) : Statement (.sltin d a imm) := by
  intro _ _
  change decodeWord (fmtI imm a d 0x07) = _
  rw [decodeWord_07 _ (by simp only [fOp_fmtI])]
  simp [need, bZero, aZero, dZero, fZero]

theorem slli (d a : SReg) (n : BitVec 6) : Statement (.slli d a n) := by
  intro _ _
  change decodeWord (fmtR 0 n a d 0x08) = _
  rw [decodeWord_08 _ (by simp only [fOp_fmtR])]
  unfold decShiftImm
  simp [need, bZero, aZero, dZero, fZero, vvv, vv0, vv, scopeB]

theorem srli (d a : SReg) (n : BitVec 6) : Statement (.srli d a n) := by
  intro _ _
  change decodeWord (fmtR 1 n a d 0x08) = _
  rw [decodeWord_08 _ (by simp only [fOp_fmtR])]
  unfold decShiftImm
  simp [need, bZero, aZero, dZero, fZero, vvv, vv0, vv, scopeB]

theorem srai (d a : SReg) (n : BitVec 6) : Statement (.srai d a n) := by
  intro _ _
  change decodeWord (fmtR 2 n a d 0x08) = _
  rw [decodeWord_08 _ (by simp only [fOp_fmtR])]
  unfold decShiftImm
  simp [need, bZero, aZero, dZero, fZero, vvv, vv0, vv, scopeB]

theorem rori (d a : SReg) (n : BitVec 6) : Statement (.rori d a n) := by
  intro _ _
  change decodeWord (fmtR 3 n a d 0x08) = _
  rw [decodeWord_08 _ (by simp only [fOp_fmtR])]
  unfold decShiftImm
  simp [need, bZero, aZero, dZero, fZero, vvv, vv0, vv, scopeB]

theorem liu (d : SReg) (imm : BitVec 19) : Statement (.liu d imm) := by
  intro _ _
  change decodeWord (fmtU imm d 0x09) = _
  rw [decodeWord_09 _ (by simp only [fOp_fmtU])]
  simp [need, bZero, aZero, dZero, fZero]

theorem addpc (d : SReg) (imm : BitVec 19) : Statement (.addpc d imm) := by
  intro _ _
  change decodeWord (fmtU imm d 0x0A) = _
  rw [decodeWord_0A _ (by simp only [fOp_fmtU])]
  simp [need, bZero, aZero, dZero, fZero]

theorem sysr (d : SReg) (r : SysReg) : Statement (.sysr d r) := by
  intro _ _
  change decodeWord (fmtI r.num 0 d 0x0B) = _
  rw [decodeWord_0B _ (by simp only [fOp_fmtI])]
  unfold decSys
  simp [need, bZero, aZero, dZero, fZero, vvv, vv0, vv, scopeB]

theorem sysw (r : SysReg) (a : SReg) : Statement (.sysw r a) := by
  intro _ _
  change decodeWord (fmtI r.num a 0 0x0C) = _
  rw [decodeWord_0C _ (by simp only [fOp_fmtI])]
  unfold decSys
  simp [need, bZero, aZero, dZero, fZero, vvv, vv0, vv, scopeB]

theorem ldB (d a : SReg) (imm : BitVec 13) : Statement (.ldB d a imm) := by
  intro _ _
  change decodeWord (fmtI imm a d 0x10) = _
  rw [decodeWord_10 _ (by simp only [fOp_fmtI])]
  simp [need, bZero, aZero, dZero, fZero]

theorem ldH (d a : SReg) (imm : BitVec 13) : Statement (.ldH d a imm) := by
  intro _ _
  change decodeWord (fmtI imm a d 0x11) = _
  rw [decodeWord_11 _ (by simp only [fOp_fmtI])]
  simp [need, bZero, aZero, dZero, fZero]

theorem ldW (d a : SReg) (imm : BitVec 13) : Statement (.ldW d a imm) := by
  intro _ _
  change decodeWord (fmtI imm a d 0x12) = _
  rw [decodeWord_12 _ (by simp only [fOp_fmtI])]
  simp [need, bZero, aZero, dZero, fZero]

theorem ldD (d a : SReg) (imm : BitVec 13) : Statement (.ldD d a imm) := by
  intro _ _
  change decodeWord (fmtI imm a d 0x13) = _
  rw [decodeWord_13 _ (by simp only [fOp_fmtI])]
  simp [need, bZero, aZero, dZero, fZero]

theorem ldBn (d a : SReg) (imm : BitVec 13) : Statement (.ldBn d a imm) := by
  intro _ _
  change decodeWord (fmtI imm a d 0x14) = _
  rw [decodeWord_14 _ (by simp only [fOp_fmtI])]
  simp [need, bZero, aZero, dZero, fZero]

theorem ldHn (d a : SReg) (imm : BitVec 13) : Statement (.ldHn d a imm) := by
  intro _ _
  change decodeWord (fmtI imm a d 0x15) = _
  rw [decodeWord_15 _ (by simp only [fOp_fmtI])]
  simp [need, bZero, aZero, dZero, fZero]

theorem ldWn (d a : SReg) (imm : BitVec 13) : Statement (.ldWn d a imm) := by
  intro _ _
  change decodeWord (fmtI imm a d 0x16) = _
  rw [decodeWord_16 _ (by simp only [fOp_fmtI])]
  simp [need, bZero, aZero, dZero, fZero]

theorem stB (a b : SReg) (imm : BitVec 13) : Statement (.stB a b imm) := by
  intro _ _
  change decodeWord (fmtS imm b a 0x18) = _
  rw [decodeWord_18 _ (by simp only [fOp_fmtS])]
  simp [need, bZero, aZero, dZero, fZero]

theorem stH (a b : SReg) (imm : BitVec 13) : Statement (.stH a b imm) := by
  intro _ _
  change decodeWord (fmtS imm b a 0x19) = _
  rw [decodeWord_19 _ (by simp only [fOp_fmtS])]
  simp [need, bZero, aZero, dZero, fZero]

theorem stW (a b : SReg) (imm : BitVec 13) : Statement (.stW a b imm) := by
  intro _ _
  change decodeWord (fmtS imm b a 0x1A) = _
  rw [decodeWord_1A _ (by simp only [fOp_fmtS])]
  simp [need, bZero, aZero, dZero, fZero]

theorem stD (a b : SReg) (imm : BitVec 13) : Statement (.stD a b imm) := by
  intro _ _
  change decodeWord (fmtS imm b a 0x1B) = _
  rw [decodeWord_1B _ (by simp only [fOp_fmtS])]
  simp [need, bZero, aZero, dZero, fZero]

theorem lda (d a : SReg) (wd : Width) (sc : Scope) : Statement (.lda d a wd sc) := by
  intro _ _
  change decodeWord (fmtR (fLda wd sc) 0 a d 0x1C) = _
  rw [decodeWord_1C _ (by simp only [fOp_fmtR])]
  unfold decLda
  simp [need, bZero, aZero, dZero, fZero, vvv, vv0, vv, scopeB]

theorem stl (a b : SReg) (wd : Width) (sc : Scope) : Statement (.stl a b wd sc) := by
  intro _ _
  change decodeWord (fmtR (fLda wd sc) b a 0 0x1D) = _
  rw [decodeWord_1D _ (by simp only [fOp_fmtR])]
  unfold decStl
  simp [need, bZero, aZero, dZero, fZero, vvv, vv0, vv, scopeB]

theorem pref (k : PrefKind) (a : SReg) (imm : BitVec 13) : Statement (.pref k a imm) := by
  intro h _
  change decodeWord (fmtI imm a k.code 0x1E) = _
  rw [decodeWord_1E _ (by simp only [fOp_fmtI])]
  unfold decPref
  cases k <;> simp [PrefKind.code, need, bZero, aZero, dZero, fZero, vv]

theorem cclean (a : SReg) (sc : Scope) : Statement (.cclean a sc) := by
  intro _ _
  change decodeWord (fmtR 0 (up3 sc.code) a 0 0x1F) = _
  rw [decodeWord_1F _ (by simp only [fOp_fmtR])]
  unfold decCacheOp
  simp [need, bZero, aZero, dZero, fZero, vvv, vv0, vv, scopeB]

theorem cinv (a : SReg) (sc : Scope) : Statement (.cinv a sc) := by
  intro _ _
  change decodeWord (fmtR 1 (up3 sc.code) a 0 0x1F) = _
  rw [decodeWord_1F _ (by simp only [fOp_fmtR])]
  unfold decCacheOp
  simp [need, bZero, aZero, dZero, fZero, vvv, vv0, vv, scopeB]

theorem cflush (a : SReg) (sc : Scope) : Statement (.cflush a sc) := by
  intro _ _
  change decodeWord (fmtR 2 (up3 sc.code) a 0 0x1F) = _
  rw [decodeWord_1F _ (by simp only [fOp_fmtR])]
  unfold decCacheOp
  simp [need, bZero, aZero, dZero, fZero, vvv, vv0, vv, scopeB]

theorem spldW (d a : SReg) (imm : BitVec 13) : Statement (.spldW d a imm) := by
  intro _ _
  change decodeWord (fmtI imm a d 0x20) = _
  rw [decodeWord_20 _ (by simp only [fOp_fmtI])]
  simp [need, bZero, aZero, dZero, fZero]

theorem spldD (d a : SReg) (imm : BitVec 13) : Statement (.spldD d a imm) := by
  intro _ _
  change decodeWord (fmtI imm a d 0x21) = _
  rw [decodeWord_21 _ (by simp only [fOp_fmtI])]
  simp [need, bZero, aZero, dZero, fZero]

theorem spstW (a b : SReg) (imm : BitVec 13) : Statement (.spstW a b imm) := by
  intro _ _
  change decodeWord (fmtS imm b a 0x22) = _
  rw [decodeWord_22 _ (by simp only [fOp_fmtS])]
  simp [need, bZero, aZero, dZero, fZero]

theorem spstD (a b : SReg) (imm : BitVec 13) : Statement (.spstD a b imm) := by
  intro _ _
  change decodeWord (fmtS imm b a 0x23) = _
  rw [decodeWord_23 _ (by simp only [fOp_fmtS])]
  simp [need, bZero, aZero, dZero, fZero]

theorem vld (t : Tag) (vd : VNum) (a : SReg) (off : BitVec 9) : Statement (.vld t vd a off) := by
  intro h _
  change decodeWord (fmtVM off t.code a (up5 vd) 0x24) = _
  rw [decodeWord_24 _ (by simp only [fOp_fmtVM])]
  unfold decVm
  simp only [Instr.wf] at h
  simp [h, need, bZero, aZero, dZero, fZero, vvv, vv0, vv, scopeB]

theorem vst (vd : VNum) (a : SReg) (off : BitVec 9) : Statement (.vst vd a off) := by
  intro _ _
  change decodeWord (fmtVM off 0 a (up5 vd) 0x25) = _
  rw [decodeWord_25 _ (by simp only [fOp_fmtVM])]
  unfold decVm
  simp [need, bZero, aZero, dZero, fZero, vvv, vv0, vv, scopeB]

theorem spvld (t : Tag) (vd : VNum) (a : SReg) (off : BitVec 9) : Statement (.spvld t vd a off) := by
  intro h _
  change decodeWord (fmtVM off t.code a (up5 vd) 0x26) = _
  rw [decodeWord_26 _ (by simp only [fOp_fmtVM])]
  unfold decVm
  simp only [Instr.wf] at h
  simp [h, need, bZero, aZero, dZero, fZero, vvv, vv0, vv, scopeB]

theorem spvst (vd : VNum) (a : SReg) (off : BitVec 9) : Statement (.spvst vd a off) := by
  intro _ _
  change decodeWord (fmtVM off 0 a (up5 vd) 0x27) = _
  rw [decodeWord_27 _ (by simp only [fOp_fmtVM])]
  unfold decVm
  simp [need, bZero, aZero, dZero, fZero, vvv, vv0, vv, scopeB]

theorem vlds (t : Tag) (p : PNum) (vd : VNum) (a b : SReg) : Statement (.vlds t p vd a b) := by
  intro h _
  change decodeWord (fmtR (fVs p t.code) b a (up5 vd) 0x28) = _
  rw [decodeWord_28 _ (by simp only [fOp_fmtR])]
  unfold decVs
  simp only [Instr.wf] at h
  simp [h, need, bZero, aZero, dZero, fZero, vvv, vv0, vv, scopeB]

theorem vsts (p : PNum) (vd : VNum) (a b : SReg) : Statement (.vsts p vd a b) := by
  intro _ _
  change decodeWord (fmtR (fVs p 0) b a (up5 vd) 0x29) = _
  rw [decodeWord_29 _ (by simp only [fOp_fmtR])]
  unfold decVs
  simp [need, bZero, aZero, dZero, fZero, vvv, vv0, vv, scopeB]

theorem vgath (t : Tag) (p : PNum) (vd : VNum) (a : SReg) (vb : VNum) : Statement (.vgath t p vd a vb) := by
  intro h _
  change decodeWord (fmtR (fVs p t.code) (up5 vb) a (up5 vd) 0x2A) = _
  rw [decodeWord_2A _ (by simp only [fOp_fmtR])]
  unfold decVs
  simp only [Instr.wf] at h
  simp [h, need, bZero, aZero, dZero, fZero, vvv, vv0, vv, scopeB]

theorem vscat (p : PNum) (vd : VNum) (a : SReg) (vb : VNum) : Statement (.vscat p vd a vb) := by
  intro _ _
  change decodeWord (fmtR (fVs p 0) (up5 vb) a (up5 vd) 0x2B) = _
  rw [decodeWord_2B _ (by simp only [fOp_fmtR])]
  unfold decVs
  simp [need, bZero, aZero, dZero, fZero, vvv, vv0, vv, scopeB]

theorem beq (a b : SReg) (off : BitVec 13) : Statement (.beq a b off) := by
  intro _ _
  change decodeWord (fmtI off b a 0x30) = _
  rw [decodeWord_30 _ (by simp only [fOp_fmtI])]
  simp [need, bZero, aZero, dZero, fZero]

theorem bne (a b : SReg) (off : BitVec 13) : Statement (.bne a b off) := by
  intro _ _
  change decodeWord (fmtI off b a 0x31) = _
  rw [decodeWord_31 _ (by simp only [fOp_fmtI])]
  simp [need, bZero, aZero, dZero, fZero]

theorem blt (a b : SReg) (off : BitVec 13) : Statement (.blt a b off) := by
  intro _ _
  change decodeWord (fmtI off b a 0x32) = _
  rw [decodeWord_32 _ (by simp only [fOp_fmtI])]
  simp [need, bZero, aZero, dZero, fZero]

theorem bge (a b : SReg) (off : BitVec 13) : Statement (.bge a b off) := by
  intro _ _
  change decodeWord (fmtI off b a 0x33) = _
  rw [decodeWord_33 _ (by simp only [fOp_fmtI])]
  simp [need, bZero, aZero, dZero, fZero]

theorem bltn (a b : SReg) (off : BitVec 13) : Statement (.bltn a b off) := by
  intro _ _
  change decodeWord (fmtI off b a 0x34) = _
  rw [decodeWord_34 _ (by simp only [fOp_fmtI])]
  simp [need, bZero, aZero, dZero, fZero]

theorem bgen (a b : SReg) (off : BitVec 13) : Statement (.bgen a b off) := by
  intro _ _
  change decodeWord (fmtI off b a 0x35) = _
  rw [decodeWord_35 _ (by simp only [fOp_fmtI])]
  simp [need, bZero, aZero, dZero, fZero]

theorem bpAny (p : PNum) (off : BitVec 13) : Statement (.bpAny p off) := by
  intro _ _
  change decodeWord (fmtI off 0 ((0 : BitVec 3) ++ p) 0x36) = _
  rw [decodeWord_36 _ (by simp only [fOp_fmtI])]
  unfold decBp
  simp [need, bZero, aZero, dZero, fZero, vvv, vv0, vv, scopeB]

theorem bpAll (p : PNum) (off : BitVec 13) : Statement (.bpAll p off) := by
  intro _ _
  change decodeWord (fmtI off 0 ((1 : BitVec 3) ++ p) 0x36) = _
  rw [decodeWord_36 _ (by simp only [fOp_fmtI])]
  unfold decBp
  simp [need, bZero, aZero, dZero, fZero, vvv, vv0, vv, scopeB]

theorem bpNone (p : PNum) (off : BitVec 13) : Statement (.bpNone p off) := by
  intro _ _
  change decodeWord (fmtI off 0 ((2 : BitVec 3) ++ p) 0x36) = _
  rw [decodeWord_36 _ (by simp only [fOp_fmtI])]
  unfold decBp
  simp [need, bZero, aZero, dZero, fZero, vvv, vv0, vv, scopeB]

theorem j (d : SReg) (off : BitVec 19) : Statement (.j d off) := by
  intro _ _
  change decodeWord (fmtU off d 0x37) = _
  rw [decodeWord_37 _ (by simp only [fOp_fmtU])]
  simp [need, bZero, aZero, dZero, fZero]

theorem jr (d a : SReg) (imm : BitVec 13) : Statement (.jr d a imm) := by
  intro _ _
  change decodeWord (fmtI imm a d 0x38) = _
  rw [decodeWord_38 _ (by simp only [fOp_fmtI])]
  simp [need, bZero, aZero, dZero, fZero]

theorem loop (lvl : Bool) (a : SReg) (len : BitVec 13) : Statement (.loop lvl a len) := by
  intro h _
  change decodeWord (fmtI len a ((0 : BitVec 5) ++ BitVec.ofBool lvl) 0x39) = _
  rw [decodeWord_39 _ (by simp only [fOp_fmtI])]
  simp only [Instr.wf] at h
  unfold decLoop
  have hz : len ≠ 0#13 := by rintro rfl; exact absurd h (by decide)
  cases lvl <;> simp [need, h, hz]

theorem loopi (lvl : Bool) (count : BitVec 11) (len : BitVec 13) : Statement (.loopi lvl count len) := by
  intro h _
  change decodeWord (len ++ count ++ BitVec.ofBool lvl ++ (0x3A : BitVec 7)) = _
  rw [decodeWord_3A _ (by simp only [loopi_op])]
  simp only [Instr.wf] at h
  unfold decLoop
  have hz : len ≠ 0#13 := by rintro rfl; exact absurd h (by decide)
  simp [need, h, hz]

theorem vadd (p : PNum) (vd va vb : VNum) : Statement (.vadd p vd va vb) := by
  intro _ _
  change decodeWord (fmtV 0 p (up5 vb) (up5 va) (up5 vd) 0x40) = _
  rw [decodeWord_40 _ (by simp only [fOp_fmtV])]
  unfold decV40
  simp [need, bZero, aZero, dZero, fZero, vvv, vv0, vv, scopeB]

theorem vsub (p : PNum) (vd va vb : VNum) : Statement (.vsub p vd va vb) := by
  intro _ _
  change decodeWord (fmtV 1 p (up5 vb) (up5 va) (up5 vd) 0x40) = _
  rw [decodeWord_40 _ (by simp only [fOp_fmtV])]
  unfold decV40
  simp [need, bZero, aZero, dZero, fZero, vvv, vv0, vv, scopeB]

theorem vmul (p : PNum) (vd va vb : VNum) : Statement (.vmul p vd va vb) := by
  intro _ _
  change decodeWord (fmtV 2 p (up5 vb) (up5 va) (up5 vd) 0x40) = _
  rw [decodeWord_40 _ (by simp only [fOp_fmtV])]
  unfold decV40
  simp [need, bZero, aZero, dZero, fZero, vvv, vv0, vv, scopeB]

theorem vmulh (p : PNum) (vd va vb : VNum) : Statement (.vmulh p vd va vb) := by
  intro _ _
  change decodeWord (fmtV 3 p (up5 vb) (up5 va) (up5 vd) 0x40) = _
  rw [decodeWord_40 _ (by simp only [fOp_fmtV])]
  unfold decV40
  simp [need, bZero, aZero, dZero, fZero, vvv, vv0, vv, scopeB]

theorem vmin (p : PNum) (vd va vb : VNum) : Statement (.vmin p vd va vb) := by
  intro _ _
  change decodeWord (fmtV 4 p (up5 vb) (up5 va) (up5 vd) 0x40) = _
  rw [decodeWord_40 _ (by simp only [fOp_fmtV])]
  unfold decV40
  simp [need, bZero, aZero, dZero, fZero, vvv, vv0, vv, scopeB]

theorem vmax (p : PNum) (vd va vb : VNum) : Statement (.vmax p vd va vb) := by
  intro _ _
  change decodeWord (fmtV 5 p (up5 vb) (up5 va) (up5 vd) 0x40) = _
  rw [decodeWord_40 _ (by simp only [fOp_fmtV])]
  unfold decV40
  simp [need, bZero, aZero, dZero, fZero, vvv, vv0, vv, scopeB]

theorem vabs (p : PNum) (vd va : VNum) : Statement (.vabs p vd va) := by
  intro _ _
  change decodeWord (fmtV 6 p 0 (up5 va) (up5 vd) 0x40) = _
  rw [decodeWord_40 _ (by simp only [fOp_fmtV])]
  unfold decV40
  simp [need, bZero, aZero, dZero, fZero, vvv, vv0, vv, scopeB]

theorem vneg (p : PNum) (vd va : VNum) : Statement (.vneg p vd va) := by
  intro _ _
  change decodeWord (fmtV 7 p 0 (up5 va) (up5 vd) 0x40) = _
  rw [decodeWord_40 _ (by simp only [fOp_fmtV])]
  unfold decV40
  simp [need, bZero, aZero, dZero, fZero, vvv, vv0, vv, scopeB]

theorem vadds (p : PNum) (vd va vb : VNum) : Statement (.vadds p vd va vb) := by
  intro _ _
  change decodeWord (fmtV 8 p (up5 vb) (up5 va) (up5 vd) 0x40) = _
  rw [decodeWord_40 _ (by simp only [fOp_fmtV])]
  unfold decV40
  simp [need, bZero, aZero, dZero, fZero, vvv, vv0, vv, scopeB]

theorem vsubs (p : PNum) (vd va vb : VNum) : Statement (.vsubs p vd va vb) := by
  intro _ _
  change decodeWord (fmtV 9 p (up5 vb) (up5 va) (up5 vd) 0x40) = _
  rw [decodeWord_40 _ (by simp only [fOp_fmtV])]
  unfold decV40
  simp [need, bZero, aZero, dZero, fZero, vvv, vv0, vv, scopeB]

theorem vavg (p : PNum) (vd va vb : VNum) : Statement (.vavg p vd va vb) := by
  intro _ _
  change decodeWord (fmtV 10 p (up5 vb) (up5 va) (up5 vd) 0x40) = _
  rw [decodeWord_40 _ (by simp only [fOp_fmtV])]
  unfold decV40
  simp [need, bZero, aZero, dZero, fZero, vvv, vv0, vv, scopeB]

theorem vdif (p : PNum) (vd va vb : VNum) : Statement (.vdif p vd va vb) := by
  intro _ _
  change decodeWord (fmtV 11 p (up5 vb) (up5 va) (up5 vd) 0x40) = _
  rw [decodeWord_40 _ (by simp only [fOp_fmtV])]
  unfold decV40
  simp [need, bZero, aZero, dZero, fZero, vvv, vv0, vv, scopeB]

theorem vand (p : PNum) (vd va vb : VNum) : Statement (.vand p vd va vb) := by
  intro _ _
  change decodeWord (fmtV 0 p (up5 vb) (up5 va) (up5 vd) 0x41) = _
  rw [decodeWord_41 _ (by simp only [fOp_fmtV])]
  unfold decV41
  simp [need, bZero, aZero, dZero, fZero, vvv, vv0, vv, scopeB]

theorem vor (p : PNum) (vd va vb : VNum) : Statement (.vor p vd va vb) := by
  intro _ _
  change decodeWord (fmtV 1 p (up5 vb) (up5 va) (up5 vd) 0x41) = _
  rw [decodeWord_41 _ (by simp only [fOp_fmtV])]
  unfold decV41
  simp [need, bZero, aZero, dZero, fZero, vvv, vv0, vv, scopeB]

theorem vxor (p : PNum) (vd va vb : VNum) : Statement (.vxor p vd va vb) := by
  intro _ _
  change decodeWord (fmtV 2 p (up5 vb) (up5 va) (up5 vd) 0x41) = _
  rw [decodeWord_41 _ (by simp only [fOp_fmtV])]
  unfold decV41
  simp [need, bZero, aZero, dZero, fZero, vvv, vv0, vv, scopeB]

theorem vandn (p : PNum) (vd va vb : VNum) : Statement (.vandn p vd va vb) := by
  intro _ _
  change decodeWord (fmtV 3 p (up5 vb) (up5 va) (up5 vd) 0x41) = _
  rw [decodeWord_41 _ (by simp only [fOp_fmtV])]
  unfold decV41
  simp [need, bZero, aZero, dZero, fZero, vvv, vv0, vv, scopeB]

theorem vnot (p : PNum) (vd va : VNum) : Statement (.vnot p vd va) := by
  intro _ _
  change decodeWord (fmtV 4 p 0 (up5 va) (up5 vd) 0x41) = _
  rw [decodeWord_41 _ (by simp only [fOp_fmtV])]
  unfold decV41
  simp [need, bZero, aZero, dZero, fZero, vvv, vv0, vv, scopeB]

theorem vshl (p : PNum) (vd va vb : VNum) : Statement (.vshl p vd va vb) := by
  intro _ _
  change decodeWord (fmtV 5 p (up5 vb) (up5 va) (up5 vd) 0x41) = _
  rw [decodeWord_41 _ (by simp only [fOp_fmtV])]
  unfold decV41
  simp [need, bZero, aZero, dZero, fZero, vvv, vv0, vv, scopeB]

theorem vshr (p : PNum) (vd va vb : VNum) : Statement (.vshr p vd va vb) := by
  intro _ _
  change decodeWord (fmtV 6 p (up5 vb) (up5 va) (up5 vd) 0x41) = _
  rw [decodeWord_41 _ (by simp only [fOp_fmtV])]
  unfold decV41
  simp [need, bZero, aZero, dZero, fZero, vvv, vv0, vv, scopeB]

theorem vsra (p : PNum) (vd va vb : VNum) : Statement (.vsra p vd va vb) := by
  intro _ _
  change decodeWord (fmtV 7 p (up5 vb) (up5 va) (up5 vd) 0x41) = _
  rw [decodeWord_41 _ (by simp only [fOp_fmtV])]
  unfold decV41
  simp [need, bZero, aZero, dZero, fZero, vvv, vv0, vv, scopeB]

theorem vrot (p : PNum) (vd va vb : VNum) : Statement (.vrot p vd va vb) := by
  intro _ _
  change decodeWord (fmtV 8 p (up5 vb) (up5 va) (up5 vd) 0x41) = _
  rw [decodeWord_41 _ (by simp only [fOp_fmtV])]
  unfold decV41
  simp [need, bZero, aZero, dZero, fZero, vvv, vv0, vv, scopeB]

theorem vshli (p : PNum) (vd va : VNum) (n : BitVec 6) : Statement (.vshli p vd va n) := by
  intro _ _
  change decodeWord (fmtV 9 p n (up5 va) (up5 vd) 0x41) = _
  rw [decodeWord_41 _ (by simp only [fOp_fmtV])]
  unfold decV41
  simp [need, bZero, aZero, dZero, fZero, vvv, vv0, vv, scopeB]

theorem vshri (p : PNum) (vd va : VNum) (n : BitVec 6) : Statement (.vshri p vd va n) := by
  intro _ _
  change decodeWord (fmtV 10 p n (up5 va) (up5 vd) 0x41) = _
  rw [decodeWord_41 _ (by simp only [fOp_fmtV])]
  unfold decV41
  simp [need, bZero, aZero, dZero, fZero, vvv, vv0, vv, scopeB]

theorem vsrai (p : PNum) (vd va : VNum) (n : BitVec 6) : Statement (.vsrai p vd va n) := by
  intro _ _
  change decodeWord (fmtV 11 p n (up5 va) (up5 vd) 0x41) = _
  rw [decodeWord_41 _ (by simp only [fOp_fmtV])]
  unfold decV41
  simp [need, bZero, aZero, dZero, fZero, vvv, vv0, vv, scopeB]

theorem vfma (p : PNum) (vd va vb : VNum) : Statement (.vfma p vd va vb) := by
  intro _ _
  change decodeWord (fmtV 0 p (up5 vb) (up5 va) (up5 vd) 0x42) = _
  rw [decodeWord_42 _ (by simp only [fOp_fmtV])]
  unfold decV42
  simp [need, bZero, aZero, dZero, fZero, vvv, vv0, vv, scopeB]

theorem vfms (p : PNum) (vd va vb : VNum) : Statement (.vfms p vd va vb) := by
  intro _ _
  change decodeWord (fmtV 1 p (up5 vb) (up5 va) (up5 vd) 0x42) = _
  rw [decodeWord_42 _ (by simp only [fOp_fmtV])]
  unfold decV42
  simp [need, bZero, aZero, dZero, fZero, vvv, vv0, vv, scopeB]

theorem vdiv (p : PNum) (vd va vb : VNum) : Statement (.vdiv p vd va vb) := by
  intro _ _
  change decodeWord (fmtV 0 p (up5 vb) (up5 va) (up5 vd) 0x43) = _
  rw [decodeWord_43 _ (by simp only [fOp_fmtV])]
  unfold decV43
  simp [need, bZero, aZero, dZero, fZero, vvv, vv0, vv, scopeB]

theorem vsqrt (p : PNum) (vd va : VNum) : Statement (.vsqrt p vd va) := by
  intro _ _
  change decodeWord (fmtV 1 p 0 (up5 va) (up5 vd) 0x43) = _
  rw [decodeWord_43 _ (by simp only [fOp_fmtV])]
  unfold decV43
  simp [need, bZero, aZero, dZero, fZero, vvv, vv0, vv, scopeB]

theorem vrcp (p : PNum) (vd va : VNum) : Statement (.vrcp p vd va) := by
  intro _ _
  change decodeWord (fmtV 2 p 0 (up5 va) (up5 vd) 0x43) = _
  rw [decodeWord_43 _ (by simp only [fOp_fmtV])]
  unfold decV43
  simp [need, bZero, aZero, dZero, fZero, vvv, vv0, vv, scopeB]

theorem vrsq (p : PNum) (vd va : VNum) : Statement (.vrsq p vd va) := by
  intro _ _
  change decodeWord (fmtV 3 p 0 (up5 va) (up5 vd) 0x43) = _
  rw [decodeWord_43 _ (by simp only [fOp_fmtV])]
  unfold decV43
  simp [need, bZero, aZero, dZero, fZero, vvv, vv0, vv, scopeB]

theorem vexp2 (p : PNum) (vd va : VNum) : Statement (.vexp2 p vd va) := by
  intro _ _
  change decodeWord (fmtV 4 p 0 (up5 va) (up5 vd) 0x43) = _
  rw [decodeWord_43 _ (by simp only [fOp_fmtV])]
  unfold decV43
  simp [need, bZero, aZero, dZero, fZero, vvv, vv0, vv, scopeB]

theorem vlog2 (p : PNum) (vd va : VNum) : Statement (.vlog2 p vd va) := by
  intro _ _
  change decodeWord (fmtV 5 p 0 (up5 va) (up5 vd) 0x43) = _
  rw [decodeWord_43 _ (by simp only [fOp_fmtV])]
  unfold decV43
  simp [need, bZero, aZero, dZero, fZero, vvv, vv0, vv, scopeB]

theorem vrnd (p : PNum) (vd va : VNum) (m : RndArg) : Statement (.vrnd p vd va m) := by
  intro h _
  change decodeWord (fmtV 6 p m.code (up5 va) (up5 vd) 0x43) = _
  rw [decodeWord_43 _ (by simp only [fOp_fmtV])]
  unfold decV43
  cases m <;> simp [RndArg.code, need, bZero, aZero, dZero, fZero, vv]

theorem vclass (p : PNum) (vd va : VNum) : Statement (.vclass p vd va) := by
  intro _ _
  change decodeWord (fmtV 7 p 0 (up5 va) (up5 vd) 0x43) = _
  rw [decodeWord_43 _ (by simp only [fOp_fmtV])]
  unfold decV43
  simp [need, bZero, aZero, dZero, fZero, vvv, vv0, vv, scopeB]

theorem vceq (p pd : PNum) (va vb : VNum) : Statement (.vceq p pd va vb) := by
  intro _ _
  change decodeWord (fmtV 0 p (up5 vb) (up5 va) (up3 pd) 0x44) = _
  rw [decodeWord_44 _ (by simp only [fOp_fmtV])]
  unfold decV44
  simp [need, bZero, aZero, dZero, fZero, vvv, vv0, vv, scopeB]

theorem vcne (p pd : PNum) (va vb : VNum) : Statement (.vcne p pd va vb) := by
  intro _ _
  change decodeWord (fmtV 1 p (up5 vb) (up5 va) (up3 pd) 0x44) = _
  rw [decodeWord_44 _ (by simp only [fOp_fmtV])]
  unfold decV44
  simp [need, bZero, aZero, dZero, fZero, vvv, vv0, vv, scopeB]

theorem vclt (p pd : PNum) (va vb : VNum) : Statement (.vclt p pd va vb) := by
  intro _ _
  change decodeWord (fmtV 2 p (up5 vb) (up5 va) (up3 pd) 0x44) = _
  rw [decodeWord_44 _ (by simp only [fOp_fmtV])]
  unfold decV44
  simp [need, bZero, aZero, dZero, fZero, vvv, vv0, vv, scopeB]

theorem vcle (p pd : PNum) (va vb : VNum) : Statement (.vcle p pd va vb) := by
  intro _ _
  change decodeWord (fmtV 3 p (up5 vb) (up5 va) (up3 pd) 0x44) = _
  rw [decodeWord_44 _ (by simp only [fOp_fmtV])]
  unfold decV44
  simp [need, bZero, aZero, dZero, fZero, vvv, vv0, vv, scopeB]

theorem vsel (p : PNum) (vd va vb : VNum) : Statement (.vsel p vd va vb) := by
  intro _ _
  change decodeWord (fmtV 8 p (up5 vb) (up5 va) (up5 vd) 0x44) = _
  rw [decodeWord_44 _ (by simp only [fOp_fmtV])]
  unfold decV44
  simp [need, bZero, aZero, dZero, fZero, vvv, vv0, vv, scopeB]

theorem vshuf (p : PNum) (vd va vb : VNum) : Statement (.vshuf p vd va vb) := by
  intro _ _
  change decodeWord (fmtV 0 p (up5 vb) (up5 va) (up5 vd) 0x45) = _
  rw [decodeWord_45 _ (by simp only [fOp_fmtV])]
  unfold decV45
  simp [need, bZero, aZero, dZero, fZero, vvv, vv0, vv, scopeB]

theorem vzip (p : PNum) (vd va vb : VNum) : Statement (.vzip p vd va vb) := by
  intro _ _
  change decodeWord (fmtV 1 p (up5 vb) (up5 va) (up5 vd) 0x45) = _
  rw [decodeWord_45 _ (by simp only [fOp_fmtV])]
  unfold decV45
  simp [need, bZero, aZero, dZero, fZero, vvv, vv0, vv, scopeB]

theorem vuzp (p : PNum) (vd va vb : VNum) : Statement (.vuzp p vd va vb) := by
  intro _ _
  change decodeWord (fmtV 2 p (up5 vb) (up5 va) (up5 vd) 0x45) = _
  rw [decodeWord_45 _ (by simp only [fOp_fmtV])]
  unfold decV45
  simp [need, bZero, aZero, dZero, fZero, vvv, vv0, vv, scopeB]

theorem vsld (p : PNum) (vd va : VNum) (k : BitVec 4) : Statement (.vsld p vd va k) := by
  intro _ _
  change decodeWord (fmtV 3 p (up4 k) (up5 va) (up5 vd) 0x45) = _
  rw [decodeWord_45 _ (by simp only [fOp_fmtV])]
  unfold decV45
  simp [need, bZero, aZero, dZero, fZero, vvv, vv0, vv, scopeB]

theorem vbcast (p : PNum) (vd va : VNum) (l : BitVec 5) : Statement (.vbcast p vd va l) := by
  intro _ _
  change decodeWord (fmtV 4 p (up5 l) (up5 va) (up5 vd) 0x45) = _
  rw [decodeWord_45 _ (by simp only [fOp_fmtV])]
  unfold decV45
  simp [need, bZero, aZero, dZero, fZero, vvv, vv0, vv, scopeB]

theorem vins (p : PNum) (vd : VNum) (a : SReg) (l : BitVec 5) : Statement (.vins p vd a l) := by
  intro _ _
  change decodeWord (fmtV 5 p (up5 l) a (up5 vd) 0x45) = _
  rw [decodeWord_45 _ (by simp only [fOp_fmtV])]
  unfold decV45
  simp [need, bZero, aZero, dZero, fZero, vvv, vv0, vv, scopeB]

theorem vext (d : SReg) (va : VNum) (l : BitVec 5) : Statement (.vext d va l) := by
  intro _ _
  change decodeWord (fmtV 6 0 (up5 l) (up5 va) d 0x45) = _
  rw [decodeWord_45 _ (by simp only [fOp_fmtV])]
  unfold decV45
  simp [need, bZero, aZero, dZero, fZero, vvv, vv0, vv, scopeB]

theorem vredadd (p : PNum) (vd va : VNum) : Statement (.vredadd p vd va) := by
  intro _ _
  change decodeWord (fmtV 7 p 0 (up5 va) (up5 vd) 0x45) = _
  rw [decodeWord_45 _ (by simp only [fOp_fmtV])]
  unfold decV45
  simp [need, bZero, aZero, dZero, fZero, vvv, vv0, vv, scopeB]

theorem vredmax (p : PNum) (vd va : VNum) : Statement (.vredmax p vd va) := by
  intro _ _
  change decodeWord (fmtV 8 p 0 (up5 va) (up5 vd) 0x45) = _
  rw [decodeWord_45 _ (by simp only [fOp_fmtV])]
  unfold decV45
  simp [need, bZero, aZero, dZero, fZero, vvv, vv0, vv, scopeB]

theorem vredmin (p : PNum) (vd va : VNum) : Statement (.vredmin p vd va) := by
  intro _ _
  change decodeWord (fmtV 9 p 0 (up5 va) (up5 vd) 0x45) = _
  rw [decodeWord_45 _ (by simp only [fOp_fmtV])]
  unfold decV45
  simp [need, bZero, aZero, dZero, fZero, vvv, vv0, vv, scopeB]

theorem vdot (p : PNum) (vd va vb : VNum) : Statement (.vdot p vd va vb) := by
  intro _ _
  change decodeWord (fmtV 10 p (up5 vb) (up5 va) (up5 vd) 0x45) = _
  rw [decodeWord_45 _ (by simp only [fOp_fmtV])]
  unfold decV45
  simp [need, bZero, aZero, dZero, fZero, vvv, vv0, vv, scopeB]

theorem vcvt (p : PNum) (vd va : VNum) (u : Tag) : Statement (.vcvt p vd va u) := by
  intro _ _
  change decodeWord (fmtV 0 p (up4 u.code) (up5 va) (up5 vd) 0x46) = _
  rw [decodeWord_46 _ (by simp only [fOp_fmtV])]
  unfold decV46
  simp [need, bZero, aZero, dZero, fZero, vvv, vv0, vv, scopeB]

theorem vretag (p : PNum) (vd va : VNum) (u : Tag) : Statement (.vretag p vd va u) := by
  intro _ _
  change decodeWord (fmtV 1 p (up4 u.code) (up5 va) (up5 vd) 0x46) = _
  rw [decodeWord_46 _ (by simp only [fOp_fmtV])]
  unfold decV46
  simp [need, bZero, aZero, dZero, fZero, vvv, vv0, vv, scopeB]

theorem vtag (vd : VNum) (u : Tag) : Statement (.vtag vd u) := by
  intro _ _
  change decodeWord (fmtV 2 0 (up4 u.code) 0 (up5 vd) 0x46) = _
  rw [decodeWord_46 _ (by simp only [fOp_fmtV])]
  unfold decV46
  simp [need, bZero, aZero, dZero, fZero, vvv, vv0, vv, scopeB]

theorem vpack (p : PNum) (vd va vb : VNum) : Statement (.vpack p vd va vb) := by
  intro _ _
  change decodeWord (fmtV 3 p (up5 vb) (up5 va) (up5 vd) 0x46) = _
  rw [decodeWord_46 _ (by simp only [fOp_fmtV])]
  unfold decV46
  simp [need, bZero, aZero, dZero, fZero, vvv, vv0, vv, scopeB]

theorem vunpkl (p : PNum) (vd va : VNum) : Statement (.vunpkl p vd va) := by
  intro _ _
  change decodeWord (fmtV 4 p 0 (up5 va) (up5 vd) 0x46) = _
  rw [decodeWord_46 _ (by simp only [fOp_fmtV])]
  unfold decV46
  simp [need, bZero, aZero, dZero, fZero, vvv, vv0, vv, scopeB]

theorem vunpkh (p : PNum) (vd va : VNum) : Statement (.vunpkh p vd va) := by
  intro _ _
  change decodeWord (fmtV 5 p 0 (up5 va) (up5 vd) 0x46) = _
  rw [decodeWord_46 _ (by simp only [fOp_fmtV])]
  unfold decV46
  simp [need, bZero, aZero, dZero, fZero, vvv, vv0, vv, scopeB]

theorem venc (p : PNum) (vd va : VNum) (slot : SlotNum) (part : BitVec 3) : Statement (.venc p vd va slot part) := by
  intro _ _
  change decodeWord (fmtV 6 p ((0 : BitVec 1) ++ part ++ slot) (up5 va) (up5 vd) 0x46) = _
  rw [decodeWord_46 _ (by simp only [fOp_fmtV])]
  unfold decV46
  simp [need, bZero, aZero, dZero, fZero, vvv, vv0, vv, scopeB]

theorem vdec (p : PNum) (vd va : VNum) (slot : SlotNum) (part : BitVec 3) : Statement (.vdec p vd va slot part) := by
  intro _ _
  change decodeWord (fmtV 7 p ((0 : BitVec 1) ++ part ++ slot) (up5 va) (up5 vd) 0x46) = _
  rw [decodeWord_46 _ (by simp only [fOp_fmtV])]
  unfold decV46
  simp [need, bZero, aZero, dZero, fZero, vvv, vv0, vv, scopeB]

theorem ctld (slot : SlotNum) (a : SReg) : Statement (.ctld slot a) := by
  intro _ _
  change decodeWord (fmtR 0 0 a (up2 slot) 0x47) = _
  rw [decodeWord_47 _ (by simp only [fOp_fmtR])]
  unfold decTable
  simp [need, bZero, aZero, dZero, fZero, vvv, vv0, vv, scopeB]

theorem ctldi (slot : SlotNum) (n : BitVec 6) (w : CodeWidth) : Statement (.ctldi slot n w) := by
  intro h _
  change decodeWord (fmtR 1 n w.code (up2 slot) 0x47) = _
  rw [decodeWord_47 _ (by simp only [fOp_fmtR])]
  simp only [Instr.wf] at h
  unfold decTable
  cases w <;> simp [CodeWidth.code, need, ctldiOk] at h ⊢ <;> exact h

theorem ctst (slot : SlotNum) (a : SReg) : Statement (.ctst slot a) := by
  intro _ _
  change decodeWord (fmtR 2 0 a (up2 slot) 0x47) = _
  rw [decodeWord_47 _ (by simp only [fOp_fmtR])]
  unfold decTable
  simp [need, bZero, aZero, dZero, fZero, vvv, vv0, vv, scopeB]

theorem ctinfo (d : SReg) (slot : SlotNum) : Statement (.ctinfo d slot) := by
  intro _ _
  change decodeWord (fmtR 3 (up2 slot) 0 d 0x47) = _
  rw [decodeWord_47 _ (by simp only [fOp_fmtR])]
  unfold decTable
  simp [need, bZero, aZero, dZero, fZero, vvv, vv0, vv, scopeB]

theorem pand (pd pa pb : PNum) : Statement (.pand pd pa pb) := by
  intro _ _
  change decodeWord (fmtR 0 (up3 pb) (up3 pa) (up3 pd) 0x48) = _
  rw [decodeWord_48 _ (by simp only [fOp_fmtR])]
  unfold decPred
  simp [need, bZero, aZero, dZero, fZero, vvv, vv0, vv, scopeB]

theorem por (pd pa pb : PNum) : Statement (.por pd pa pb) := by
  intro _ _
  change decodeWord (fmtR 1 (up3 pb) (up3 pa) (up3 pd) 0x48) = _
  rw [decodeWord_48 _ (by simp only [fOp_fmtR])]
  unfold decPred
  simp [need, bZero, aZero, dZero, fZero, vvv, vv0, vv, scopeB]

theorem pxor (pd pa pb : PNum) : Statement (.pxor pd pa pb) := by
  intro _ _
  change decodeWord (fmtR 2 (up3 pb) (up3 pa) (up3 pd) 0x48) = _
  rw [decodeWord_48 _ (by simp only [fOp_fmtR])]
  unfold decPred
  simp [need, bZero, aZero, dZero, fZero, vvv, vv0, vv, scopeB]

theorem pnot (pd pa : PNum) : Statement (.pnot pd pa) := by
  intro _ _
  change decodeWord (fmtR 3 0 (up3 pa) (up3 pd) 0x48) = _
  rw [decodeWord_48 _ (by simp only [fOp_fmtR])]
  unfold decPred
  simp [need, bZero, aZero, dZero, fZero, vvv, vv0, vv, scopeB]

theorem pseti (pd : PNum) (n : BitVec 6) : Statement (.pseti pd n) := by
  intro h _
  change decodeWord (fmtR 4 n 0 (up3 pd) 0x48) = _
  rw [decodeWord_48 _ (by simp only [fOp_fmtR])]
  unfold decPred
  simp only [Instr.wf] at h
  simp [h, need, bZero, aZero, dZero, fZero, vvv, vv0, vv, scopeB]

theorem pfrom (pd : PNum) (a : SReg) : Statement (.pfrom pd a) := by
  intro _ _
  change decodeWord (fmtR 5 0 a (up3 pd) 0x48) = _
  rw [decodeWord_48 _ (by simp only [fOp_fmtR])]
  unfold decPred
  simp [need, bZero, aZero, dZero, fZero, vvv, vv0, vv, scopeB]

theorem pto (d : SReg) (pa : PNum) : Statement (.pto d pa) := by
  intro _ _
  change decodeWord (fmtR 6 0 (up3 pa) d 0x48) = _
  rw [decodeWord_48 _ (by simp only [fOp_fmtR])]
  unfold decPred
  simp [need, bZero, aZero, dZero, fZero, vvv, vv0, vv, scopeB]

theorem pcnt (d : SReg) (pa : PNum) : Statement (.pcnt d pa) := by
  intro _ _
  change decodeWord (fmtR 7 0 (up3 pa) d 0x48) = _
  rw [decodeWord_48 _ (by simp only [fOp_fmtR])]
  unfold decPred
  simp [need, bZero, aZero, dZero, fZero, vvv, vv0, vv, scopeB]

theorem pfirst (d : SReg) (pa : PNum) : Statement (.pfirst d pa) := by
  intro _ _
  change decodeWord (fmtR 8 0 (up3 pa) d 0x48) = _
  rw [decodeWord_48 _ (by simp only [fOp_fmtR])]
  unfold decPred
  simp [need, bZero, aZero, dZero, fZero, vvv, vv0, vv, scopeB]

theorem vmov (p : PNum) (vd va : VNum) : Statement (.vmov p vd va) := by
  intro _ _
  change decodeWord (fmtV 0 p 0 (up5 va) (up5 vd) 0x49) = _
  rw [decodeWord_49 _ (by simp only [fOp_fmtV])]
  unfold decV49
  simp [need, bZero, aZero, dZero, fZero, vvv, vv0, vv, scopeB]

theorem vzero (vd : VNum) (u : Tag) : Statement (.vzero vd u) := by
  intro _ _
  change decodeWord (fmtV 1 0 (up4 u.code) 0 (up5 vd) 0x49) = _
  rw [decodeWord_49 _ (by simp only [fOp_fmtV])]
  unfold decV49
  simp [need, bZero, aZero, dZero, fZero, vvv, vv0, vv, scopeB]

theorem vsplati (p : PNum) (vd : VNum) (v : BitVec 6) (u : Tag) : Statement (.vsplati p vd v u) := by
  intro _ _
  change decodeWord (fmtV 2 p (up4 u.code) v (up5 vd) 0x49) = _
  rw [decodeWord_49 _ (by simp only [fOp_fmtV])]
  unfold decV49
  simp [need, bZero, aZero, dZero, fZero, vvv, vv0, vv, scopeB]

theorem mctx (a : SReg) : Statement (.mctx a) := by
  intro _ _
  change decodeWord (fmtR 0 0 a 0 0x50) = _
  rw [decodeWord_50 _ (by simp only [fOp_fmtR])]
  unfold decSplice
  simp [need, bZero, aZero, dZero, fZero, vvv, vv0, vv, scopeB]

theorem mma (d : SReg) (ha hb : HNum) : Statement (.mma d ha hb) := by
  intro _ _
  change decodeWord (fmtR 0 (up4 hb) (up4 ha) d 0x51) = _
  rw [decodeWord_51 _ (by simp only [fOp_fmtR])]
  unfold decSplice
  simp [need, bZero, aZero, dZero, fZero, vvv, vv0, vv, scopeB]

theorem mmar (d : SReg) (ha hb : HNum) : Statement (.mmar d ha hb) := by
  intro _ _
  change decodeWord (fmtR 0 (up4 hb) (up4 ha) d 0x52) = _
  rw [decodeWord_52 _ (by simp only [fOp_fmtR])]
  unfold decSplice
  simp [need, bZero, aZero, dZero, fZero, vvv, vv0, vv, scopeB]

theorem mmarLast (d : SReg) (ha hb : HNum) : Statement (.mmarLast d ha hb) := by
  intro _ _
  change decodeWord (fmtR 1 (up4 hb) (up4 ha) d 0x52) = _
  rw [decodeWord_52 _ (by simp only [fOp_fmtR])]
  unfold decSplice
  simp [need, bZero, aZero, dZero, fZero, vvv, vv0, vv, scopeB]

theorem mzero (d : SReg) : Statement (.mzero d) := by
  intro _ _
  change decodeWord (fmtR 0 0 0 d 0x53) = _
  rw [decodeWord_53 _ (by simp only [fOp_fmtR])]
  unfold decSplice
  simp [need, bZero, aZero, dZero, fZero, vvv, vv0, vv, scopeB]

theorem mrdacc (d : SReg) (ha : HNum) (t : AccTarget) : Statement (.mrdacc d ha t) := by
  intro h _
  change decodeWord (fmtR 0 t.field (up4 ha) d 0x54) = _
  rw [decodeWord_54 _ (by simp only [fOp_fmtR])]
  unfold decSplice
  cases t with
  | code s =>
    have hs : ∀ x : SlotNum, x = 0 ∨ x = 1 ∨ x = 2 ∨ x = 3 := by decide
    rcases hs s with rfl | rfl | rfl | rfl <;> simp [need, fZero, AccTarget.field, lo2]
  | _ => simp [need, fZero, AccTarget.field]

theorem mwait (d a : SReg) : Statement (.mwait d a) := by
  intro _ _
  change decodeWord (fmtR 0 0 a d 0x55) = _
  rw [decodeWord_55 _ (by simp only [fOp_fmtR])]
  unfold decSplice
  simp [need, bZero, aZero, dZero, fZero, vvv, vv0, vv, scopeB]

theorem mpoll (d a : SReg) : Statement (.mpoll d a) := by
  intro _ _
  change decodeWord (fmtR 0 0 a d 0x56) = _
  rw [decodeWord_56 _ (by simp only [fOp_fmtR])]
  unfold decSplice
  simp [need, bZero, aZero, dZero, fZero, vvv, vv0, vv, scopeB]

theorem cpy (d : SReg) (g : BitVec 4) : Statement (.cpy d g) := by
  intro _ _
  change decodeWord (fmtR 0 0 (g ++ (0 : BitVec 2)) d 0x58) = _
  rw [decodeWord_58 _ (by simp only [fOp_fmtR])]
  unfold decReeve
  simp [need, bZero, aZero, dZero, fZero, vvv, vv0, vv, scopeB]

theorem cpy2 (d : SReg) (g : BitVec 4) : Statement (.cpy2 d g) := by
  intro _ _
  change decodeWord (fmtR 0 0 (g ++ (0 : BitVec 2)) d 0x59) = _
  rw [decodeWord_59 _ (by simp only [fOp_fmtR])]
  unfold decReeve
  simp [need, bZero, aZero, dZero, fZero, vvv, vv0, vv, scopeB]

theorem cpypl (d : SReg) (g : BitVec 4) : Statement (.cpypl d g) := by
  intro _ _
  change decodeWord (fmtR 0 0 (g ++ (0 : BitVec 2)) d 0x5A) = _
  rw [decodeWord_5A _ (by simp only [fOp_fmtR])]
  unfold decReeve
  simp [need, bZero, aZero, dZero, fZero, vvv, vv0, vv, scopeB]

theorem cpyrd (d : SReg) (g : BitVec 4) : Statement (.cpyrd d g) := by
  intro _ _
  change decodeWord (fmtR 0 0 (g ++ (0 : BitVec 2)) d 0x5B) = _
  rw [decodeWord_5B _ (by simp only [fOp_fmtR])]
  unfold decReeve
  simp [need, bZero, aZero, dZero, fZero, vvv, vv0, vv, scopeB]

theorem cpyfill (d : SReg) (g : BitVec 4) : Statement (.cpyfill d g) := by
  intro _ _
  change decodeWord (fmtR 0 0 (g ++ (0 : BitVec 2)) d 0x5C) = _
  rw [decodeWord_5C _ (by simp only [fOp_fmtR])]
  unfold decReeve
  simp [need, bZero, aZero, dZero, fZero, vvv, vv0, vv, scopeB]

theorem cwait (d a : SReg) : Statement (.cwait d a) := by
  intro _ _
  change decodeWord (fmtR 0 0 a d 0x5D) = _
  rw [decodeWord_5D _ (by simp only [fOp_fmtR])]
  unfold decReeve
  simp [need, bZero, aZero, dZero, fZero, vvv, vv0, vv, scopeB]

theorem cpoll (d a : SReg) : Statement (.cpoll d a) := by
  intro _ _
  change decodeWord (fmtR 0 0 a d 0x5E) = _
  rw [decodeWord_5E _ (by simp only [fOp_fmtR])]
  unfold decReeve
  simp [need, bZero, aZero, dZero, fZero, vvv, vv0, vv, scopeB]

theorem amoAdd (d a b : SReg) (wd : AWidth) (o : Order) : Statement (.amoAdd d a b wd o) := by
  intro _ _
  change decodeWord (fmtR (fAmo 0 wd o) b a d 0x60) = _
  rw [decodeWord_60 _ (by simp only [fOp_fmtR])]
  unfold decAmo
  simp [need, bZero, aZero, dZero, fZero, vvv, vv0, vv, scopeB]

theorem amoAnd (d a b : SReg) (wd : AWidth) (o : Order) : Statement (.amoAnd d a b wd o) := by
  intro _ _
  change decodeWord (fmtR (fAmo 1 wd o) b a d 0x60) = _
  rw [decodeWord_60 _ (by simp only [fOp_fmtR])]
  unfold decAmo
  simp [need, bZero, aZero, dZero, fZero, vvv, vv0, vv, scopeB]

theorem amoOr (d a b : SReg) (wd : AWidth) (o : Order) : Statement (.amoOr d a b wd o) := by
  intro _ _
  change decodeWord (fmtR (fAmo 2 wd o) b a d 0x60) = _
  rw [decodeWord_60 _ (by simp only [fOp_fmtR])]
  unfold decAmo
  simp [need, bZero, aZero, dZero, fZero, vvv, vv0, vv, scopeB]

theorem amoXor (d a b : SReg) (wd : AWidth) (o : Order) : Statement (.amoXor d a b wd o) := by
  intro _ _
  change decodeWord (fmtR (fAmo 3 wd o) b a d 0x60) = _
  rw [decodeWord_60 _ (by simp only [fOp_fmtR])]
  unfold decAmo
  simp [need, bZero, aZero, dZero, fZero, vvv, vv0, vv, scopeB]

theorem amoMin (d a b : SReg) (wd : AWidth) (o : Order) : Statement (.amoMin d a b wd o) := by
  intro _ _
  change decodeWord (fmtR (fAmo 4 wd o) b a d 0x60) = _
  rw [decodeWord_60 _ (by simp only [fOp_fmtR])]
  unfold decAmo
  simp [need, bZero, aZero, dZero, fZero, vvv, vv0, vv, scopeB]

theorem amoMax (d a b : SReg) (wd : AWidth) (o : Order) : Statement (.amoMax d a b wd o) := by
  intro _ _
  change decodeWord (fmtR (fAmo 5 wd o) b a d 0x60) = _
  rw [decodeWord_60 _ (by simp only [fOp_fmtR])]
  unfold decAmo
  simp [need, bZero, aZero, dZero, fZero, vvv, vv0, vv, scopeB]

theorem amoMinn (d a b : SReg) (wd : AWidth) (o : Order) : Statement (.amoMinn d a b wd o) := by
  intro _ _
  change decodeWord (fmtR (fAmo 6 wd o) b a d 0x60) = _
  rw [decodeWord_60 _ (by simp only [fOp_fmtR])]
  unfold decAmo
  simp [need, bZero, aZero, dZero, fZero, vvv, vv0, vv, scopeB]

theorem amoMaxn (d a b : SReg) (wd : AWidth) (o : Order) : Statement (.amoMaxn d a b wd o) := by
  intro _ _
  change decodeWord (fmtR (fAmo 7 wd o) b a d 0x60) = _
  rw [decodeWord_60 _ (by simp only [fOp_fmtR])]
  unfold decAmo
  simp [need, bZero, aZero, dZero, fZero, vvv, vv0, vv, scopeB]

theorem amoSwap (d a b : SReg) (wd : AWidth) (o : Order) : Statement (.amoSwap d a b wd o) := by
  intro _ _
  change decodeWord (fmtR (fAmo 8 wd o) b a d 0x60) = _
  rw [decodeWord_60 _ (by simp only [fOp_fmtR])]
  unfold decAmo
  simp [need, bZero, aZero, dZero, fZero, vvv, vv0, vv, scopeB]

theorem amoFadd (d a b : SReg) (wd : AWidth) (o : Order) : Statement (.amoFadd d a b wd o) := by
  intro _ _
  change decodeWord (fmtR (fAmo 9 wd o) b a d 0x60) = _
  rw [decodeWord_60 _ (by simp only [fOp_fmtR])]
  unfold decAmo
  simp [need, bZero, aZero, dZero, fZero, vvv, vv0, vv, scopeB]

theorem redAdd (a b : SReg) (wd : AWidth) (o : Order) : Statement (.redAdd a b wd o) := by
  intro _ _
  change decodeWord (fmtR (fAmo 0 wd o) b a 0 0x61) = _
  rw [decodeWord_61 _ (by simp only [fOp_fmtR])]
  unfold decRed
  simp [need, bZero, aZero, dZero, fZero, vvv, vv0, vv, scopeB]

theorem redAnd (a b : SReg) (wd : AWidth) (o : Order) : Statement (.redAnd a b wd o) := by
  intro _ _
  change decodeWord (fmtR (fAmo 1 wd o) b a 0 0x61) = _
  rw [decodeWord_61 _ (by simp only [fOp_fmtR])]
  unfold decRed
  simp [need, bZero, aZero, dZero, fZero, vvv, vv0, vv, scopeB]

theorem redOr (a b : SReg) (wd : AWidth) (o : Order) : Statement (.redOr a b wd o) := by
  intro _ _
  change decodeWord (fmtR (fAmo 2 wd o) b a 0 0x61) = _
  rw [decodeWord_61 _ (by simp only [fOp_fmtR])]
  unfold decRed
  simp [need, bZero, aZero, dZero, fZero, vvv, vv0, vv, scopeB]

theorem redXor (a b : SReg) (wd : AWidth) (o : Order) : Statement (.redXor a b wd o) := by
  intro _ _
  change decodeWord (fmtR (fAmo 3 wd o) b a 0 0x61) = _
  rw [decodeWord_61 _ (by simp only [fOp_fmtR])]
  unfold decRed
  simp [need, bZero, aZero, dZero, fZero, vvv, vv0, vv, scopeB]

theorem redMin (a b : SReg) (wd : AWidth) (o : Order) : Statement (.redMin a b wd o) := by
  intro _ _
  change decodeWord (fmtR (fAmo 4 wd o) b a 0 0x61) = _
  rw [decodeWord_61 _ (by simp only [fOp_fmtR])]
  unfold decRed
  simp [need, bZero, aZero, dZero, fZero, vvv, vv0, vv, scopeB]

theorem redMax (a b : SReg) (wd : AWidth) (o : Order) : Statement (.redMax a b wd o) := by
  intro _ _
  change decodeWord (fmtR (fAmo 5 wd o) b a 0 0x61) = _
  rw [decodeWord_61 _ (by simp only [fOp_fmtR])]
  unfold decRed
  simp [need, bZero, aZero, dZero, fZero, vvv, vv0, vv, scopeB]

theorem redMinn (a b : SReg) (wd : AWidth) (o : Order) : Statement (.redMinn a b wd o) := by
  intro _ _
  change decodeWord (fmtR (fAmo 6 wd o) b a 0 0x61) = _
  rw [decodeWord_61 _ (by simp only [fOp_fmtR])]
  unfold decRed
  simp [need, bZero, aZero, dZero, fZero, vvv, vv0, vv, scopeB]

theorem redMaxn (a b : SReg) (wd : AWidth) (o : Order) : Statement (.redMaxn a b wd o) := by
  intro _ _
  change decodeWord (fmtR (fAmo 7 wd o) b a 0 0x61) = _
  rw [decodeWord_61 _ (by simp only [fOp_fmtR])]
  unfold decRed
  simp [need, bZero, aZero, dZero, fZero, vvv, vv0, vv, scopeB]

theorem redFadd (a b : SReg) (wd : AWidth) (o : Order) : Statement (.redFadd a b wd o) := by
  intro _ _
  change decodeWord (fmtR (fAmo 9 wd o) b a 0 0x61) = _
  rw [decodeWord_61 _ (by simp only [fOp_fmtR])]
  unfold decRed
  simp [need, bZero, aZero, dZero, fZero, vvv, vv0, vv, scopeB]

theorem cas (d a b : SReg) (wd : AWidth) : Statement (.cas d a b wd) := by
  intro h _
  change decodeWord (fmtR ((0 : BitVec 6) ++ wd.bit) b a d 0x62) = _
  rw [decodeWord_62 _ (by simp only [fOp_fmtR])]
  cases wd <;> simp [AWidth.bit, AWidth.ofBit, need]

theorem chunk (d a : SReg) : Statement (.chunk d a) := by
  intro h _
  change decodeWord (fmtR 0 0 a d 0x63) = _
  rw [decodeWord_63 _ (by simp only [fOp_fmtR])]
  simp only [Instr.wf] at h
  simp [h, need, bZero, aZero, dZero, fZero]

theorem fenceAcq (sc : Scope) : Statement (.fenceAcq sc) := by
  intro h _
  change decodeWord (fmtR ((0 : BitVec 2) ++ (0 : BitVec 2) ++ sc.code) 0 0 0 0x64) = _
  rw [decodeWord_64 _ (by simp only [fOp_fmtR])]
  unfold decFence
  cases sc <;> simp [Scope.code, Scope.ofCode, need, bZero, aZero, dZero, fZero, vv]

theorem fenceRel (sc : Scope) : Statement (.fenceRel sc) := by
  intro h _
  change decodeWord (fmtR ((0 : BitVec 2) ++ (1 : BitVec 2) ++ sc.code) 0 0 0 0x64) = _
  rw [decodeWord_64 _ (by simp only [fOp_fmtR])]
  unfold decFence
  cases sc <;> simp [Scope.code, Scope.ofCode, need, bZero, aZero, dZero, fZero, vv]

theorem fenceFull (sc : Scope) : Statement (.fenceFull sc) := by
  intro h _
  change decodeWord (fmtR ((0 : BitVec 2) ++ (2 : BitVec 2) ++ sc.code) 0 0 0 0x64) = _
  rw [decodeWord_64 _ (by simp only [fOp_fmtR])]
  unfold decFence
  cases sc <;> simp [Scope.code, Scope.ofCode, need, bZero, aZero, dZero, fZero, vv]

theorem barrive (d a : SReg) : Statement (.barrive d a) := by
  intro _ _
  change decodeWord (fmtR 0 0 a d 0x65) = _
  rw [decodeWord_65 _ (by simp only [fOp_fmtR])]
  unfold decBarrier
  simp [need, bZero, aZero, dZero, fZero, vvv, vv0, vv, scopeB]

theorem barrived (d a : SReg) : Statement (.barrived d a) := by
  intro _ _
  change decodeWord (fmtR 1 0 a d 0x65) = _
  rw [decodeWord_65 _ (by simp only [fOp_fmtR])]
  unfold decBarrier
  simp [need, bZero, aZero, dZero, fZero, vvv, vv0, vv, scopeB]

theorem barwait (a b : SReg) : Statement (.barwait a b) := by
  intro _ _
  change decodeWord (fmtR 2 b a 0 0x65) = _
  rw [decodeWord_65 _ (by simp only [fOp_fmtR])]
  unfold decBarrier
  simp [need, bZero, aZero, dZero, fZero, vvv, vv0, vv, scopeB]

theorem bartry (d a b : SReg) : Statement (.bartry d a b) := by
  intro _ _
  change decodeWord (fmtR 3 b a d 0x65) = _
  rw [decodeWord_65 _ (by simp only [fOp_fmtR])]
  unfold decBarrier
  simp [need, bZero, aZero, dZero, fZero, vvv, vv0, vv, scopeB]

theorem barinit (a b : SReg) (sc : Scope) : Statement (.barinit a b sc) := by
  intro h _
  change decodeWord (fmtR ((0 : BitVec 1) ++ sc.code ++ (4 : BitVec 3)) b a 0 0x65) = _
  rw [decodeWord_65 _ (by simp only [fOp_fmtR])]
  unfold decBarrier
  cases sc <;> simp [Scope.code, Scope.ofCode, need, bZero, aZero, dZero, fZero, vv]

theorem jinit (d a b : SReg) : Statement (.jinit d a b) := by
  intro _ _
  change decodeWord (fmtR 5 b a d 0x65) = _
  rw [decodeWord_65 _ (by simp only [fOp_fmtR])]
  unfold decBarrier
  simp [need, bZero, aZero, dZero, fZero, vvv, vv0, vv, scopeB]

theorem isync (sc : Scope) : Statement (.isync sc) := by
  intro h _
  change decodeWord (fmtR ((0 : BitVec 4) ++ sc.code) 0 0 0 0x66) = _
  rw [decodeWord_66 _ (by simp only [fOp_fmtR])]
  unfold decIsync
  cases sc <;> simp [Scope.code, Scope.ofCode, need, bZero, aZero, dZero, fZero, vv]

theorem rdef (h : HNum) (b : SReg) : Statement (.rdef h b) := by
  intro _ _
  change decodeWord (fmtR 0 b (up4 h) 0 0x68) = _
  rw [decodeWord_68 _ (by simp only [fOp_fmtR])]
  unfold decRing
  simp [need, bZero, aZero, dZero, fZero, vvv, vv0, vv, scopeB]

theorem rwaitf (h : HNum) (n : BitVec 4) : Statement (.rwaitf h n) := by
  intro _ _
  change decodeWord (fmtR 1 (up4 n) (up4 h) 0 0x68) = _
  rw [decodeWord_68 _ (by simp only [fOp_fmtR])]
  unfold decRing
  simp [need, bZero, aZero, dZero, fZero, vvv, vv0, vv, scopeB]

theorem rwaite (h : HNum) (n : BitVec 4) : Statement (.rwaite h n) := by
  intro _ _
  change decodeWord (fmtR 2 (up4 n) (up4 h) 0 0x68) = _
  rw [decodeWord_68 _ (by simp only [fOp_fmtR])]
  unfold decRing
  simp [need, bZero, aZero, dZero, fZero, vvv, vv0, vv, scopeB]

theorem radvh (h : HNum) (n : BitVec 4) : Statement (.radvh h n) := by
  intro _ _
  change decodeWord (fmtR 3 (up4 n) (up4 h) 0 0x68) = _
  rw [decodeWord_68 _ (by simp only [fOp_fmtR])]
  unfold decRing
  simp [need, bZero, aZero, dZero, fZero, vvv, vv0, vv, scopeB]

theorem radvt (h : HNum) (n : BitVec 4) : Statement (.radvt h n) := by
  intro _ _
  change decodeWord (fmtR 4 (up4 n) (up4 h) 0 0x68) = _
  rw [decodeWord_68 _ (by simp only [fOp_fmtR])]
  unfold decRing
  simp [need, bZero, aZero, dZero, fZero, vvv, vv0, vv, scopeB]

theorem rinfo (d : SReg) (h : HNum) : Statement (.rinfo d h) := by
  intro _ _
  change decodeWord (fmtR 5 0 (up4 h) d 0x68) = _
  rw [decodeWord_68 _ (by simp only [fOp_fmtR])]
  unfold decRing
  simp [need, bZero, aZero, dZero, fZero, vvv, vv0, vv, scopeB]

theorem send (e : BitVec 8) (a : SReg) (n : BitVec 3) : Statement (.send e a n) := by
  intro h _
  change decodeWord (fmtM n a e 0x70) = _
  rw [decodeWord_70 _ (by simp only [fOp_fmtM])]
  unfold decSend
  simp only [Instr.wf] at h
  simp [h, need, bZero, aZero, dZero, fZero, vvv, vv0, vv, scopeB]

theorem mpop (d : SReg) (t : TagNum) : Statement (.mpop d t) := by
  intro h _
  change decodeWord (fmtR 0 (up4 t) 0 d 0x71) = _
  rw [decodeWord_71 _ (by simp only [fOp_fmtR])]
  unfold decMpop
  simp only [Instr.wf] at h
  simp [h, need, bZero, aZero, dZero, fZero, vvv, vv0, vv, scopeB]

theorem mpeek (d : SReg) (t : TagNum) : Statement (.mpeek d t) := by
  intro h _
  change decodeWord (fmtR 1 (up4 t) 0 d 0x71) = _
  rw [decodeWord_71 _ (by simp only [fOp_fmtR])]
  unfold decMpop
  simp only [Instr.wf] at h
  simp [h, need, bZero, aZero, dZero, fZero, vvv, vv0, vv, scopeB]

theorem tagen (t : TagNum) : Statement (.tagen t) := by
  intro _ _
  change decodeWord (fmtR 0 (up4 t) 0 0 0x72) = _
  rw [decodeWord_72 _ (by simp only [fOp_fmtR])]
  unfold decTagOp
  simp [need, bZero, aZero, dZero, fZero, vvv, vv0, vv, scopeB]

theorem tagdis (t : TagNum) : Statement (.tagdis t) := by
  intro _ _
  change decodeWord (fmtR 1 (up4 t) 0 0 0x72) = _
  rw [decodeWord_72 _ (by simp only [fOp_fmtR])]
  unfold decTagOp
  simp [need, bZero, aZero, dZero, fZero, vvv, vv0, vv, scopeB]

theorem tagpend (d : SReg) (t : TagNum) : Statement (.tagpend d t) := by
  intro _ _
  change decodeWord (fmtR 2 (up4 t) 0 d 0x72) = _
  rw [decodeWord_72 _ (by simp only [fOp_fmtR])]
  unfold decTagOp
  simp [need, bZero, aZero, dZero, fZero, vvv, vv0, vv, scopeB]

theorem endj (a : SReg) : Statement (.endj a) := by
  intro _ _
  change decodeWord (fmtR 1 0 a 0 0x73) = _
  rw [decodeWord_73 _ (by simp only [fOp_fmtR])]
  unfold decEnd
  simp [need, bZero, aZero, dZero, fZero, vvv, vv0, vv, scopeB]

theorem fork (a b : SReg) : Statement (.fork a b) := by
  intro _ _
  change decodeWord (fmtR 0 b a 0 0x74) = _
  rw [decodeWord_74 _ (by simp only [fOp_fmtR])]
  simp [need, bZero, aZero, dZero, fZero]

theorem safept (n : BitVec 8) : Statement (.safept n) := by
  intro _ _
  change decodeWord (fmtI ((0 : BitVec 5) ++ n) 0 0 0x75) = _
  rw [decodeWord_75 _ (by simp only [fOp_fmtI])]
  unfold decSafept
  simp [need, bZero, aZero, dZero, fZero, vvv, vv0, vv, scopeB]

theorem trap (n : BitVec 13) : Statement (.trap n) := by
  intro _ _
  change decodeWord (fmtI n 0 0 0x78) = _
  rw [decodeWord_78 _ (by simp only [fOp_fmtI])]
  simp [need, bZero, aZero, dZero, fZero]

theorem bkpt (n : BitVec 13) : Statement (.bkpt n) := by
  intro _ _
  change decodeWord (fmtI n 0 0 0x7A) = _
  rw [decodeWord_7A _ (by simp only [fOp_fmtI])]
  simp [need, bZero, aZero, dZero, fZero]

theorem mtrd (d : SReg) : Statement (.mtrd d) := by
  intro _ _
  change decodeWord (fmtR 0 0 0 d 0x7B) = _
  rw [decodeWord_7B _ (by simp only [fOp_fmtR])]
  unfold decMeter
  simp [need, bZero, aZero, dZero, fZero, vvv, vv0, vv, scopeB]

theorem mtcls (d : SReg) (c : BitVec 4) : Statement (.mtcls d c) := by
  intro _ _
  change decodeWord (fmtR 1 (up4 c) 0 d 0x7B) = _
  rw [decodeWord_7B _ (by simp only [fOp_fmtR])]
  unfold decMeter
  simp [need, bZero, aZero, dZero, fZero, vvv, vv0, vv, scopeB]

theorem pdly (d : SReg) (i : BitVec 6) : Statement (.pdly d i) := by
  intro _ _
  change decodeWord (fmtR 2 i 0 d 0x7B) = _
  rw [decodeWord_7B _ (by simp only [fOp_fmtR])]
  unfold decMeter
  simp [need, bZero, aZero, dZero, fZero, vvv, vv0, vv, scopeB]

theorem foffer (d a b : SReg) : Statement (.foffer d a b) := by
  intro _ _
  change decodeWord (fmtR 0 b a d 0x7C) = _
  rw [decodeWord_7C _ (by simp only [fOp_fmtR])]
  unfold decFrame
  simp [need, bZero, aZero, dZero, fZero, vvv, vv0, vv, scopeB]

theorem faccept (d a b : SReg) : Statement (.faccept d a b) := by
  intro _ _
  change decodeWord (fmtR 1 b a d 0x7C) = _
  rw [decodeWord_7C _ (by simp only [fOp_fmtR])]
  unfold decFrame
  simp [need, bZero, aZero, dZero, fZero, vvv, vv0, vv, scopeB]

theorem fdecline (d a b : SReg) : Statement (.fdecline d a b) := by
  intro _ _
  change decodeWord (fmtR 2 b a d 0x7C) = _
  rw [decodeWord_7C _ (by simp only [fOp_fmtR])]
  unfold decFrame
  simp [need, bZero, aZero, dZero, fZero, vvv, vv0, vv, scopeB]

theorem fwithdraw (d a b : SReg) : Statement (.fwithdraw d a b) := by
  intro _ _
  change decodeWord (fmtR 3 b a d 0x7C) = _
  rw [decodeWord_7C _ (by simp only [fOp_fmtR])]
  unfold decFrame
  simp [need, bZero, aZero, dZero, fZero, vvv, vv0, vv, scopeB]

theorem flend (d a b : SReg) : Statement (.flend d a b) := by
  intro _ _
  change decodeWord (fmtR 4 b a d 0x7C) = _
  rw [decodeWord_7C _ (by simp only [fOp_fmtR])]
  unfold decFrame
  simp [need, bZero, aZero, dZero, fZero, vvv, vv0, vv, scopeB]

theorem frecall (d a b : SReg) : Statement (.frecall d a b) := by
  intro _ _
  change decodeWord (fmtR 5 b a d 0x7C) = _
  rw [decodeWord_7C _ (by simp only [fOp_fmtR])]
  unfold decFrame
  simp [need, bZero, aZero, dZero, fZero, vvv, vv0, vv, scopeB]

theorem frelease (d a b : SReg) : Statement (.frelease d a b) := by
  intro _ _
  change decodeWord (fmtR 6 b a d 0x7C) = _
  rw [decodeWord_7C _ (by simp only [fOp_fmtR])]
  unfold decFrame
  simp [need, bZero, aZero, dZero, fZero, vvv, vv0, vv, scopeB]

theorem fscrub (d a b : SReg) : Statement (.fscrub d a b) := by
  intro _ _
  change decodeWord (fmtR 7 b a d 0x7C) = _
  rw [decodeWord_7C _ (by simp only [fOp_fmtR])]
  unfold decFrame
  simp [need, bZero, aZero, dZero, fZero, vvv, vv0, vv, scopeB]

theorem illegal (w : IWord) : Statement (.illegal w) := by
  intro _ h; cases h

theorem endh : Statement (.endh) := by
  intro _ _
  change decodeWord (fmtR 0 0 0 0 0x73) = _
  rw [decodeWord_73 _ (by simp only [fOp_fmtR])]
  unfold decEnd
  simp [need, bZero, aZero, dZero, fZero, vvv, vv0, vv, scopeB]

theorem eret : Statement (.eret) := by
  intro _ _
  change decodeWord (fmtI 0 0 0 0x79) = _
  rw [decodeWord_79 _ (by simp only [fOp_fmtI])]
  simp [need, bZero, aZero, dZero, fZero]

theorem psaved : Statement (.psaved) := by
  intro _ _
  change decodeWord (fmtI 0 0 1 0x75) = _
  rw [decodeWord_75 _ (by simp only [fOp_fmtI])]
  unfold decSafept
  simp [need, bZero, aZero, dZero, fZero, vvv, vv0, vv, scopeB]

theorem actload (d a b : SReg) : Statement (.actload d a b) := by
  intro _ _
  change decodeWord (fmtR 0 b a d 0x7D) = _
  rw [decodeWord_7D _ (by simp only [fOp_fmtR])]
  unfold decKernel
  simp [need, bZero, aZero, dZero, fZero, vvv, vv0, vv, scopeB]

theorem actunld (d a b : SReg) : Statement (.actunld d a b) := by
  intro _ _
  change decodeWord (fmtR 1 b a d 0x7D) = _
  rw [decodeWord_7D _ (by simp only [fOp_fmtR])]
  unfold decKernel
  simp [need, bZero, aZero, dZero, fZero, vvv, vv0, vv, scopeB]

theorem actbind (d a b : SReg) : Statement (.actbind d a b) := by
  intro _ _
  change decodeWord (fmtR 2 b a d 0x7D) = _
  rw [decodeWord_7D _ (by simp only [fOp_fmtR])]
  unfold decKernel
  simp [need, bZero, aZero, dZero, fZero, vvv, vv0, vv, scopeB]

theorem tinv (d a b : SReg) : Statement (.tinv d a b) := by
  intro _ _
  change decodeWord (fmtR 3 b a d 0x7D) = _
  rw [decodeWord_7D _ (by simp only [fOp_fmtR])]
  unfold decKernel
  simp [need, bZero, aZero, dZero, fZero, vvv, vv0, vv, scopeB]

theorem ctxsw (d a b : SReg) : Statement (.ctxsw d a b) := by
  intro _ _
  change decodeWord (fmtR 4 b a d 0x7D) = _
  rw [decodeWord_7D _ (by simp only [fOp_fmtR])]
  unfold decKernel
  simp [need, bZero, aZero, dZero, fZero, vvv, vv0, vv, scopeB]

theorem ctxswRestore (d a b : SReg) : Statement (.ctxswRestore d a b) := by
  intro _ h; cases h

theorem ctxswFresh (d a b : SReg) : Statement (.ctxswFresh d a b) := by
  intro _ h; cases h

theorem aresume (d a b : SReg) : Statement (.aresume d a b) := by
  intro _ _
  change decodeWord (fmtR 5 b a d 0x7D) = _
  rw [decodeWord_7D _ (by simp only [fOp_fmtR])]
  unfold decKernel
  simp [need, bZero, aZero, dZero, fZero, vvv, vv0, vv, scopeB]

theorem akill (d a b : SReg) : Statement (.akill d a b) := by
  intro _ _
  change decodeWord (fmtR 6 b a d 0x7D) = _
  rw [decodeWord_7D _ (by simp only [fOp_fmtR])]
  unfold decKernel
  simp [need, bZero, aZero, dZero, fZero, vvv, vv0, vv, scopeB]

theorem qset (d a b : SReg) : Statement (.qset d a b) := by
  intro _ _
  change decodeWord (fmtR 7 b a d 0x7D) = _
  rw [decodeWord_7D _ (by simp only [fOp_fmtR])]
  unfold decKernel
  simp [need, bZero, aZero, dZero, fZero, vvv, vv0, vv, scopeB]

theorem epreq (d a b : SReg) : Statement (.epreq d a b) := by
  intro _ _
  change decodeWord (fmtR 8 b a d 0x7D) = _
  rw [decodeWord_7D _ (by simp only [fOp_fmtR])]
  unfold decKernel
  simp [need, bZero, aZero, dZero, fZero, vvv, vv0, vv, scopeB]

theorem messageArrival (i : Nat) : Statement (.messageArrival i) := by
  intro _ h; cases h

theorem messageMoveBack (core : Nat) : Statement (.messageMoveBack core) := by
  intro _ h; cases h

theorem tagFire (core slot : Nat) : Statement (.tagFire core slot) := by
  intro _ h; cases h

theorem dequePop (core slot : Nat) : Statement (.dequePop core slot) := by
  intro _ h; cases h

theorem stealPass (core slot : Nat) : Statement (.stealPass core slot) := by
  intro _ h; cases h

theorem stealRequest (i : Nat) : Statement (.stealRequest i) := by
  intro _ h; cases h

theorem stealReply (i : Nat) : Statement (.stealReply i) := by
  intro _ h; cases h

theorem stealRetry (core slot : Nat) : Statement (.stealRetry core slot) := by
  intro _ h; cases h

theorem activationResume (core : Nat) : Statement (.activationResume core) := by
  intro _ h; cases h

theorem priorityAgeing (core slot : Nat) : Statement (.priorityAgeing core slot) := by
  intro _ h; cases h

theorem pbudgetExpiry (core slot : Nat) : Statement (.pbudgetExpiry core slot) := by
  intro _ h; cases h

theorem saveRoutineLimit (core slot : Nat) : Statement (.saveRoutineLimit core slot) := by
  intro _ h; cases h

theorem jobAccept (core slot : Nat) : Statement (.jobAccept core slot) := by
  intro _ h; cases h

theorem spliceJobStart (eng id : Nat) : Statement (.spliceJobStart eng id) := by
  intro _ h; cases h

theorem spliceJobEnd (eng id : Nat) : Statement (.spliceJobEnd eng id) := by
  intro _ h; cases h

theorem mmarForwardLanded (eng id : Nat) (west : Bool) : Statement (.mmarForwardLanded eng id west) := by
  intro _ h; cases h

theorem reeveRingSlot (eng id : Nat) : Statement (.reeveRingSlot eng id) := by
  intro _ h; cases h

theorem reeveJobEnd (eng id : Nat) : Statement (.reeveJobEnd eng id) := by
  intro _ h; cases h

theorem barrierDeferLand (i : Nat) : Statement (.barrierDeferLand i) := by
  intro _ h; cases h

theorem continuationDeferredSend (i : Nat) : Statement (.continuationDeferredSend i) := by
  intro _ h; cases h

theorem memoryResponse (core i cycles : Nat) : Statement (.memoryResponse core i cycles) := by
  intro _ h; cases h

theorem pageWalk (core i : Nat) : Statement (.pageWalk core i) := by
  intro _ h; cases h

theorem recallDeadline (frame : Nat) : Statement (.recallDeadline frame) := by
  intro _ h; cases h

theorem recallClusterInvalidate (frame cluster : Nat) : Statement (.recallClusterInvalidate frame cluster) := by
  intro _ h; cases h

theorem lateWrite (frame cluster : Nat) : Statement (.lateWrite frame cluster) := by
  intro _ h; cases h

theorem recallClosingComplete (frame : Nat) : Statement (.recallClosingComplete frame) := by
  intro _ h; cases h

theorem cxlMemRequest (host pa : Nat) (op : CxlOp) : Statement (.cxlMemRequest host pa op) := by
  intro _ h; cases h

theorem backInvalidateResponse (line : Nat) (data : Option LineBits) : Statement (.backInvalidateResponse line data) := by
  intro _ h; cases h

theorem backInvalidateTimeout (line : Nat) : Statement (.backInvalidateTimeout line) := by
  intro _ h; cases h

theorem chargeApply (i : Nat) : Statement (.chargeApply i) := by
  intro _ h; cases h

theorem heldSeen (core : Nat) : Statement (.heldSeen core) := by
  intro _ h; cases h

theorem meterTick (meter supply : Nat) (costs : List SharedCost) : Statement (.meterTick meter supply costs) := by
  intro _ h; cases h

theorem droopTrip (cluster : Nat) : Statement (.droopTrip cluster) := by
  intro _ h; cases h

theorem droopEnd (cluster : Nat) : Statement (.droopEnd cluster) := by
  intro _ h; cases h

theorem throttleTick (temps : List Nat) (power : Nat) : Statement (.throttleTick temps power) := by
  intro _ h; cases h

theorem thermalStop (die : Nat) : Statement (.thermalStop die) := by
  intro _ h; cases h

theorem thermalResume (die : Nat) : Statement (.thermalResume die) := by
  intro _ h; cases h

theorem railFault : Statement (.railFault) := by
  intro _ h; cases h

theorem packageReset : Statement (.packageReset) := by
  intro _ h; cases h

theorem bringupStage (err : Nat) (failed : BitVec 10) (cxlTier : Bool) (images : List Firmware) : Statement (.bringupStage err failed cxlTier images) := by
  intro _ h; cases h

theorem extend : Statement (.extend) := by
  intro _ h; cases h

theorem evidence : Statement (.evidence) := by
  intro _ h; cases h

theorem policy : Statement (.policy) := by
  intro _ h; cases h

theorem create : Statement (.create) := by
  intro _ h; cases h

theorem destroy : Statement (.destroy) := by
  intro _ h; cases h

theorem retire : Statement (.retire) := by
  intro _ h; cases h

theorem logread : Statement (.logread) := by
  intro _ h; cases h

theorem mode : Statement (.mode) := by
  intro _ h; cases h

theorem grant : Statement (.grant) := by
  intro _ h; cases h

theorem consent : Statement (.consent) := by
  intro _ h; cases h

theorem revoke : Statement (.revoke) := by
  intro _ h; cases h

theorem hold : Statement (.hold) := by
  intro _ h; cases h

theorem release : Statement (.release) := by
  intro _ h; cases h

theorem step : Statement (.step) := by
  intro _ h; cases h

theorem snap : Statement (.snap) := by
  intro _ h; cases h

theorem trace : Statement (.trace) := by
  intro _ h; cases h

theorem window : Statement (.window) := by
  intro _ h; cases h

theorem lock : Statement (.lock) := by
  intro _ h; cases h

theorem unlock : Statement (.unlock) := by
  intro _ h; cases h

theorem hostIngressWrite (fn off size : Nat) (data : BitVec 512) : Statement (.hostIngressWrite fn off size data) := by
  intro _ h; cases h

theorem hostEgressWrite (fn : Nat) : Statement (.hostEgressWrite fn) := by
  intro _ h; cases h

theorem lanyardFlitSend (port : Nat) : Statement (.lanyardFlitSend port) := by
  intro _ h; cases h

theorem lanyardDataFlit (port : Nat) (f : Flit) : Statement (.lanyardDataFlit port f) := by
  intro _ h; cases h

theorem lanyardMarker (port : Nat) (f : Flit) : Statement (.lanyardMarker port f) := by
  intro _ h; cases h

theorem lanyardResyncMarker (port : Nat) (f : Flit) : Statement (.lanyardResyncMarker port f) := by
  intro _ h; cases h

theorem lanyardRetry (port : Nat) (f : Flit) : Statement (.lanyardRetry port f) := by
  intro _ h; cases h

theorem lanyardIdle (port : Nat) (f : Flit) : Statement (.lanyardIdle port f) := by
  intro _ h; cases h

theorem lanyardAckTimeout (port : Nat) : Statement (.lanyardAckTimeout port) := by
  intro _ h; cases h

theorem linkDown (port reason : Nat) : Statement (.linkDown port reason) := by
  intro _ h; cases h

theorem linkTrained (port : Nat) (linkId : BitVec 32) (lower : Bool) : Statement (.linkTrained port linkId lower) := by
  intro _ h; cases h

theorem kagree (port : Nat) : Statement (.kagree port) := by
  intro _ h; cases h

theorem registerWrite (sp : RegSpace) (off : Nat) (v : Word) : Statement (.registerWrite sp off v) := by
  intro _ h; cases h

theorem hostLinkDown : Statement (.hostLinkDown) := by
  intro _ h; cases h

theorem frameFoundUncorrectable (frame : Nat) : Statement (.frameFoundUncorrectable frame) := by
  intro _ h; cases h

theorem frameTransactionStatus (core slot : Nat) : Statement (.frameTransactionStatus core slot) := by
  intro _ h; cases h

theorem kernelOperationStatus (core slot : Nat) : Statement (.kernelOperationStatus core slot) := by
  intro _ h; cases h

end Sys2Proof.Laws.RoundTrip
end

