-- ==== Sys2Proof/Laws/Slots.lean ====
section
/-!
SUPPORT. What the slot operations do to the activations (03 R32), and that each keeps the canonical form.
-/
namespace Sys2Proof.Machine

/-- A slot written is what it holds; every other slot holds what it held. -/
theorem findAct_putAct (s : State) (c k e j : Nat) (a : Act) :
    (s.putAct c k a).findAct e j = if 64 * c + k = 64 * e + j then some a else s.findAct e j := by
  unfold State.putAct State.findAct
  by_cases hl : s.live = true
  · by_cases h : 64 * c + k = 64 * s.core + s.slot <;> by_cases h' : 64 * e + j = 64 * s.core + s.slot <;>
      by_cases h'' : 64 * c + k = 64 * e + j <;> simp_all
  · simp [hl]

/-- A slot freed holds nothing; every other slot holds what it held. -/
theorem findAct_dropAct {s : State} (f : FormOk s) (c k e j : Nat) :
    (s.dropAct c k).findAct e j = if 64 * c + k = 64 * e + j then none else s.findAct e j := by
  obtain ⟨-, -, hr, hs⟩ := f
  unfold SlotOk at hs
  have he := tabFind_tabErase (t := s.acts) hr
  unfold State.dropAct State.findAct
  by_cases hl : s.live = true
  · by_cases h : 64 * c + k = 64 * s.core + s.slot <;> by_cases h' : 64 * e + j = 64 * s.core + s.slot <;>
      by_cases h'' : 64 * c + k = 64 * e + j <;> simp_all
  · simp [hl, he]

theorem putAct_formOk {s : State} (f : FormOk s) (c k : Nat) (a : Act) : FormOk (s.putAct c k a) := by
  obtain ⟨hm, hk, hr, hs⟩ := f
  unfold State.putAct
  split
  · exact ⟨hm, hk, hr, hs⟩
  · next h =>
    refine ⟨hm, hk, tabPut_rising hr _ _, fun hl => ?_⟩
    have : ¬ 64 * c + k = 64 * s.core + s.slot := fun e => h (by simp [show s.live = true from hl, e])
    simpa [this] using hs hl

theorem dropAct_formOk {s : State} (f : FormOk s) (c k : Nat) : FormOk (s.dropAct c k) := by
  obtain ⟨hm, hk, hr, hs⟩ := f
  unfold State.dropAct
  split
  · exact ⟨hm, hk, hr, nofun⟩
  · refine ⟨hm, hk, tabErase_rising hr _, fun hl => ?_⟩
    simp only [tabFind_tabErase hr]
    split
    · rfl
    · exact hs hl

/-- Taking turns moves activations between their slots and the selected place, and changes none. -/
theorem findAct_select {s : State} (f : FormOk s) (c k e j : Nat) : (s.select c k).findAct e j = s.findAct e j := by
  obtain ⟨-, -, hr, hs⟩ := f
  unfold SlotOk at hs
  have he := tabFind_tabErase (t := s.acts) hr
  have hp := tabFind_tabErase (tabPut_rising hr (64 * s.core + s.slot) s.act)
  unfold State.select State.findAct
  by_cases hl : s.live = true
  · by_cases h : 64 * c + k = 64 * s.core + s.slot
    · simp [hl, h]
    · have h' : ¬ 64 * s.core + s.slot = 64 * c + k := fun e => h e.symm
      simp only [hl, Bool.true_and, decide_eq_true_eq, h, if_false, if_true, tabFind_tabPut, h']
      cases ha : tabFind s.acts (64 * c + k) with
      | none => simp [hl]
      | some a =>
        by_cases h1 : 64 * e + j = 64 * c + k
        · have : ¬ 64 * e + j = 64 * s.core + s.slot := fun e => h (h1 ▸ e)
          simp [h1, ha, h]
        · have : ¬ 64 * c + k = 64 * e + j := fun e => h1 e.symm
          simp only [Bool.true_and, decide_eq_true_eq, h1, if_false, hp, this, tabFind_tabPut]
          by_cases h2 : 64 * s.core + s.slot = 64 * e + j
          · simp [h2]
          · have : ¬ 64 * e + j = 64 * s.core + s.slot := fun e => h2 e.symm
            simp [h2, this]
  · simp only [Bool.not_eq_true] at hl
    simp only [hl, Bool.false_and, Bool.false_eq_true, if_false]
    cases ha : tabFind s.acts (64 * c + k) with
    | none => simp [hl]
    | some a =>
      by_cases h1 : 64 * e + j = 64 * c + k
      · simp [h1, ha]
      · have : ¬ 64 * c + k = 64 * e + j := fun e => h1 e.symm
        simp [h1, he, this]

theorem select_formOk {s : State} (f : FormOk s) {c k : Nat} (h : k < 64) : FormOk (s.select c k) := by
  obtain ⟨hm, hk, hr, hs⟩ := f
  unfold State.select
  split
  · exact ⟨hm, hk, hr, hs⟩
  · have ha : Rising (if s.live then tabPut s.acts (64 * s.core + s.slot) s.act else s.acts) := by
      split
      · exact tabPut_rising hr _ _
      · exact hr
    dsimp only
    split
    · exact ⟨hm, h, tabErase_rising ha _, fun _ => by simp [tabFind_tabErase ha]⟩
    · exact ⟨hm, hk, hr, hs⟩

end Sys2Proof.Machine
end

