-- ==== Sys2Proof/Tests/Slice0.lean ====
section
/-!
SUPPORT. Tests: ill-formed terms, words written out from the encoding tables, for each statement with hypotheses a state and operands that
meet them, and single steps on small states. Expected results are worked out from the spec's rules.
-/
namespace Sys2Proof.Tests
open Sys2Proof Sys2Proof.Machine

set_option maxRecDepth 100000
set_option Elab.async false

theorem test_wf_load_tag : (Instr.vld .none 1 2 0).wf = false ∧ (Instr.spvld .none 1 2 0).wf = false ∧
    (Instr.vlds .none 0 1 2 3).wf = false ∧ (Instr.vgath .none 0 1 2 3).wf = false ∧ (Instr.vld .c4 1 2 0).wf = true := by decide
theorem test_wf_loop_len : (Instr.loop false 1 0).wf = false ∧ (Instr.loop false 1 4096).wf = false ∧
    (Instr.loopi true 5 8191).wf = false ∧ (Instr.loopi true 5 4095).wf = true := by decide
theorem test_wf_ctldi : (Instr.ctldi 0 4 .c6).wf = false ∧ (Instr.ctldi 0 5 .c6).wf = true ∧ (Instr.ctldi 0 63 .c8).wf = true := by decide
theorem test_wf_pseti : (Instr.pseti 1 33).wf = false ∧ (Instr.pseti 1 32).wf = true := by decide
theorem test_wf_chunk : (Instr.chunk 0 1).wf = false ∧ (Instr.chunk 3 1).wf = false ∧ (Instr.chunk 62 1).wf = true := by decide
theorem test_wf_send : (Instr.send 0 1 0).wf = false ∧ (Instr.send 0 58 7).wf = false ∧ (Instr.send 0 57 7).wf = true ∧
    (Instr.send 0 0 0).wf = true := by decide
theorem test_wf_mpop : (Instr.mpop 0 1).wf = false ∧ (Instr.mpeek 57 1).wf = false ∧ (Instr.mpop 56 1).wf = true := by decide
theorem test_wf_core_slot : (Instr.tagFire 1312 0).wf = false ∧ (Instr.tagFire 0 64).wf = false ∧ (Instr.heldSeen 1312).wf = false ∧
    (Instr.pageWalk 1312 0).wf = false ∧ (Instr.memoryResponse 1312 0 0).wf = false ∧ (Instr.tagFire 1311 63).wf = true := by decide
theorem test_wf_engine : (Instr.spliceJobStart 164 0).wf = false ∧ (Instr.meterTick 164 0 []).wf = false ∧ (Instr.reeveJobEnd 163 0).wf = true := by decide
theorem test_wf_frame : (Instr.recallDeadline (2 ^ 40)).wf = false ∧ (Instr.lateWrite 0 164).wf = false ∧
    (Instr.recallClusterInvalidate (2 ^ 40 - 1) 163).wf = true := by decide
theorem test_wf_host : (Instr.cxlMemRequest 65536 0 .read).wf = false ∧ (Instr.cxlMemRequest 0 (2 ^ 52) .read).wf = false ∧
    (Instr.cxlMemRequest 0 32 .read).wf = false ∧ (Instr.cxlMemRequest 65535 (2 ^ 52 - 64) .read).wf = true ∧
    (Instr.backInvalidateTimeout (2 ^ 45)).wf = false ∧ (Instr.hostEgressWrite 194).wf = false ∧ (Instr.hostEgressWrite 193).wf = true := by decide
theorem test_wf_die_port : (Instr.droopTrip 160).wf = false ∧ (Instr.thermalStop 10).wf = false ∧ (Instr.kagree 12).wf = false ∧
    (Instr.lanyardFlitSend 12).wf = false ∧ (Instr.linkDown 11 0).wf = true := by decide
theorem test_decode_add : decodeWord 0b0000001_111110_000001_111111_0000001 = .ok (.sub 63 1 62) := by decide
theorem test_decode_alu_unary : decodeWord 0b0100010_000000_000110_000101_0000001 = .ok (.popc 5 6) := by decide
theorem test_decode_addi : decodeWord 0b1111111111111_001001_001000_0000010 = .ok (.addi 8 9 (-1)) := by decide
theorem test_decode_sltin : decodeWord 0b0111111111111_000010_000001_0000111 = .ok (.sltin 1 2 4095) := by decide
theorem test_decode_shift_imm : decodeWord 0b0000010111111_000100_000011_0001000 = .ok (.srai 3 4 63) := by decide
theorem test_decode_liu : decodeWord 0b1000000000000000000_000111_0001001 = .ok (.liu 7 (-262144)) := by decide
theorem test_decode_addpc : decodeWord 0b0000000000000000001_001111_0001010 = .ok (.addpc 15 1) := by decide
theorem test_decode_sysr : decodeWord 0b0000000010000_000000_001010_0001011 = .ok (.sysr 10 .fmode) := by decide
theorem test_decode_sysw : decodeWord 0b0001000100000_001001_000000_0001100 = .ok (.sysw .holdc 9) := by decide
theorem test_decode_load : decodeWord 0b1000000000000_010101_010100_0010110 = .ok (.ldWn 20 21 (-4096)) := by decide
theorem test_decode_store : decodeWord 0b1111111_010100_010010_111101_0011001 = .ok (.stH 18 20 (-3)) := by decide
theorem test_decode_lda : decodeWord 0b0001111_000000_001010_001001_0011100 = .ok (.lda 9 10 .d .package) := by decide
theorem test_decode_stl : decodeWord 0b0010010_001011_001010_000000_0011101 = .ok (.stl 10 11 .w .system) := by decide
theorem test_decode_pref : decodeWord 0b0000001000000_000100_000001_0011110 = .ok (.pref .write 4 64) := by decide
theorem test_decode_cflush : decodeWord 0b0000010_000010_100001_000000_0011111 = .ok (.cflush 33 .die) := by decide
theorem test_decode_spld : decodeWord 0b0000000010000_000010_000001_0100001 = .ok (.spldD 1 2 16) := by decide
theorem test_decode_spst : decodeWord 0b1111111_000101_000011_000000_0100010 = .ok (.spstW 3 5 (-64)) := by decide
theorem test_decode_vld : decodeWord 0b011111111_0001_000010_011111_0100100 = .ok (.vld .i8 31 2 255) := by decide
theorem test_decode_vst : decodeWord 0b100000000_0000_000010_000100_0100101 = .ok (.vst 4 2 (-256)) := by decide
theorem test_decode_vgath : decodeWord 0b1111011_000011_000010_000001_0101010 = .ok (.vgath .f32 7 1 2 3) := by decide
theorem test_decode_vscat : decodeWord 0b0010000_011111_000010_011110_0101011 = .ok (.vscat 1 30 2 31) := by decide
theorem test_decode_branch : decodeWord 0b1000000000000_111111_000001_0110101 = .ok (.bgen 1 63 (-4096)) := by decide
theorem test_decode_bp : decodeWord 0b0111111111111_000000_001_111_0110110 = .ok (.bpAll 7 4095) := by decide
theorem test_decode_j : decodeWord 0b1000000000000000000_000001_0110111 = .ok (.j 1 (-262144)) := by decide
theorem test_decode_jr : decodeWord 0b0000000000000_000001_000000_0111000 = .ok (.jr 0 1 0) := by decide
theorem test_decode_loop : decodeWord 0b0111111111111_001001_00000_1_0111001 = .ok (.loop true 9 4095) := by decide
theorem test_decode_loopi : decodeWord 0b0000000000001_11111111111_0_0111010 = .ok (.loopi false 2047 1) := by decide
theorem test_decode_vector_arith : decodeWord 0b1011_101_000011_000010_000001_1000000 = .ok (.vdif 5 1 2 3) := by decide
theorem test_decode_vector_logic : decodeWord 0b1010_000_111111_000010_000001_1000001 = .ok (.vshri 0 1 2 63) := by decide
theorem test_decode_vector_fma : decodeWord 0b0001_010_011101_011110_011111_1000010 = .ok (.vfms 2 31 30 29) := by decide
theorem test_decode_vector_special : decodeWord 0b0110_000_000100_000100_000011_1000011 = .ok (.vrnd 0 3 4 .fmode) := by decide
theorem test_decode_vector_compare : decodeWord 0b0011_001_000011_000010_000111_1000100 = .ok (.vcle 1 7 2 3) := by decide
theorem test_decode_vector_permute : decodeWord 0b0110_000_011111_011111_111111_1000101 = .ok (.vext 63 31 31) := by decide
theorem test_decode_vector_convert : decodeWord 0b0111_001_011110_000011_000010_1000110 = .ok (.vdec 1 2 3 2 7) := by decide
theorem test_decode_code_table : decodeWord 0b0000001_000101_000010_000011_1000111 = .ok (.ctldi 3 5 .c4) := by decide
theorem test_decode_predicate : decodeWord 0b0000100_100000_000000_000011_1001000 = .ok (.pseti 3 32) := by decide
theorem test_decode_vector_move : decodeWord 0b0010_000_000011_100000_001001_1001001 = .ok (.vsplati 0 9 (-32) .i16) := by decide
theorem test_decode_mctx : decodeWord 0b0000000_000000_001100_000000_1010000 = .ok (.mctx 12) := by decide
theorem test_decode_mma : decodeWord 0b0000001_001111_001110_000001_1010010 = .ok (.mmarLast 1 14 15) := by decide
theorem test_decode_mrdacc : decodeWord 0b0000000_001011_000011_000010_1010100 = .ok (.mrdacc 2 3 (.code 3)) := by decide
theorem test_decode_splice_status : decodeWord 0b0000000_000000_000101_000100_1010110 = .ok (.mpoll 4 5) := by decide
theorem test_decode_reeve : decodeWord 0b0000000_000000_111100_000110_1011011 = .ok (.cpyrd 6 15) := by decide
theorem test_decode_reeve_status : decodeWord 0b0000000_000000_001000_000111_1011101 = .ok (.cwait 7 8) := by decide
theorem test_decode_amo : decodeWord 0b1001001_000011_000010_000001_1100000 = .ok (.amoFadd 1 2 3 .w .rel) := by decide
theorem test_decode_red : decodeWord 0b1110111_000011_000010_000000_1100001 = .ok (.redMaxn 2 3 .d .acqrel) := by decide
theorem test_decode_cas : decodeWord 0b0000001_000011_000010_000001_1100010 = .ok (.cas 1 2 3 .d) := by decide
theorem test_decode_chunk : decodeWord 0b0000000_000000_001001_111110_1100011 = .ok (.chunk 62 9) := by decide
theorem test_decode_fence : decodeWord 0b0001100_000000_000000_000000_1100100 = .ok (.fenceRel .system) := by decide
theorem test_decode_barrier : decodeWord 0b0001100_001001_001000_000000_1100101 = .ok (.barinit 8 9 .cluster) := by decide
theorem test_decode_isync : decodeWord 0b0000000_000000_000000_000000_1100110 = .ok (.isync .core) := by decide
theorem test_decode_ring : decodeWord 0b0000010_001111_001111_000000_1101000 = .ok (.rwaite 15 15) := by decide
theorem test_decode_send : decodeWord 0b00000000_111_111001_11111111_1110000 = .ok (.send 255 57 7) := by decide
theorem test_decode_mpop : decodeWord 0b0000001_001111_000000_111000_1110001 = .ok (.mpeek 56 15) := by decide
theorem test_decode_tag : decodeWord 0b0000010_001001_000000_000011_1110010 = .ok (.tagpend 3 9) := by decide
theorem test_decode_end : decodeWord 0b0000001_000000_010001_000000_1110011 = .ok (.endj 17) := by decide
theorem test_decode_fork : decodeWord 0b0000000_010011_010010_000000_1110100 = .ok (.fork 18 19) := by decide
theorem test_decode_safept : decodeWord 0b0000011111111_000000_000000_1110101 = .ok (.safept 255) := by decide
theorem test_decode_psaved : decodeWord 0b0000000000000_000000_000001_1110101 = .ok (.psaved) := by decide
theorem test_decode_trap : decodeWord 0b1111111111111_000000_000000_1111000 = .ok (.trap 8191) := by decide
theorem test_decode_eret : decodeWord 0b0000000_000000_000000_000000_1111001 = .ok (.eret) := by decide
theorem test_decode_bkpt : decodeWord 0b1000000000000_000000_000000_1111010 = .ok (.bkpt 4096) := by decide
theorem test_decode_meter : decodeWord 0b0000010_111111_000000_000001_1111011 = .ok (.pdly 1 63) := by decide
theorem test_decode_frame : decodeWord 0b0000111_000011_000010_000001_1111100 = .ok (.fscrub 1 2 3) := by decide
theorem test_decode_kernel : decodeWord 0b0001000_000110_000101_000100_1111101 = .ok (.epreq 4 5 6) := by decide
/-! States. Each helper builds a small state on the reset state. -/

/-- A tenant's activation, domain 3, on compute core 0, slot 0, at 0x1000; the domains 1 to 3 exist. -/
def tenant : State :=
  { State.reset with
    live := true, inReset := false, act := { Act.blank with dom := 3, pc := 0x1000, actor := some 0 },
    doms := [(1, { Dom.blank with exists_ := true }), (2, { Dom.blank with exists_ := true }), (3, { Dom.blank with exists_ := true })],
    cores := [(0, { Core.blank with dom := some 3 })] }

/-- The accelerator kernel's activation, domain 2, on the same core. -/
def kern : State :=
  { tenant with act := { tenant.act with dom := 2, kernel := true, actor := none }, cores := [(0, { Core.blank with dom := some 2 })] }

/-- The state with s1 to s3 written. -/
def withS (s : State) (x y z : Word) : State := ((s.setS 1 x).setS 2 y).setS 3 z
/-- The state with v1 to v3 written. -/
def withV (s : State) (x y z : VReg) : State := ((s.setV 1 x).setV 2 y).setV 3 z
/-- The state with its activation changed. -/
def withAct (s : State) (f : Act → Act) : State := { s with act := f s.act }
/-- The state with core 0 changed. -/
def withCore (s : State) (f : Core → Core) : State := s.modCore 0 f

/-- Whether every word of a list issues. -/
def issueAll (s : State) (l : List Instr) : Bool := l.all fun i => (decodeTrap i.word s).isNone

theorem issues_of {s : State} {l : List Instr} (h : issueAll s l = true) : ∀ i ∈ l, Issues i s := by
  intro i hi
  have := List.all_eq_true.mp h i hi
  simpa [Issues] using this

/-- Whether an access is made. -/
def made {α : Type} (x : Acc α) : Bool := match x with | .ok _ => true | .error _ => false
theorem ok_of {α : Type} {x : Acc α} (h : made x = true) : ∃ u, x = .ok u := by
  cases x with
  | ok u => exact ⟨u, rfl⟩
  | error e => cases h

/-- Whether a step answers a next state. -/
def goes (x : Host.Outcome State Fault Refusal) : Bool := match x with | .next _ => true | _ => false
theorem next_of {x : Host.Outcome State Fault Refusal} (h : goes x = true) : ∃ t, x = .next t := by
  cases x with
  | next t => exact ⟨t, rfl⟩
  | _ => cases h

/-- A line of core 0's L1: domain 3, virtual line `vl`, byte i holding i, every byte valid, read and write allowed. -/
def lineAt (vl : Nat) : L1Line :=
  { dom := 3, vl := vl, data := lineOf 0 128 (leNat ((List.range 128).map fun i => BitVec.ofNat 8 i)), valid := BitVec.allOnes 128,
    dirty := 0, perms := { r := true, w := true, x := false, k := false }, keyid := 3, pl := 0x800000 + vl, stamps := [] }
/-- A tenant whose L1 holds the line of 0x2000. -/
def hit : State := withCore tenant fun c => { c with l1 := [lineAt 0x40] }

/-- The physical line of 0x2000 held under the address 0x2080 too. -/
def aliasLine : L1Line := { lineAt 0x41 with pl := (lineAt 0x40).pl }
def aliased : State := withCore tenant fun c => { c with l1 := [lineAt 0x40, aliasLine] }

/-- An endpoint entry (03 R38): V, DDOM, DCORE, ACTOR, TAG, LEN. -/
def ent (d c a t n : Nat) : Word := BitVec.ofNat 64 (2 ^ 63 + d * 2 ^ 48 + c * 2 ^ 32 + a * 2 ^ 28 + t * 2 ^ 24 + n * 2 ^ 21)

/-- A tenant whose L2 holds a line for 0x2000 at its home slice; no L1 holds it. -/
def sliced (d : LineBits) : State :=
  { tenant with l2 := [(0x140, { dom := 3, vl := 0x40, data := d, dirty := false, perms := { r := true, w := true, x := false, k := false }, keyid := 3, gen := 0, way := 0 })] }
def atSlice : State := sliced (lineAt 0x40).data
def tenantZero : State := sliced 0
/-- Whether an access is made and its answer satisfies a test. -/
def answersOk {α : Type} (x : Acc α) (p : α → Bool) : Bool := match x with | .ok a => p a | .error _ => false
theorem answer_of {α : Type} {x : Acc α} {p : α → Bool} (h : answersOk x p = true) : ∃ a, x = .ok a ∧ p a = true := by
  cases x with
  | ok u => exact ⟨u, rfl, h⟩
  | error e => cases h
theorem formOk_of {s : State} (h : s.mem.wf = true ∧ (∀ x ∈ s.cores, x.2.spad.wf = true) ∧ s.slot < 64 ∧
    ((s.acts.map fun x => x.1).Pairwise fun a b => a < b) ∧ (s.live = true → tabFind s.acts (64 * s.core + s.slot) = none)) : FormOk s :=
  ⟨⟨h.1, h.2.1⟩, h.2.2.1, h.2.2.2.1, h.2.2.2.2⟩
/-! Witnesses: for each statement a concrete state and operands that meet its hypotheses. -/

theorem witness_RoundTrip : (Instr.send 255 57 7).wf = true ∧ (Instr.send 255 57 7).hasWord = true ∧ (Instr.loop true 63 4095).wf = true ∧
    (Instr.loop true 63 4095).hasWord = true := by decide
theorem witness_DecodeSound : decodeWord 0xFFFFFFB7 = .ok (.j 63 (-1)) := by decide

theorem witness_IllegalWords : decodeWord 0xFFFFFFFF = .error .illegal ∧
    (∃ r, decodeWord 0x80000001 = .error r) ∧
    (∃ r, decodeWord 0xFE000079 = .error r ∧ r ≠ .illegal) ∧ tenant.core < 1280 ∧
    (∃ r, decodeWord 0x80000050 = .error r ∧ r ≠ .illegal) ∧ 1280 ≤ ({ tenant with core := 1280 } : State).core ∧
    ((0x80000050 : IWord).extractLsb' 0 7).toNat = 0x50 := by
  refine ⟨by decide, ⟨.illegal, by decide⟩, ⟨.reservedField, by decide⟩, by decide, ⟨.reservedField, by decide⟩, by decide +kernel⟩

/-- An instruction line of the tenant that holds ADD s10, s11, s12 at 0x1000 and the all-zeros word after it. -/
def codeLine : ILine :=
  { dom := 3, vl := 0x20, data := lineOf 0 4 0x00616501, perms := { r := true, w := false, x := true, k := false }, pl := 0x120 }
def coded : State := withCore tenant fun c => { c with l1i := [codeLine] }

theorem witness_StepRunsDecoded : coded.agenda = [] ∧ canIssue coded = true ∧ breakpointAt coded = none ∧ coded.act.saving = none ∧
    coded.act.pc.toNat < 2 ^ 57 ∧
    ((coded.getCore coded.core).l1i.find? fun l => decide (l.dom = coded.act.dom ∧ l.vl = coded.act.pc.toNat / 128 % 2 ^ 50)) = some codeLine ∧
    codeLine.perms.x = true ∧ codeLine.perms.k = false ∧
    (∀ i < 4, (0x00616501 : IWord).extractLsb' (8 * i) 8 = lineByte codeLine.data (coded.act.pc.toNat % 128 + i)) ∧
    coded.act.pc.toNat % 4 = 0 ∧ decodeWord 0x00616501 = .ok (.add 10 11 12) ∧ decodeWord 0 = .error .illegal ∧
    (let s := withAct coded fun a => { a with pc := 0x107C, saving := some { addr := 0x1000, n := 1, retired := 4095 } }
     canIssue s = true ∧ breakpointAt s = none ∧ (∀ i < 4, (0 : IWord).extractLsb' (8 * i) 8 = lineByte codeLine.data (s.act.pc.toNat % 128 + i))) := by
  decide +kernel

/-- A tenant whose core has the trap entry of index 255, to domain 2, core 1, actor 3, tag 5, LEN 7. -/
def trappable : State := withCore tenant fun c => { c with endpoints := [(255, ent 2 1 3 5 7)] }
/-- The grant that makes domain 3 debugged by domain 1. -/
def held3 : Grant :=
  { grantee := 1, prof := true, granted := true, consent := true, bpa := [], wpa := [], wpm := [], holds := [], locks := [], trace := none, traceSeq := 0 }

theorem witness_TrapEntry :
    (let s := trappable
     s.live = true ∧ s.slot < 64 ∧ s.act.halt ≠ .step ∧ s.act.preempt = none ∧ trapEntry s s.core s.act ≠ none ∧ isTenant s.act.dom = true ∧
       s.act.saving = none ∧ grantOf s s.act.dom = none ∧ (s.getDom s.act.dom).halted = false ∧ trapEntry s s.core s.act = some 255 ∧
       (let e := endpoint s s.core 255
        epPkg e = 0 ∧ epCore e ≠ 4095 ∧ epCore e ≠ 4090 ∧ epLen e = 7) ∧
       s.act.dom < 256 ∧ s.act.tag < 16 ∧ s.act.actor = some 0 ∧ s.act.prio < 4 ∧ s.act.owed < 4) ∧
    (let s := withAct trappable fun a => { a with saving := some { addr := 0x2000, n := 1, retired := 4095 }, preempt := some { why := .quota, at_ := 0, budget := 0 } }
     s.act.saving ≠ none ∧ isTenant s.act.dom = true ∧ s.act.preempt.isSome = true) ∧
    (let s := { trappable with grants := [(3, held3)] }
     s.act.saving = none ∧ grantOf s s.act.dom ≠ none ∧ s.act.halt ≠ .step) := by decide +kernel

theorem witness_StepKeepsForm : FormOk { State.reset with agenda := [.elapse 1, .event .packageReset, .issue 0 63] } ∧
    (Instr.packageReset).wf = true ∧ (∃ t, step { State.reset with agenda := [.elapse 1, .event .packageReset, .issue 0 63] } = .next t) ∧
    (∃ t, step State.reset = .next t) := by
  refine ⟨formOk_of (by decide +kernel), by decide, next_of (by decide +kernel), next_of (by decide +kernel)⟩

theorem witness_ScalarResults : ∀ i ∈ [Instr.add 0 63 1, .sub 63 62 1, .and 1 2 3, .or 1 2 3, .xor 1 2 3, .andn 1 2 3, .sll 1 2 3, .srl 1 2 3,
    .sra 1 2 3, .rol 1 2 3, .ror 1 2 3, .slt 1 2 3, .sltu 1 2 3, .min 1 2 3, .max 1 2 3, .minu 1 2 3, .maxu 1 2 3, .seq 1 2 3, .mul 1 2 3,
    .mulh 1 2 3, .mulhu 1 2 3, .mulhsn 1 2 3, .div 1 2 3, .divu 1 2 3, .rem 1 2 3, .remu 1 2 3, .lea1 1 2 3, .lea2 1 2 3, .lea4 1 2 3,
    .lea8 1 2 3, .clz 1 2, .ctz 1 2, .popc 1 2, .brev 1 2, .bswap 1 2, .sextB 1 2, .sextH 1 2, .sextW 1 2, .zextB 1 2, .zextH 1 2, .zextW 1 2,
    .addi 1 2 8191, .andi 1 2 0, .ori 1 2 4096, .xori 1 2 1, .slti 1 2 1, .sltin 1 2 1, .slli 1 2 63, .srli 1 2 0, .srai 1 2 63, .rori 1 2 1,
    .liu 1 0x40000, .addpc 1 1], Issues i tenant := issues_of (by decide +kernel)
theorem witness_ScalarResults_counts :
    (let x := (withS tenant (0 : Word) 0 0).getS 1
     (∀ j < 64, x.getLsbD j = false)) ∧
    (let x := (withS tenant (0x8000000000000001 : Word) 0 0).getS 1
     x.getLsbD 63 = true ∧ x.getLsbD 0 = true) ∧
    (let x := (withS tenant (2 : Word) 0 0).getS 1
     (∀ j < 64, 2 ≤ j → x.getLsbD j = false) ∧ x.getLsbD 1 = true ∧ x.getLsbD 0 = false) := by decide +kernel

theorem witness_RegisterFormFrame : (∃ u, Completes (.add 3 1 2) (withS tenant 5 7 0) ((withS tenant 5 7 0).setS 3 12) .seq [] ∧
    exec (.add 3 1 2) (withS tenant 5 7 0) = .next u) ∧ (withS tenant 5 7 0).act.halt ≠ .step :=
  ⟨⟨_, rfl, rfl⟩, by decide⟩

/-- A tenant at the last body word of an armed inner loop, and of an outer one that ends there too. -/
def looped (c0 c1 : Word) (owed : Nat) : State :=
  withAct tenant fun a => { a with regs := { a.regs with lc0 := c0, ls0 := 0xFF0, le0 := 0x1000, lc1 := c1, ls1 := 0xF00, le1 := 0x1000 }, owed := owed, btarget := 0x2000 }
/-- A state that a word's retirement may leave. -/
def retired (u : State) (f : Flow) : State :=
  { u with
    issues := u.issues + 1
    act := { advance u.act f with
      wait := none, aged := u.act.prio, lastIssue := u.issues + 1, ready := u.time, ended := false, noBreak := false
      saving := u.act.saving.map fun r => { r with retired := r.retired + 1 } } }
theorem retires_retired (u : State) (f : Flow) : Retires u f (retired u f) := ⟨rfl, rfl, fun _ => rfl⟩

theorem witness_Retiring :
    (∀ u f, Retires u f (retired u f)) ∧ tenant.act.halt ≠ .step ∧ tenant.act.owed = 0 ∧
    (let r := (looped 2 0 0).act.regs
     r.lc0 ≠ 0 ∧ (looped 2 0 0).act.pc = r.le0 ∧ r.lc0 ≠ 1) ∧
    (let r := (looped 1 0 0).act.regs
     r.lc0 = 1 ∧ (looped 1 0 0).act.pc = r.le0 ∧ ¬ (r.lc1 ≠ 0)) ∧
    (let r := (looped 1 2 0).act.regs
     r.lc0 = 1 ∧ (looped 1 2 0).act.pc = r.le1 ∧ r.lc1 ≠ 0 ∧ r.lc1 ≠ 1) ∧
    (let r := (looped 1 1 0).act.regs
     r.lc0 = 1 ∧ (looped 1 1 0).act.pc = r.le1 ∧ r.lc1 = 1) ∧
    (looped 0 0 2).act.owed = 2 ∧ (looped 0 0 1).act.owed = 1 := by
  refine ⟨retires_retired, ?_⟩; decide +kernel
theorem witness_Branches : ∀ i ∈ [Instr.beq 1 2 4095, .bne 1 2 4096, .blt 1 2 1, .bge 1 2 1, .bltn 1 2 1, .bgen 1 2 1, .bpAny 0 1, .bpAll 0 1, .bpNone 7 1],
    Issues i tenant := issues_of (by decide +kernel)
theorem witness_Branches_targets : (tenant.getS 1 = tenant.getS 2) ∧ (tenant.act.pc + 4 * BitVec.signExtend 64 (1 : BitVec 13)).toNat < 2 ^ 57 ∧
    2 ^ 57 ≤ (tenant.act.pc + 4 * BitVec.signExtend 64 (4096 : BitVec 13)).toNat ∧
    (let s := withAct tenant fun a => { a with pc := 0x01FFFFFFFFFFFFFC }
     2 ^ 57 ≤ (s.act.pc + 4 * BitVec.signExtend 64 (1 : BitVec 13)).toNat) ∧
    (withS tenant 1 0 0).getS 1 ≠ (withS tenant 1 0 0).getS 2 ∧ (∀ i < 32, (tenant.getP 0).getLsbD i = true) ∧
    (∀ i < 32, (tenant.getP 7).getLsbD i = false) := by decide +kernel
theorem witness_Jumps : (∀ i ∈ [Instr.j 63 0x3FFFF, .j 0 0x40000, .jr 1 2 4095], Issues i tenant) ∧
    (tenant.act.pc + 4 * BitVec.signExtend 64 (0x3FFFF : BitVec 19)).toNat < 2 ^ 57 ∧
    2 ^ 57 ≤ (tenant.act.pc + 4 * BitVec.signExtend 64 (0x40000 : BitVec 19)).toNat ∧
    ((withS tenant 0 0x01FFFFFFFFFFFFFC 0).getS 2 + 4 * BitVec.signExtend 64 (0 : BitVec 13)).toNat < 2 ^ 57 ∧
    ((withS tenant 0 0x01FFFFFFFFFFFFFF 0).getS 2 + 4 * BitVec.signExtend 64 (0 : BitVec 13)).toNat % 4 ≠ 0 ∧
    2 ^ 57 ≤ ((withS tenant 0 0x01FFFFFFFFFFFFFC 0).getS 2 + 4 * BitVec.signExtend 64 (1 : BitVec 13)).toNat :=
  ⟨issues_of (by decide +kernel), by decide +kernel⟩
/-- A tenant in the body 0x0FF0 to 0x1010 of an armed outer loop. -/
def outer : State := withAct tenant fun a => { a with regs := { a.regs with lc1 := 3, ls1 := 0xFF0, le1 := 0x1010 } }
theorem witness_Loops : (∀ i ∈ [Instr.loop false 1 1, .loopi true 2047 4095], Issues i tenant) ∧ (∀ i ∈ [Instr.loop false 1 4, .loopi true 1 4], Issues i outer) ∧
    (outer.act.regs.lc1 ≠ 0 ∧ ¬ (outer.act.pc + 4).toNat < outer.act.regs.ls1.toNat ∧
      ¬ outer.act.regs.le1.toNat < (outer.act.pc + 4 * BitVec.zeroExtend 64 (4 : BitVec 13)).toNat ∧
      outer.act.regs.le1.toNat < (outer.act.pc + 4 * BitVec.zeroExtend 64 (5 : BitVec 13)).toNat) ∧
    ((withS tenant 0x100000000 0 0).getS 1).extractLsb' 0 32 = 0 ∧ ((withS tenant 0xFFFFFFFF 0 0).getS 1).extractLsb' 0 32 ≠ 0 :=
  ⟨issues_of (by decide +kernel), issues_of (by decide +kernel), by decide +kernel⟩
theorem witness_IssueTraps : (looped 0 0 1).act.owed ≠ 0 ∧ (looped 0 0 2).act.owed ≠ 0 ∧
    ((looped 1 0 1).act.regs.lc0 ≠ 0 ∧ (looped 1 0 1).act.pc = (looped 1 0 1).act.regs.le0) ∧
    ((looped 0 1 1).act.regs.lc1 ≠ 0 ∧ (looped 0 1 1).act.pc = (looped 0 1 1).act.regs.le1) ∧
    ¬ ((looped 0 0 1).act.regs.lc0 ≠ 0) ∧ tenant.act.owed = 0 ∧ tenant.act.kernel = false ∧ kern.act.kernel = true ∧
    0x100 ≤ SysReg.troot.num.toNat ∧ (Instr.mzero 63).wf = true ∧ (Instr.mzero 63).hasWord = true ∧ (looped 1 0 1).core < 1280 ∧
    (Instr.add 1 2 3).hasWord = true ∧ ((Instr.add 1 2 3).word.extractLsb' 0 7).toNat < 0x50 ∧ 0x56 < ((Instr.cpy 1 1).word.extractLsb' 0 7).toNat ∧
    (Instr.loopi true 0 4095).wf = true := by decide +kernel

theorem witness_SystemRegisters : (∀ i ∈ [Instr.sysr 0 .epc, .sysr 63 .ecause, .sysr 1 .eval, .sysr 1 .ebt, .sysr 1 .eds, .sysr 1 .fmode, .sysr 1 .fstat, .sysr 1 .lc0,
      .sysr 1 .ls0, .sysr 1 .le0, .sysr 1 .lc1, .sysr 1 .ls1, .sysr 1 .le1, .sysr 1 .time, .sysr 1 .ctxid, .sysr 1 .holdc, .sysr 1 .troot, .sysr 1 .pbudget,
      .sysr 1 (.bpa 7), .sysr 1 (.wpa 3), .sysr 1 (.wpm 0), .sysw .epc 1, .sysw .holdc 1, .sysw .troot 1, .sysw .pbudget 1, .sysw .fmode 1, .sysw .eds 1,
      .sysw .time 1, .sysw (.bpa 0) 1, .sysw (.wpa 3) 1, .sysw (.wpm 1) 1], Issues i kern) ∧
    (∃ x, debugGrant (withAct { kern with grants := [(3, { held3 with grantee := 2 })] } fun a => { a with regs := { a.regs with holdc := 0x30 } }) = some x) ∧
    ((withS kern 2 0 0).getS 1 &&& 3 ≠ 3) ∧ ((withS kern 7 0 0).getS 1 &&& 3 = 3) ∧ (((withS kern 0x10 0 0).getS 1).extractLsb' 0 4 = 0) ∧
    (((withS kern 0xB 0 0).getS 1).extractLsb' 0 4 ≠ 0) ∧ debugGrant kern = none ∧ (((withS kern 0x339 0 0).getS 1).extractLsb' 0 6).toNat = 57 ∧
    57 < (((withS kern 0x33A 0 0).getS 1).extractLsb' 0 6).toNat :=
  ⟨issues_of (by decide +kernel), ⟨{ held3 with grantee := 2 }, by decide +kernel⟩, by decide +kernel⟩
theorem witness_TrapsAndReturn : ∀ i ∈ [Instr.trap 0, .trap 8191, .bkpt 0, .bkpt 8191, .eret], Issues i tenant := issues_of (by decide +kernel)

theorem witness_LoadsAndStores : (∀ i ∈ [Instr.ldB 1 2 0, .ldH 1 2 0, .ldW 1 2 0, .ldD 1 2 0, .ldBn 1 2 0, .ldHn 1 2 0, .ldWn 1 2 0, .stB 2 1 0, .stH 2 1 0, .stW 2 1 0,
      .stD 2 1 0, .vld .c6 1 2 0, .vst 1 2 0], Issues i hit) ∧
    (∀ n ∈ [1, 2, 4, 8, 16], made (loadBytes hit (0x2080 - BitVec.ofNat 64 n) n) = true ∧ made (storeBytes hit (0x2080 - BitVec.ofNat 64 n) n 1 none) = true) ∧
    loadBytes hit 0x2001 2 = .error (.fault .misaligned 0x2001 hit) ∧ storeBytes hit 0x2004 8 0 none = .error (.fault .misaligned 0x2004 hit) :=
  ⟨issues_of (by decide +kernel), by decide +kernel⟩
theorem witness_AccessFaults : 2 ^ 57 ≤ (0x0200000000000000 : Word).toNat ∧ (0x01FFFFFFFFFFFFFF : Word).toNat < 2 ^ 57 ∧ (0x01FFFFFFFFFFFFFF : Word).toNat % 2 ≠ 0 ∧
    (0x207F : Word).toNat % 16 ≠ 0 ∧
    (let l := { lineAt 0x40 with perms := { r := false, w := false, x := false, k := false } }
     let s := withCore tenant fun c => { c with l1 := [l] }
     findL1 s s.core s.act.dom (vlineOf 0x2070) = some l ∧ l.valid &&& byteMask ((0x2070 : Word).toNat % 128) 16 = byteMask ((0x2070 : Word).toNat % 128) 16 ∧
       l.perms.r = false ∧ l.perms.w = false) ∧
    (let s := { hit with grants := [(3, { held3 with wpa := [(3, 0x2073)], wpm := [(3, 0xFFFFFFFFFFFFFFF0)] })] }
     findL1 s s.core s.act.dom (vlineOf 0x2070) = some (lineAt 0x40) ∧ watchHit s .load 0x2070 16 = true ∧ watchHit s .store 0x2078 8 = true) := by decide +kernel
theorem witness_CacheHits : (∀ n ∈ [1, 2, 4, 8, 16], HitsL1 hit .load .load (0x2080 - BitVec.ofNat 64 n) n (lineAt 0x40) ∧
      HitsL1 hit .store .store (0x2080 - BitVec.ofNat 64 n) n (lineAt 0x40)) ∧
    (∃ r, lineFor hit hit.core hit.act.dom hit.act.kernel .load 0x2000 8 = .ok r) ∧ regionOf (128 * (lineAt 0x40).pl) = .bonded ∧
    (∃ r, lineFor atSlice 0 3 false .load 0x2000 8 = .ok r) ∧ HitsL1 aliased .store .store 0x2003 1 (lineAt 0x40) ∧
    findL1 aliased 0 3 0x41 = some aliasLine ∧ aliasLine.pl = (lineAt 0x40).pl ∧ aliasLine.valid.getLsbD 3 = true := by
  refine ⟨?_, ok_of (by decide +kernel), by decide +kernel, ok_of (by decide +kernel), ?_, by decide +kernel⟩
  · simp only [HitsL1]; decide +kernel
  · simp only [HitsL1]; decide +kernel
theorem witness_FillFrame : (∃ w, w < 24 ∧ (wayMask tenant (homeOf 3 0x40) 3).getLsbD w = true ∧ ∀ k ∈ setWays tenant 3 0x40, k.1 ≠ w) ∧
    made (lineFor atSlice 0 3 false .store 0x2000 8) = true ∧ findL1 atSlice 0 3 (vlineOf 0x2000) = none ∧ (atSlice.getCore 0).l1.length < 12288 ∧
    tabFind atSlice.l2 0x140 ≠ none ∧ findL1 hit 0 3 (vlineOf 0x2000) ≠ none := ⟨⟨23, by decide +kernel⟩, by decide +kernel⟩
/-- R114 R122: a store through one address is read through the other address of the line; no other byte there changes. -/
theorem test_store_alias : (match storeBytes aliased 0x2003 1 0xAB none with
    | .ok u => decide (l1Byte u 0 3 0x41 3 = some 0xAB) && decide (l1Byte u 0 3 0x41 4 = some 4) && decide (l1Byte u 0 3 0x40 3 = some 0xAB)
    | .error _ => false) = true := by decide +kernel
theorem witness_Scratchpad : (∀ i ∈ [Instr.spldW 1 2 0, .spldD 1 2 8, .spstW 2 1 0, .spstD 2 1 (-8), .spvld .c6 1 2 0, .spvst 1 2 0], Issues i tenant) ∧
    MemoryOk tenant ∧ spadSize tenant.core = 0x80000 ∧
    (let s := withS tenant 0 0x7FFFC 0x7FFFD
     (s.getS 2).toNat % 4 = 0 ∧ (s.getS 2).toNat + 4 ≤ spadSize s.core ∧ (s.getS 3).toNat % 4 ≠ 0) ∧
    (let s := withS tenant 0 0x7FFF8 0x80000
     (s.getS 2).toNat % 8 = 0 ∧ (s.getS 2).toNat + 8 ≤ spadSize s.core ∧ (s.getS 3).toNat % 8 = 0 ∧ spadSize s.core < (s.getS 3).toNat + 8 ∧
       spadSize s.core < (s.getS 3).toNat + 4) :=
  ⟨issues_of (by decide +kernel), ⟨by decide, by decide⟩, by decide +kernel⟩

theorem witness_AcquireRelease : (∀ i ∈ [Instr.lda 1 2 .b .core, .lda 1 2 .d .package, .stl 2 1 .h .core, .stl 2 1 .w .system, .fenceAcq .core, .fenceRel .package,
      .fenceFull .system, .isync .die], Issues i hit) ∧
    (∃ l, findL1 (release hit 0 3 .cluster) 0 3 0x40 = some l) ∧
    made (acquireLoad (withS hit 0 0x2078 0) 0x2078 8 .core) = true ∧ made (acquireLoad atSlice 0x2000 8 .package) = true ∧
    made (storeBytes hit 0x2078 8 1 (some { core := 0, scope := .core })) = true ∧ made (storeThrough atSlice 0x2000 8 1 .package) = true ∧
    acquireLoad tenant 0x2001 2 .core = .error (.fault .misaligned 0x2001 tenant) ∧ storeThrough tenant 0x2004 8 1 .die = .error (.fault .misaligned 0x2004 tenant) ∧
    (∀ l ∈ (hit.getCore 0).l1, l.valid ≠ 0) ∧
    covers .cluster 0 7 = true ∧ covers .cluster 0 8 = false :=
  ⟨issues_of (by decide +kernel), ⟨lineAt 0x40, by decide +kernel⟩, by decide +kernel⟩

theorem witness_CacheOperations : (∀ i ∈ [Instr.pref .read 1 0, .pref .write 1 0, .cinv 1 .core, .cclean 1 .system, .cflush 1 .package], Issues i hit) ∧
    prefetchOk hit 0x2000 .load = true ∧ prefetchOk hit 0x0200000000000000 .load = false ∧
    (∃ r, cacheOpLine hit 0x2000 = .ok r) ∧ tabFind atSlice.ext 0x140 = none ∧
    cacheOpLine atSlice 0x0200000000000000 = .error (.fault .pageAbsent 0 atSlice) :=
  ⟨issues_of (by decide +kernel), by decide +kernel, by decide +kernel, ok_of (by decide +kernel), by decide +kernel⟩
/-- The tenant's L1 holds one line of 0x2000 with byte 5 dirty, and core 1's another domain's. -/
def dirtyHit : State :=
  (withCore tenant fun c => { c with l1 := [{ lineAt 0x40 with dirty := 1 <<< 5 }] }).modCore 1 fun c => { c with l1 := [{ lineAt 0x40 with dom := 4 }] }
/-- The line that L2 holds of `atSlice`, dirty. -/
def dirtySlice : State := { atSlice with l2 := atSlice.l2.map fun x => (x.1, { x.2 with dirty := true }) }
theorem witness_CacheTargets :
    (dirtyHit.cores.map fun x => x.1).Pairwise (· < ·) ∧ (∀ x ∈ dirtyHit.cores, (x.2.l1.map fun l => (l.dom, l.vl)).Nodup) ∧ MemoryOk dirtyHit ∧
    (∃ l, findL1 dirtyHit 0 3 0x40 = some l ∧ l.pl = (lineAt 0x40).pl ∧ isDram (128 * l.pl) = true ∧ l.dirty.getLsbD 5 = true) ∧ findL1 dirtyHit 1 4 0x40 ≠ none ∧ findL1 dirtyHit 1 3 0x40 = none ∧
    covers .cluster 0 7 = true ∧ covers .die 0 128 = false ∧
    (∃ l, tabFind dirtySlice.l2 0x140 = some l ∧ l.dirty = true) ∧ (∃ l, tabFind atSlice.l2 0x140 = some l ∧ l.dirty = false) ∧ dirtySlice.mem.wf = true ∧
    (dirtySlice.l2.map fun x => x.1).Pairwise (· < ·) ∧ (∀ x ∈ dirtySlice.cores, ∀ k ∈ x.2.l1, k.pl ≠ 0x140) := by
  refine ⟨by decide +kernel, by decide +kernel, ⟨by decide, by decide +kernel⟩, ⟨{ lineAt 0x40 with dirty := 1 <<< 5 }, by decide +kernel⟩, by decide +kernel, by decide +kernel, by decide +kernel, by decide +kernel,
    ⟨_, rfl, rfl⟩, ⟨_, rfl, rfl⟩, by decide +kernel⟩
/-- R215: CFLUSH at CORE scope puts the dirty byte at its home and drops the copy, CINV drops it without; another domain's copy stays. -/
theorem test_cache_targets : (let s : State := { dirtyHit with l2 := [(0x800040, { dom := 3, vl := 0x40, data := 0, dirty := false, perms := ⟨true, true, false, false⟩, keyid := 3, gen := 0, way := 0 })] }
     let u := onTargets s 0x800040 .die flushL1
     findL1 u 0 3 0x40 = none ∧ homeByte u 0x800040 5 = 5 ∧ homeByte u 0x800040 6 = 0 ∧ findL1 u 1 4 0x40 ≠ none) ∧
    (let u := onTargets dirtyHit 0x800040 .die fun s c l => dropL1 s c l.dom l.vl
     findL1 u 0 3 0x40 = none ∧ u.mem = dirtyHit.mem ∧ u.l2 = []) := by decide +kernel

/-- Vector registers that carry a tag, every lane a byte pattern. -/
def quad (t : Tag) (x : Nat) : VReg := { bits := BitVec.ofNat 128 x, tag := t }
theorem witness_VectorMemory :
    (let s := withV hit (quad .i32 1) (quad .n32 0) (quad .none 0)
     (∀ i ∈ [Instr.vld .c6 1 2 0, .vst 1 2 0, .spvld .i8 1 2 0, .spvst 1 2 0, .vlds .i32 0 1 2 3, .vsts 1 1 2 3, .vgath .f32 0 1 2 2, .vscat 0 1 2 2], Issues i s) ∧
     (s.getV 3).tag = .none ∧ (s.getV 1).tag ≠ .none ∧ made (loadBytes s 0x2070 16) = true ∧ made (storeBytes s 0x2070 16 1 none) = true ∧
     (let l := ((List.range 4).map fun i => (i, BitVec.ofNat 64 (0x2070 + 4 * i)))
      ∃ u, checkedLanes s .load .load 4 l = .ok u ∧ made (loadLanes u 4 l) = true) ∧
     (let l := ((List.range 4).map fun i => (i, BitVec.ofNat 64 (0x2070 + 4 * i)))
      ∃ u, checkedLanes s .store .store 4 l = .ok u ∧ made (storeLanes u 4 (lane .i32 1) l) = true) ∧
     tagInt (s.getV 2).tag = true ∧ tagLanes (s.getV 2).tag = tagLanes .f32) := by
  refine ⟨issues_of (by decide +kernel), by decide +kernel, by decide +kernel, by decide +kernel, by decide +kernel, ⟨_, rfl, ?_⟩, ⟨_, rfl, ?_⟩, by decide +kernel⟩
  · decide +kernel
  · decide +kernel

theorem witness_Atomics : (∀ i ∈ [Instr.amoAdd 1 2 3 .d .acqrel, .amoAnd 1 2 3 .w .relaxed, .amoOr 1 2 3 .w .acq, .amoXor 1 2 3 .w .rel, .amoMin 1 2 3 .w .rel,
      .amoMax 1 2 3 .w .rel, .amoMinn 1 2 3 .w .rel, .amoMaxn 1 2 3 .w .rel, .amoSwap 1 2 3 .w .rel, .amoFadd 1 2 3 .w .rel, .redAdd 2 3 .d .acqrel, .redAnd 2 3 .d .acq,
      .redOr 2 3 .d .acq, .redXor 2 3 .d .acq, .redMin 2 3 .d .acq, .redMax 2 3 .d .acq, .redMinn 2 3 .d .acq, .redMaxn 2 3 .d .acq, .redFadd 2 3 .d .acq,
      .cas 1 2 3 .d, .chunk 62 2], Issues i atSlice) ∧
    (∀ n ∈ [4, 8, 32, 64], made (atomicAccess atSlice 0x2040 n (fun s => s) fun old => (some (old, none), old)) = true) ∧
    (0x2040 : Word).toNat % 64 = 0 ∧ findL1 atSlice 0 3 (vlineOf 0x2040) = none ∧ (∃ l, findL2 atSlice 3 (vlineOf 0x2040) = some (0x140, l) ∧
      tabFind atSlice.l2 0x140 = some l ∧ l.perms.r = true ∧ l.perms.w = true ∧ l.perms.k = false) ∧ tabFind atSlice.ext 0x140 = none ∧
    watchHit atSlice .both 0x2040 64 = false ∧ closedTo atSlice 3 0x140 = false ∧ (∀ k ∈ (atSlice.getCore atSlice.core).l1, k.dom = atSlice.act.dom → k.pl ≠ 0x140) := by
  refine ⟨issues_of (by decide +kernel), by decide +kernel, by decide, by decide +kernel, ⟨_, rfl, rfl, rfl, rfl, rfl⟩, by decide +kernel⟩
theorem witness_CasAndChunk :
    made (atomicAccess atSlice 0x2000 8 (fun s : State => release s s.core s.act.dom .package) fun old => ((if old = 1 then some (2, some ({ core := 0, scope := .package } : Stamp)) else none), old)) = true ∧
    made (blockAccess atSlice (some .both) 0x2020 32 [(0, 8)] (fun s : State => release s s.core s.act.dom .package) fun x => (some ((chunkStep x).2.2, none), ((chunkStep x).1, (chunkStep x).2.1))) = true ∧
    (∃ r, blockAccess atSlice (some .both) 0x2010 32 [(0, 8)] (fun s : State => release s s.core s.act.dom .package) (fun x => (some ((chunkStep x).2.2, none), ((chunkStep x).1, (chunkStep x).2.1)))
      = .error (.fault .misaligned r atSlice)) :=
  ⟨by decide +kernel, by decide +kernel, ⟨0x2010, by decide +kernel⟩⟩
theorem witness_ChunkStep : (10 : Nat) ≤ 4 * 3 ∧ (4 - 1) * 3 < 10 ∧ (0 : Nat) ≤ 0 * 1 := by decide

theorem witness_Barriers : (∀ i ∈ [Instr.barrive 1 2, .barrived 1 2, .barwait 1 2, .bartry 1 2 3, .barinit 1 2 .system, .jinit 1 2 3], Issues i atSlice) ∧
    made (atomicAccess atSlice 0x2040 64 (fun s => s) fun x => (none, barScope x)) = true ∧
    answersOk (atomicAccess atSlice 0x2040 64 (fun s => s) fun x => (none, barScope x)) (fun r => made (blockAccess r.2.2 (some .both) 0x2040 64 [(8, 4), (16, 4), (24, 4)]
      (fun s => release s s.core s.act.dom r.1) fun x => (some (passRule (blockSet32 x 8 (barArrived x + 1)), none), barPhase x + barArrived x / barExpect x))) = true ∧
    made (blockAccess atSlice (some .both) 0x2040 64 [(0, 32)] (fun s => s) fun x => (some (passRule (barBlock x 4 .die), none), ())) = true ∧
    made (atomicAccess atSlice 0x2040 64 (fun s => s) fun x => (none, (phasePassed x 0, barScope x))) = true ∧
    phasePassed (lineNat (lineAt 0x40).data 0x40 64) 0 = true ∧ made (atomicAccess tenantZero 0x2040 64 (fun s => s) fun x => (none, (phasePassed x 0, barScope x))) = true ∧
    phasePassed 0 0 = false ∧
    (let s := withCore atSlice fun c => { c with endpoints := [(253, ent 3 0 0 1 6)] }
     (endpoint s 0 253).getLsbD 63 = true ∧ epLen (endpoint s 0 253) ≤ 6 ∧ (endpoint s 0 0).getLsbD 63 = false ∧ made (atomicCheck s 0x2040 64) = true ∧
       made (blockAccess s (some .both) 0x2040 64 [(0, 16)] (fun s => release s s.core s.act.dom .package) fun x =>
         (some (joinBlock x 0 253 0 3, none), continuationOf (joinBlock x 0 253 0 3) 0x2040)) = true) ∧
    (let s := withCore atSlice fun c => { c with endpoints := [(253, ent 3 0 0 1 7)] }
     6 < epLen (endpoint s 0 253) ∧ made (atomicCheck s 0x2040 64) = true) := by
  refine ⟨issues_of (by decide +kernel), by decide +kernel⟩
theorem witness_BlockInit : 2 ^ 32 - 1 < 2 ^ 32 ∧ 255 < 256 ∧ 4095 < 4096 := by decide

/-- h1 defined: two slots of 64 bytes at scratchpad 0x7FF80, one filled. -/
def ringed (head tail : BitVec 16) : State :=
  withCore tenant fun c => { c with rings := [(1, { desc := 0x200107FF80, head := head, tail := tail, meta_ := [], born := 0 })] }
theorem witness_Rings : (∀ i ∈ [Instr.rdef 15 2, .rwaitf 1 0, .rwaite 1 15, .radvh 1 0, .radvt 1 1, .rinfo 1 1], Issues i (ringed 0 0)) ∧
    (let w : Word := 0x200107FF80
     w.extractLsb' 41 23 = 0 ∧ w.extractLsb' 19 5 = 0 ∧ w.extractLsb' 0 6 = 0 ∧ w.extractLsb' 24 13 ≠ 0 ∧
       (w.extractLsb' 0 19).toNat + ((w.extractLsb' 37 4).toNat + 1) * ((w.extractLsb' 24 13).toNat * 64) ≤ spadSize 0) ∧
    ringInUse tenant 0 15 = false ∧ tabFind (tenant.getCore 0).rings 1 = none ∧
    (∃ r, tabFind ((ringed 0xFFFF 0).getCore 0).rings 1 = some r ∧ (r.tail.toNat + 2 ^ 16 - r.head.toNat) % 2 ^ 16 = 1 ∧ (r.desc.extractLsb' 37 4).toNat + 1 = 2) := by
  refine ⟨issues_of (by decide +kernel), by decide +kernel, by decide +kernel, by decide +kernel, ⟨_, rfl, by decide +kernel⟩⟩

/-- A tenant with entry 253 valid, to its own domain, core 7, actor 1, tag 2, LEN 3, and SEQ 65,535. -/
def sender : State := withCore tenant fun c => { c with endpoints := [(253, ent 3 7 1 2 3 ||| 0xFFFF)] }
theorem witness_SendMessages : Issues (.send 253 61 3) sender ∧ Issues (.send 255 0 0) sender ∧ sender.act.wait = none ∧
    (endpoint sender 0 253).getLsbD 63 = true ∧ epPkg (endpoint sender 0 253) = 0 ∧ epLen (endpoint sender 0 253) = 3 ∧
    ((release sender 0 3 (sendScope 0 (endpoint sender 0 253))).getCore 0).inj.length < 16 ∧
    (let s := withCore sender fun c => { c with inj := List.replicate 16 { pkg := 0, msg := ⟨3, 7, 1, 2, 0, [], 0, 0, false, none⟩ } }
     16 ≤ ((release s 0 3 (sendScope 0 (endpoint s 0 253))).getCore 0).inj.length) ∧
    (let s := withCore tenant fun c => { c with endpoints := [(0, ent 3 7 1 2 3 ||| (12 <<< 44))] }
     epPkg (endpoint s 0 0) ≠ 0 ∧ (s.getPort (epPkg (endpoint s 0 0) - 1)).lstate ≠ .up) :=
  ⟨issues_of (l := [.send 253 61 3]) (by decide +kernel) _ (by simp), issues_of (l := [.send 255 0 0]) (by decide +kernel) _ (by simp), by decide +kernel⟩
theorem witness_WaitingSends : Issues (.send 253 61 3) (withAct sender fun a => { a with wait := some (.inject (endpoint sender 0 253)) }) ∧
    (let first := endpoint sender 0 253
     let s := withAct sender fun a => { a with wait := some (.inject first) }
     s.act.wait = some (.inject first) ∧ (s.getCore 0).inj.length < 16 ∧ (endpoint s 0 253).getLsbD 63 = true ∧ (endpoint s 0 253).extractLsb' 16 48 = first.extractLsb' 16 48 ∧
       epPkg (endpoint s 0 253) = 0) ∧
    (let s := withAct (withCore sender fun c => { c with endpoints := [(253, ent 3 7 1 2 4)], inj := List.replicate 15 { pkg := 0, msg := ⟨3, 7, 1, 2, 0, [], 0, 0, false, none⟩ } }) fun a =>
        { a with wait := some (.inject (endpoint sender 0 253)) }
     (s.getCore 0).inj.length < 16 ∧ (endpoint s 0 253).extractLsb' 16 48 ≠ (endpoint sender 0 253).extractLsb' 16 48) :=
  ⟨issues_of (l := [.send 253 61 3]) (by decide +kernel) _ (by simp), by decide +kernel⟩
/-- A tag of an actor that a handler starts for at 0x3000. -/
def tagEnt (len : Nat) : TagEnt :=
  { present := true, entry := 0x3000, prio := 1, fire := 1, len := len, en := true, slog := 0, sbase := 0, head := 0, tail := 0, broken := false, ring := [] }
/-- Actor 0 with tags 0 and 15 among its sixteen. -/
def actor0 : Actor :=
  { kernel := false, conc := true, spoff := 0x100, spsize := 0, mbase := 0, msize := 0, dqbase := 0, dqlog := 0, steal := 0, savebase := 0,
    tags := (List.range 16).map fun i => if i = 0 ∨ i = 15 then tagEnt 2 else { tagEnt 0 with present := false } }
/-- A message of domain 3 for actor 0's tag `t` on core 0. -/
def msg (t : Nat) : Msg := { dom := 3, core := 0, actor := 0, tag := t, hdr := 0x1234, words := [7, 8], via := 0, src := 0, reached := true }
/-- A tenant whose actor 0 is loaded, with messages of tags 0 (unreserved) and 15 (reserved to slot 0) in the store. -/
def acting : State :=
  withCore tenant fun c => { c with actors := [(0, actor0)], store := [{ msg := msg 0, arrived := 1, slot := none }, { msg := msg 15, arrived := 2, slot := some 0 }] }
theorem witness_MpopMpeek : (∀ i ∈ [Instr.mpop 56 0, .mpeek 1 15], Issues i acting) ∧ acting.act.actor = some 0 ∧
    (∃ x, findTag acting 0 0 0 = some x) ∧ (∃ x, findTag acting 0 0 15 = some x) ∧ findTag acting 0 0 1 = none ∧
    (∃ m, (acting.getCore 0).store.find? (fun m => decide (m.slot = some 0 ∧ m.msg.actor = 0 ∧ m.msg.tag = 15)) = some m) ∧
    (∃ m, (acting.getCore 0).store.find? (fun m => decide (m.slot = none ∧ m.msg.dom = 3 ∧ m.msg.actor = 0 ∧ m.msg.tag = 0)) = some m) ∧
    ((withCore acting fun c => { c with store := [] }).getCore 0).store = [] ∧ kern.act.actor = none :=
  ⟨issues_of (by decide +kernel), by decide, ⟨tagEnt 2, by decide +kernel⟩, ⟨tagEnt 2, by decide +kernel⟩, by decide +kernel, ⟨_, rfl⟩, ⟨_, rfl⟩, by decide +kernel⟩
theorem witness_TagControl : (∀ i ∈ [Instr.tagen 0, .tagdis 14, .tagpend 1 0], Issues i acting) ∧ acting.act.actor = some 0 ∧
    findTag acting 0 0 0 = some (tagEnt 2) ∧ findTag acting 0 0 15 = some (tagEnt 2) ∧ findTag acting 0 0 14 = none ∧
    (tagEnt 2).tail - (tagEnt 2).head < 2 ^ 17 ∧ (acting.getCore 0).store.length < 2 ^ 9 ∧ (acting.getCore 0).ovf.length < 2 ^ 4 :=
  ⟨issues_of (by decide +kernel), by decide +kernel⟩
theorem witness_ForkJoin : (∀ i ∈ [Instr.endh, .endj 2, .fork 2 3], Issues i acting) ∧ acting.live = true ∧ acting.act.saving = none ∧ acting.act.halt ≠ .step ∧
    (let step := fun (x : Nat) => (if x % 2 ^ 32 = 0 then none else some (blockSet32 x 0 (x % 2 ^ 32 - 1)), x)
     made (blockAccess atSlice none 0x2040 64 [(0, 4)] (fun s : State => release s s.core s.act.dom .package) fun x => ((step x).1.map fun y => (y, none), x)) = true ∧
     made (blockAccess tenantZero none 0x2040 64 [(0, 4)] (fun s : State => release s s.core s.act.dom .package) fun x => ((step x).1.map fun y => (y, none), x)) = true) ∧
    (∃ r, blockAccess atSlice none 0x2020 64 [(0, 4)] (fun s : State => release s s.core s.act.dom .package) (fun x => ((none : Option (Nat × Option Stamp)), x)) = .error (.fault .misaligned r atSlice)) ∧
    (let s := withS acting 0 0x01FFFFFFFFFFFFFC 0x01FFFFFFFFFFFFC0
     (s.getS 2).toNat < 2 ^ 57 ∧ (s.getS 2).toNat % 4 = 0 ∧ (s.getS 3).toNat < 2 ^ 57 ∧ (s.getS 3).toNat % 64 = 0 ∧ s.act.prio < 4 ∧ (s.getCore s.core).deque.length < 64) ∧
    (let s := withCore tenant fun c => { c with deque := List.replicate 64 [] }
     64 ≤ (s.getCore s.core).deque.length ∧ ringCap s s.core ≤ ringCount (s.getCore s.core)) ∧
    2 ^ 57 ≤ (0x0200000000000000 : Word).toNat ∧ (2 : Word).toNat % 4 ≠ 0 ∧ (0x20 : Word).toNat % 64 ≠ 0 :=
  ⟨issues_of (by decide +kernel), by decide, by decide, by decide, ⟨by decide +kernel, by decide +kernel⟩, ⟨0x2020, by decide +kernel⟩, by decide +kernel⟩

/-- A tenant whose deque is full, and a runtime actor whose ring of four records lies at 0x2000. -/
def forking (n : Nat) : State :=
  { withCore tenant (fun c => { c with deque := List.replicate 64 [0x4000, 0], actors := [(15, { actor0 with dqbase := 0x2000, dqlog := 2 })] }) with
    l2 := (List.range n).map fun k => (0x140 + k, { dom := 3, vl := 0x40 + k, data := 0, dirty := false, perms := ⟨true, true, false, false⟩, keyid := 3, gen := 0, way := 0 }) }
theorem witness_Forks : Issues (.fork 2 3) (forking 2) ∧ 64 ≤ ((forking 2).getCore 0).deque.length ∧ ringCount ((forking 2).getCore 0) < ringCap (forking 2) 0 ∧
    made (dequeToRing (release (forking 2) 0 3 (forkScope (forking 2))) 0 3 (min 32 (ringCap (forking 2) 0 - ringCount ((forking 2).getCore 0)))) = true ∧
    (match dequeToRing (release (forking 1) 0 3 (forkScope (forking 1))) 0 3 4 with | .error (.fault _ _ _) => true | _ => false) = true := by
  refine ⟨issues_of (l := [.fork 2 3]) (by decide +kernel) _ (by simp), by decide +kernel⟩
/-- A tenant asked to save, whose handler's descriptor names `n` safe points, the first of which saves at `save`. -/
def asked (modes : BitVec 6) (n save : Nat) : State :=
  { withAct (withCore tenant fun c => { c with actors := [(15, { actor0 with savebase := 0x2080 })] }) (fun a =>
      { a with entry := 0x2010, modes := modes, preempt := some { why := .evict, at_ := 0, budget := 50000 } }) with
    l2 := (List.range 17).map fun k => (0x140 + k,
      { dom := 3, vl := 0x40 + k, data := if k = 0 then lineOf 0 64 (n + 2 ^ 64 * 0x2020 + 2 ^ 256 * (save + 2 ^ 64 * 0x3004)) else 0, dirty := false,
        perms := ⟨true, true, false, false⟩, keyid := 3, gen := 0, way := 0 }) }
theorem witness_SafePoints_asked : Issues (.safept 0) (asked 1 1 0x3000) ∧ (asked 1 1 0x3000).act.preempt ≠ none ∧ (asked 1 1 0x3000).act.saving = none ∧
    (asked 1 1 0x3000).act.halt ≠ .step ∧ (asked 0 1 0x3000).act.modes.getLsbD 0 = false ∧ (asked 1 1 0x3000).act.modes.getLsbD 0 = true ∧
    (∀ x ∈ [(0, 0x3000), (1, 0x3002)], answersOk (safePoint (asked 1 x.1 x.2) 0 (asked 1 x.1 x.2).act 0) (fun r => r.1.isNone) = true) ∧
    answersOk (safePoint (asked 1 1 0x3000) 0 (asked 1 1 0x3000).act 0) (fun r => decide (r.1 = some (0x3000, 0x3004)) &&
      made (writePieces r.2 r.2.act.dom r.2.core 0x2080 (safeRecord r.2 r.2.core r.2.slot r.2.act 0 false))) = true ∧ recordAddr (asked 1 1 0x3000) 0 0 = some 0x2080 := by
  refine ⟨issues_of (l := [.safept 0]) (by decide +kernel) _ (by simp), by decide +kernel⟩
/-- A tenant in a save routine, its record at a line of its L2. -/
def saving : State :=
  { withAct (withCore tenant fun c => { c with actors := [(15, { actor0 with savebase := 0x2000 })] }) fun a => { a with saving := some { addr := 0x1400, n := 1, retired := 9 } } with
    l2 := atSlice.l2 }
theorem witness_SafePoints : Issues (.safept 255) tenant ∧ tenant.act.preempt = none ∧ Issues .psaved tenant ∧ tenant.act.saving = none :=
  ⟨issues_of (l := [.safept 255]) (by decide +kernel) _ (by simp), by decide, issues_of (l := [.psaved]) (by decide +kernel) _ (by simp), by decide⟩

theorem witness_VectorLanes : ∀ i ∈ [Instr.vadd 7 31 1 2, .vsub 0 1 1 2, .vmul 0 1 1 2, .vmin 0 1 1 2, .vmax 0 1 1 2, .vdif 0 1 1 2, .vand 0 1 1 2, .vor 0 1 1 2, .vxor 0 1 1 2,
    .vandn 0 1 1 2, .vdiv 0 1 1 2], Issues i tenant := issues_of (by decide +kernel)
theorem witness_VectorLanes_tags : (tenant.getV 1).tag = .none ∧ ((withV tenant (quad .i8 0) (quad .none 0) (quad .n8 0)).getV 1).tag ≠ .none ∧
    ((withV tenant (quad .i8 0) (quad .none 0) (quad .n8 0)).getV 3).tag ≠ ((withV tenant (quad .i8 0) (quad .none 0) (quad .n8 0)).getV 1).tag ∧
    (quad .c4 0).tag ∈ [Tag.c8, .c6, .c4] := by decide +kernel
theorem witness_VectorIntegers : (∀ i ∈ [Instr.vabs 0 1 2, .vneg 0 1 2, .vnot 1 3 2, .vshli 0 1 2 0, .vshri 0 1 2 7, .vsrai 0 1 2 8, .vadd 0 1 2 3, .vsub 0 1 2 3, .vmul 0 1 2 3, .vmulh 0 1 2 3,
      .vmin 0 1 2 3, .vmax 0 1 2 3, .vadds 0 1 2 3, .vsubs 0 1 2 3, .vavg 0 1 2 3, .vdif 0 1 2 3, .vand 0 1 2 3, .vor 0 1 2 3, .vxor 0 1 2 3, .vandn 0 1 2 3, .vshl 0 1 2 3,
      .vshr 0 1 2 3, .vsra 0 1 2 3, .vrot 0 1 2 3, .vfma 0 3 2 3, .vfms 7 3 2 3, .vdiv 0 1 2 3], Issues i tenant) ∧
    (∀ t ∈ [Tag.i8, .i16, .i32, .i64, .n8, .n16, .n32, .n64],
      let s := withV tenant (quad .none 0) (quad t (2 ^ 127 + 129)) (quad t (2 ^ 128 - 1))
      (s.getV 2).tag = t ∧ (s.getV 3).tag = t ∧ ((1 : BitVec 6).toNat < tagWidth t)) ∧ tagWidth .i8 ≤ (8 : BitVec 6).toNat ∧ tagWidth .n64 = 64 :=
  ⟨issues_of (by decide +kernel), by decide +kernel⟩
theorem witness_VectorFloating : (∀ i ∈ [Instr.vabs 0 1 2, .vneg 0 1 2, .vsqrt 0 1 2, .vrcp 0 1 2, .vrsq 0 1 2, .vexp2 0 1 2, .vlog2 0 1 2, .vrnd 0 1 2 .fmode, .vclass 0 1 2, .vdiv 0 1 2 3],
      Issues i tenant) ∧
    (∀ t ∈ [Tag.f16, .bf16, .f32, .f64],
      let s := withV tenant (quad .none 0) (quad t (2 ^ 127 + 0x3C00)) (quad t 1)
      (s.getV 2).tag = t ∧ (s.getV 3).tag = t) ∧ (∃ n m e, unpackF fmtF16 0x3C00 = .fin n m e) ∧ unpackF fmtF16 0x7C00 = .inf false ∧ unpackF fmtF16 0x7D00 = .nan true ∧
    (2 ^ 3 ∣ 8) ∧ ¬ (2 ^ 3 ∣ 12) ∧ 2 * (12 % 2 ^ 3) = 2 ^ 3 :=
  ⟨issues_of (by decide +kernel), by decide +kernel, ⟨_, _, _, rfl⟩, by decide +kernel⟩
theorem witness_VectorCompareMove : (∀ i ∈ [Instr.vceq 1 7 2 3, .vcne 0 0 2 3, .vclt 0 1 2 3, .vcle 0 1 2 3, .vsel 1 1 2 3, .vshuf 0 1 2 3, .vzip 0 1 2 3, .vuzp 0 1 2 3, .vsld 0 1 31 15,
      .vbcast 0 1 2 15, .vbcast 0 1 2 16, .vins 0 2 1 15, .vext 1 2 0, .vmov 0 1 2, .vmov 1 3 2, .vzero 1 .none, .vsplati 0 1 32 .i8, .vsplati 0 1 32 .f64, .vretag 0 1 2 .c6,
      .vretag 1 3 2 .i8, .vtag 1 .c6], Issues i tenant) ∧
    (let s := withV tenant (quad .none 0) (quad .f16 0x7D00) (quad .f16 0x7D00)
     (s.getV 2).tag = .f16 ∧ unpackF fmtF16 (lane .f16 (s.getV 2).bits 0) = .nan true ∧ (s.getP 0).getLsbD 0 = true ∧ (s.getP 1).getLsbD 0 = false) ∧
    (let s := withV tenant (quad .i8 1) (quad .i8 0) (quad .i8 0)
     (s.getV 2).tag ≠ .none ∧ (s.getV 3).tag = (s.getV 2).tag ∧ tagLanes (s.getV 2).tag = 16 ∧ tagLanes .c6 = 21 ∧ (s.getV (1 + 1)).tag = (s.getV 1).tag) :=
  ⟨issues_of (by decide +kernel), by decide +kernel⟩
theorem witness_VectorReduceConvert : (∀ i ∈ [Instr.vredadd 0 1 2, .vredmax 1 1 2, .vredmin 0 1 2, .vdot 0 1 2 3, .vcvt 0 1 2 .f32, .vpack 0 1 2 3, .vunpkl 0 1 2, .vunpkh 0 1 2], Issues i tenant) ∧
    (∀ x ∈ [(Tag.i8, Tag.i32), (.n8, .n32), (.i16, .i64), (.n16, .n64), (.f16, .f32), (.bf16, .f32)], dotTag x.1 = x.2 ∧ x.2 ≠ .none) ∧
    (let s := withV tenant (quad .i32 0) (quad .i8 0xFF) (quad .i8 1)
     (s.getV 2).tag = .i8 ∧ (s.getV 3).tag = .i8 ∧ (s.getV 1).tag = dotTag .i8 ∧ tagMin .i8 ≤ -128 ∧ laneInt .i8 (lane .i8 (s.getV 2).bits 0) = -1) :=
  ⟨issues_of (by decide +kernel), by decide +kernel⟩
/-- A tenant whose slot 0 holds built-in table 0. -/
def tabled : State := withCore tenant fun c => { c with code := match builtin 0 .c8 with | some x => [(0, x)] | none => [] }
/-- A tenant whose L1 holds the nine lines of an image at 0x2000, all zero. -/
def imaged (x : CodeSlot) : State :=
  withCore tenant fun c => { c with l1 := (List.range 9).map fun k => { lineAt (0x40 + k) with
    data := lineOf 0 128 (leNat (((imageOfSlot x).drop (128 * k)).take 128)) } }
theorem witness_CodeTables : (∀ i ∈ [Instr.venc 0 1 2 0 0, .vdec 0 1 2 0 3, .ctldi 3 5 .c4, .ctldi 0 6 .c8, .ctldi 0 63 .c8, .ctld 0 2, .ctst 0 2, .ctinfo 1 3], Issues i tabled) ∧
    (let s := withV tabled (quad .c8 0) (quad .f16 0) (quad .c8 0)
     (codeSlot s 0).valid = true ∧ (codeSlot s 0).enc = true ∧ (codeSlot s 0).tag = .c8 ∧ (s.getV 1).tag = .c8 ∧ (s.getV 2).tag = .f16 ∧
       1 * tagLanes .f16 < tagLanes .c8 ∧ (s.getV 3).tag = .c8 ∧ 4 * 3 < tagLanes .c8) ∧
    tabFind (tenant.getCore 0).code 0 = none ∧ ((withV tenant (quad .c8 0) (quad .f16 0) (quad .c8 0)).getV 1).tag ≠ .none ∧
    (5 : BitVec 6).toNat < 6 ∧ 6 ≤ (6 : BitVec 6).toNat :=
  ⟨issues_of (by decide +kernel), by decide +kernel⟩
/-- The loads and stores of an image's 65 parts. -/
def imageParts : List (Nat × Word) := (List.range 65).map fun i => (i, BitVec.ofNat 64 (0x2000 + 16 * i))
theorem witness_CodeTables_image :
    (∃ x, builtin 0 .c8 = some x ∧ made (checkImage (imaged x) .load .load 0x2000) = true ∧ made (loadLanes (imaged x) 16 imageParts) = true ∧
      slotOfImage (((imageOfSlot x))) = some x) ∧ slotOfImage (List.replicate 1040 255) = none ∧
    made (checkImage (imaged { hdr := 0, ents := [] }) .store .store 0x2000) = true := by
  refine ⟨⟨_, rfl, ?_, ?_, ?_⟩, ?_, ?_⟩ <;> decide +kernel
theorem witness_TablesAndPredicates : (∀ i ∈ [Instr.pand 0 7 1, .por 1 2 3, .pxor 1 2 3, .pnot 1 0, .pseti 1 32, .pfrom 1 2, .pto 1 0, .pcnt 1 0, .pfirst 1 7], Issues i tenant) ∧
    (∀ j < 32, (tenant.getP 7).getLsbD j = false) ∧ (tenant.getP 0).getLsbD 0 = true ∧ (1 : PNum) ≠ 0 :=
  ⟨issues_of (by decide +kernel), by decide +kernel⟩

/-- A core whose handles 0 and 1 each name one slot of 4,096 × 8 bytes, and whose format context is I8 by I8. -/
def spliced : State :=
  withCore tenant fun c => { c with rings := [(0, { desc := 0x200000000, head := 0, tail := 1, meta_ := List.replicate 16 0, born := 0 }), (1, { desc := 0x200020000, head := 0, tail := 1, meta_ := List.replicate 16 0, born := 0 })], splice := some { word := 0x00401717, atab := none, btab := none } }
theorem witness_SpliceIssue : (∀ i ∈ [Instr.mctx 2, .mma 1 0 1, .mmar 1 0 1, .mmarLast 0 1 0, .mzero 1, .mrdacc 1 0 .f32, .mrdacc 1 0 (.code 0)], Issues i spliced) ∧
    (∃ ra rb c, tabFind (spliced.getCore 0).rings 0 = some ra ∧ tabFind (spliced.getCore 0).rings 1 = some rb ∧ (spliced.getCore 0).splice = some c ∧
      2048 * 8 ≤ 64 * (ra.desc.extractLsb' 24 13).toNat) ∧
    (let w : Word := 0x00401F10
     w.extractLsb' 5 3 = 0 ∧ w.extractLsb' 13 3 = 0 ∧ w.extractLsb' 20 2 = 0 ∧ w.extractLsb' 32 32 = 0 ∧ 16 ≤ (w.extractLsb' 0 5).toNat ∧ (w.extractLsb' 8 5).toNat ≤ 31 ∧
       w.getLsbD 22 = true ∧ w.getLsbD 23 = false) ∧
    (let w : Word := 0x0000000000000101
     (w.extractLsb' 0 5).toNat = 1 ∧ (w.extractLsb' 8 5).toNat = 1 ∧ w.getLsbD 22 = false) ∧
    (0x20 : Word).extractLsb' 5 3 ≠ 0 ∧ (0x0007 : Word).extractLsb' 0 5 = 7 ∧ ((0x1001 : Word).extractLsb' 8 5).toNat = 16 ∧
    (codeSlot spliced 0).valid = false ∧ (spliced.getCluster 0).spliceBack = [] ∧
    (let s := withCore spliced fun c => { c with endpoints := [(253, ent 3 7 1 2 2), (252, ent 3 7 1 2 3)] }
     (endpoint s 0 253).getLsbD 63 = true ∧ epLen (endpoint s 0 253) = 2 ∧ epLen (endpoint s 0 252) ≠ 2 ∧ (endpoint s 0 251).getLsbD 63 = false) ∧
    (spliced.getCluster 0).splice.length < 16 ∧ tabFind (spliced.getCore 0).rings 15 = none ∧ (tenant.getCore 0).splice = none ∧
    (let r : Ring := { desc := 0x1000000, head := 0, tail := 0, meta_ := [], born := 0 }
     64 * (r.desc.extractLsb' 24 13).toNat < 2048 * 8) := by
  refine ⟨issues_of (by decide +kernel), ⟨_, _, _, rfl, rfl, rfl, by decide +kernel⟩, by decide +kernel⟩
/-- The cluster's Splice engine took core 1's job last; an activation of another core waits at its port. -/
def waitingPort (c : Nat) : State :=
  { spliced with clusters := [(0, { Cluster.blank with lastSplice := 1 })], acts := [(64 * c, { Act.blank with dom := 3, wait := some (.port true) })] }
theorem witness_SpliceJobs_table : (tabled.getCore 0).code ≠ [] ∧ (codeSlot tabled 0).valid = true ∧ (codeSlot tabled 0).enc = true ∧
    (let s := { spliced with clusters := [(0, { Cluster.blank with splice := List.replicate 16 ⟨0, 0, .mzero, { word := 0, atab := none, btab := none }, 3, false, false, .none, .none, 0, false, false⟩ })] }
     16 ≤ (s.getCluster 0).splice.length) ∧ portTurn spliced true = true ∧ portTurn (waitingPort 2) true = false := by decide +kernel
/-- R18: of two cores at the port of an engine that took core 1's job last, core 2 comes before core 0 and core 0 before core 1. -/
theorem test_port_turn : portTurn ((waitingPort 2).select 2 0) true = true ∧ portTurn (waitingPort 1) true = true := by decide +kernel

/-- A tenant with a Splice job of status 1 under id 5 and a Reeve job of status 3 under id 6. -/
def jobbed : State :=
  withCore tenant fun c => { c with spliceTab := { seq := 6, jobs := [(5, 1)] }, reeveTab := { seq := 7, jobs := [(6, 3)] }, reeveScopes := [(6, .die)] }
theorem witness_JobsAndMeters : (∀ i ∈ [Instr.mpoll 1 2, .mwait 1 2, .cpoll 1 2, .cwait 1 2, .mtrd 1, .mtcls 1 15, .pdly 1 48, .pdly 1 49], Issues i jobbed) ∧
    jobStatus jobbed 0 true 5 = 1 ∧ jobStatus jobbed 0 false 6 = 3 ∧ ((3 : Word).extractLsb' 0 3 = 3) ∧ ((1 : Word).extractLsb' 0 3 = 1) ∧
    (∃ w, ((jobbed.getCore 0).spliceTab.jobs.find? fun j => decide (j.1 = 5)) = some (5, w)) ∧ 5 / 8192 = jobbed.core % 8 ∧
    jobbed.charges = [] ∧ costOf jobbed 15 < 2 ^ 16 ∧ (jobbed.getCluster 0).hscale < 2 ^ 16 :=
  ⟨issues_of (by decide +kernel), by decide +kernel, by decide +kernel, by decide, by decide, ⟨1, by decide +kernel⟩, by decide +kernel⟩

/-- A tenant with the operand words of a copy in s4 to s7. -/
def copying (src dst shape ctl : Word) : State := (((tenant.setS 4 src).setS 5 dst).setS 6 shape).setS 7 ctl
theorem witness_ReeveJobs : (∀ i ∈ [Instr.cpy 1 1, .cpy2 1 1, .cpypl 1 1, .cpyrd 1 1, .cpyfill 1 1], Issues i tenant) ∧
    (let shape : Word := 64
     let ctl : Word := 1 <<< 37
     copyReserved .cpy shape ctl = false ∧ copyUndefined .cpy ctl = false ∧ copyLength .cpy shape ctl = false ∧ copyKinds .cpy 0 ctl = false ∧ ctl.getLsbD 55 = false ∧ ctl.getLsbD 39 = false ∧
       0x7FFC0 + (copySpans .cpy shape ctl).2 ≤ spadSize 0) ∧
    copyReserved .cpy 0 1 = true ∧ copyReserved .cpy (1 <<< 40) 0 = true ∧ copyUndefined .cpy (5 <<< 52) = true ∧ copyUndefined .cpy (3 <<< 35) = true ∧
    copyLength .cpy 63 (1 <<< 39) = true ∧ copyKinds .cpy 32 (1 <<< 39) = true ∧ (tenant.getCluster 0).reeve.length < 16 ∧ portTurn tenant false = true ∧
    (copying 1 2 3 4).getS 7 = 4 :=
  ⟨issues_of (by decide +kernel), by decide +kernel⟩
theorem witness_ReeveJobs_forms : (∃ shape ctl, copyReserved .cpy2 shape ctl = false ∧ copyUndefined .cpy2 ctl = false ∧ copyLength .cpy2 shape ctl = false ∧ copyKinds .cpy2 0 ctl = false) ∧
    (∃ shape ctl, copyReserved .cpypl shape ctl = false ∧ copyUndefined .cpypl ctl = false ∧ copyLength .cpypl shape ctl = false ∧ copyKinds .cpypl 0 ctl = false) ∧
    (∃ shape ctl, copyReserved .cpyrd shape ctl = false ∧ copyUndefined .cpyrd ctl = false ∧ copyLength .cpyrd shape ctl = false ∧ copyKinds .cpyrd 0 ctl = false) ∧
    (∃ shape ctl, copyReserved .cpyfill shape ctl = false ∧ copyUndefined .cpyfill ctl = false ∧ copyLength .cpyfill shape ctl = false ∧ copyKinds .cpyfill 0 ctl = false) :=
  ⟨⟨0x0000000000100010, 1 <<< 37, by decide +kernel⟩, ⟨128, (1 <<< 37) + 0x11, by decide +kernel⟩, ⟨2097152, (1 <<< 55) + (1 <<< 37), by decide +kernel⟩, ⟨64, 1 <<< 37, by decide +kernel⟩⟩
/-- The cluster's queue with one Splice job of core 0. -/
def queued (op : SpliceOp) (run : Bool) : State :=
  { spliced with clusters := [(0, { Cluster.blank with splice := [⟨0, 5, op, { word := 0x00401717, atab := none, btab := none }, 3, run, false, .none, .none, 1, false, false⟩] })], cores :=
      [(0, { spliced.getCore 0 with spliceTab := { seq := 6, jobs := [(5, 1)] } }), (neighbourCore 0 true, { spliced.getCore 0 with spliceTab := { seq := 0, jobs := [] } })] }
theorem witness_SpliceEngine : (∃ n, tabFind ((queued .mzero true).getCore (neighbourCore 0 true)).rings 0 = some n) ∧
    (∀ op ∈ [SpliceOp.mma 0 1, .mmarLast 0 1, .mzero, .mrdacc 0 .f32 none, .mmar 0 1], let j : SpliceJob := ⟨0, 5, op, { word := 0x00401717, atab := none, btab := none }, 3, false, false, .none, .none, 1, false, false⟩
      findSplice (queued op false) 0 5 = some j ∧ j.id = 5 ∧ j.op = op ∧ clusterOf j.core = 0 ∧
      ((queued op false).getCluster 0).splice.find? (fun k => decide (k.core = j.core)) = some j ∧ j.running = false ∧ ((queued op false).getDie (dieOf j.core)).stopped = false) ∧
    (∀ op ∈ [SpliceOp.mma 0 1, .mzero], spliceReady (queued op false) ⟨0, 5, op, { word := 0x00401717, atab := none, btab := none }, 3, false, false, .none, .none, 1, false, false⟩ = true) ∧
    ((queued .mzero true).getCore 0).evict = none ∧ 5 / 8192 = 0 % 8 ∧ (5, 1) ∈ ((queued .mzero true).getCore 0).spliceTab.jobs ∧
    groupHeld (queued .mzero true) 3 0 = false ∧ (0x00401717 : Word).getLsbD 23 = false ∧ (0x00401717 : Word).getLsbD 22 = true ∧
    matrixBad (queued (.mma 0 1) true) ⟨0, 5, .mma 0 1, { word := 0x00401717, atab := none, btab := none }, 3, true, false, .none, .none, 1, false, false⟩ 0 1 false = false ∧
    matrixBad (queued (.mma 0 1) true) ⟨0, 5, .mma 0 1, { word := 0x00401701, atab := none, btab := none }, 3, true, false, .none, .none, 1, false, false⟩ 0 15 false = true ∧
    neighbourCore 0 true ≠ 0 ∧ (∀ k ∈ (queued .mzero true).clusters, k.2.spliceBack = []) := ⟨⟨_, rfl⟩, by decide +kernel⟩
/-- A running job whose tests have passed, or not, with the tiles it has forwarded. -/
def passing (op : SpliceOp) (passed w n : Bool) : State :=
  { queued op true with clusters := [(0, { Cluster.blank with splice := [⟨0, 5, op, { word := 0x00401717, atab := none, btab := none }, 3, true, passed, .none, .none, 1, w, n⟩] })] }
theorem witness_SpliceEngine_ends : (∃ ra rb, tabFind ((passing .mzero true false false).getCore 0).rings 0 = some ra ∧ tabFind ((passing .mzero true false false).getCore 0).rings 1 = some rb) ∧
    (∀ x ∈ [(SpliceOp.mma 0 1, true, false, false), (.mmarLast 0 1, false, false, false), (.mmar 0 1, true, true, true), (.mmar 0 1, true, true, false), (.mrdacc 0 .i32 none, false, false, false)],
      let s := passing x.1 x.2.1 x.2.2.1 x.2.2.2
      findSplice s 0 5 = some ⟨0, 5, x.1, { word := 0x00401717, atab := none, btab := none }, 3, true, x.2.1, .none, .none, 1, x.2.2.1, x.2.2.2⟩ ∧ (s.getDie 0).stopped = false) ∧
    (let s := passing (.mmar 0 1) true false false
     (∀ j ∈ (s.getCluster 0).splice, forwardBad s j true 0 1024 = false ∧ forwardBad s j true 15 1024 = true) ∧ (s.getCore (neighbourCore 0 true)).dom ≠ some 4) ∧
    tabFind ((passing (.mrdacc 7 .i32 none) false false false).getCore 0).rings 7 = none := ⟨⟨_, _, rfl, rfl⟩, by decide +kernel⟩
theorem witness_IntegerAccumulation : (∀ n ≤ 128, -(2 ^ 31) ≤ (0x7FFFFFFF : BitVec 32).toInt + ((List.range n).map fun _ => (0 : Int) * 0 * 2 ^ 4).sum ∧
      (0x7FFFFFFF : BitVec 32).toInt + ((List.range n).map fun _ => (0 : Int) * 0 * 2 ^ 4).sum < 2 ^ 31) ∧
    ¬ ((0x7FFFFFFF : BitVec 32).toInt + ((List.range 1).map fun _ => (1 : Int) * 1 * 2 ^ 0).sum < 2 ^ 31) := by
  refine ⟨fun n _ => ?_, by decide⟩
  have : ((List.range n).map fun _ => (0 : Int) * 0 * 2 ^ 4).sum = 0 := by simp
  rw [this]; decide

/-- A Reeve job of core 0 under id 5. -/
def reeveJob (form : ReeveForm) (ctl : Word) (run : Bool) : ReeveJob :=
  { core := 0, id := 5, form := form, src := 0xAB, dst := 0x7FFC0, shape := 64, ctl := ctl, dom := 3, kernel := false, modes := 0, running := run, slot := none, held := false,
    killed := false, trapKernel := 0, trapOut := false, issuer := 0, done := 0, sent := false, acked := 0, serial := 1, port := none, ending := none }
def filling : State := { tenant with clusters := [(0, { Cluster.blank with reeve := [reeveJob .cpyfill (1 <<< 37) true] })], cores := [(0, { tenant.getCore 0 with reeveTab := { seq := 6, jobs := [(5, 2)] } })] }
def ringJob : State := { ringed 0 0 with clusters := [(0, { Cluster.blank with reeve := [reeveJob .cpy ((1 <<< 48) + (3 <<< 37)) false] })] }
theorem witness_ReeveEngine :
    (∃ j, findReeve filling 0 5 = some j ∧ j.id = 5 ∧ j.running = true ∧ j.held = false ∧ j.sent = false ∧ j.killed = false ∧ j.done = 0 ∧
      (filling.getDie (dieOf j.core)).stopped = false ∧ j.form = .cpyfill ∧ ctlMsg j.ctl = false ∧ ctlDk j.ctl = 1 ∧ clusterOf j.core = 0 ∧ j.dst.toNat % optFill j.ctl = 0 ∧
      j.dst.toNat < 2 ^ 63 ∧ groupHeld filling j.dom 0 = false ∧ ctlNotify j.ctl = false ∧ 5 / 8192 = j.core % 8 ∧ (5, 2) ∈ (filling.getCore j.core).reeveTab.jobs) ∧
    MemoryOk filling ∧ (∀ k ∈ (filling.getCluster 0).reeveBack, k.id ≠ 5) := by
  refine ⟨⟨_, rfl, rfl, rfl, rfl, rfl, rfl, rfl, rfl, rfl, rfl, rfl, rfl, rfl, ?_⟩, ⟨by decide, by decide +kernel⟩, by decide +kernel⟩
  decide +kernel
theorem witness_ReeveEngine_waits :
    (let s := { atSlice with defers := [{ dom := 3, core := 0, kernel := false, block := 0x2040, jobs := [] }] }
     s.defers[0]? = some { dom := 3, core := 0, kernel := false, block := 0x2040, jobs := [] } ∧ (0x2040 : Word).toNat % 64 = 0 ∧
       made (atHome { s with defers := [] } 0 3 0 false .both 0x2040 fun h => let b := lineNat h.data 64 64
         (lineOf 64 64 (passRule (blockSet32 b 24 (barDefer b - 1))), fieldMask [(8, 4), (16, 4), (24, 4)] 64, (fun _ => none), ())) = true ∧
       made (atHome { tenant with defers := [] } 0 3 0 false .both 0x2040 fun _ => (0, 0, (fun _ => none), ())) = false) ∧
    (∀ d ∈ [({ dom := 3, core := 0, kernel := false, block := 0x2020, jobs := [] } : Defer), { dom := 3, core := 0, kernel := false, block := 0x0200000000000000, jobs := [] },
        { dom := 3, core := 0, kernel := false, block := 0x2040, jobs := [1] }],
      ({ atSlice with defers := [d] } : State).defers[0]? = some d ∧ (d.jobs ≠ [] ∨ 2 ^ 57 ≤ d.block.toNat ∨ d.block.toNat % 64 ≠ 0)) ∧
    (let s := { tenant with conts := [msg 0, { msg 0 with core := 9 }] }
     s.conts[0]? = some (msg 0) ∧ (s.getCore 0).dom = some 3 ∧ (s.getCore 9).dom ≠ some 3) ∧
    (let s := withAct (withCore spliced fun c => { c with l1i := [{ codeLine with data := lineOf 0 4 0x000000D3 }] }) fun a => { a with wait := some (.port true) }
     s.live = true ∧ s.act.status = .running ∧ s.act.halt = .none ∧ (s.getCluster 0).splice.length < 16 ∧ portTurn s true = true ∧ (match fetchLine s 0 3 false 0x1000 with | .ok (_, u) => decide (u = s) | _ => false) = true ∧
       decodeMain 0x000000D3 = .ok (.mzero 1)) ∧
    (let s := withAct tenant fun a => { a with wait := some (.port false) }
     (s.getCluster 0).reeve.length < 16 ∧ (s.getCluster 0).reeveBack = [] ∧ portTurn s false = true ∧ decodeMain (Instr.cpyfill 63 15).word = .ok (.cpyfill 63 15) ∧
       (match fetchLine s 0 3 false 0x1000 with | .error (.fault .pageAbsent _ _) => true | _ => false) = true) := by decide +kernel

/-- The accelerator kernel on core 0 with a frame table of one entry, frame 5, and a tenant's core 1. -/
def frameOf (st : FrameState) (owner peer : Nat) : Frame :=
  { late := 0, dclass := 0, state := st, keyid := 3, peer := peer, owner := owner, deadline := 1000, closing := false, pending := [], dirtied := [], lateLines := [] }
def framed (f : Frame) : State :=
  { kern with frames := [(5, f)], cores := [(0, { Core.blank with dom := some 2 }), (1, { Core.blank with dom := some 3 })] }
theorem witness_Frames : (∀ i ∈ [Instr.foffer 1 2 3, .faccept 1 2 3, .fdecline 1 2 3, .fwithdraw 1 2 3, .flend 1 2 3, .frecall 1 2 3, .frelease 1 2 3, .fscrub 1 2 3], Issues i kern) ∧
    kern.act.wait = none ∧
    (∀ x ∈ [(FrameOp.accept, FrameState.free, 255, 255, 0x300), (.offer, .owned, 3, 3, 0x304), (.offer, .owned, 3, 3, 0x3FF), (.decline, .offered, 4, 3, 0x300), (.withdraw, .offered, 3, 4, 0x300),
        (.lend, .owned, 3, 3, 0x301), (.recall, .lent, 3, 4, 0x300), (.release, .lent, 4, 3, 0x300)],
      let s := framed (frameOf x.2.1 x.2.2.1 x.2.2.2.1)
      let w : Word := BitVec.ofNat 64 x.2.2.2.2
      let s := { s with doms := tabPut s.doms 4 { Dom.blank with exists_ := true } }
      frameRefused s (frameReq x.1 w) 2 0x5000 w = none ∧ (frameReq x.1 w).count = 1 ∧ (match frameNext s (frameReq x.1 w) (getFrame s 5) with | .ok _ => true | .error _ => false) = true) ∧
    (let s := framed (frameOf .retired 3 3)
     frameNext s (frameReq .accept 0x300) (getFrame s 5) = .error .state ∧ frameNext s (frameReq .offer 0x404) (getFrame s 5) = .error .authority) ∧
    frameRefused kern (frameReq .offer 0x304) 2 0x5001 0x304 = some .format ∧ frameRefused kern (frameReq .offer (1 <<< 36)) 2 0x5000 (1 <<< 36) = some .format :=
  ⟨issues_of (by decide +kernel), by decide +kernel⟩
theorem witness_FrameTable : (∀ d ≤ 7, (let f := { frameOf .lent 3 4 with dclass := d }
     f.state = .lent ∧ f.dclass < 8)) ∧ 999 < (frameOf .recalling 3 4).deadline ∧ (∃ x ∈ (framed (frameOf .owned 3 4)).frames, x.2.state = .owned ∧ x.2.peer = 4 ∧ x.2.peer ≠ x.2.owner) := by
  refine ⟨by decide +kernel, by decide, ⟨_, List.mem_singleton.mpr rfl, rfl, rfl, by decide⟩⟩
/-- The kernel's L2 holds the receipt buffer, 32 lines from 0x2000, zero. -/
def receiving (f : Frame) (modes : BitVec 6) : State :=
  { framed f with doms := tabPut kern.doms 3 { Dom.blank with exists_ := true, modes := modes }, l2 := (List.range 32).map fun k => (0x140 + k, { dom := 2, vl := 0x40 + k, data := 0, dirty := false, perms := ⟨true, true, false, false⟩, keyid := 2, gen := 0, way := 0 }) }
theorem witness_FrameScrub :
    (∀ m ∈ [(0 : BitVec 6), 8], let s := receiving (frameOf .owned 3 3) m
      receiptFault s 2 (clusterOf 0) 0 0x2000 = none ∧ frameRefused s (frameReq .scrub 0x300) 2 0x5000 0x300 = none ∧ (frameReq .scrub 0x300).count = 1 ∧
        (getFrame s 5).owner = (frameReq .scrub 0x300).for_ ∧ (getFrame s 5).state = .owned ∧ scrubHost s 3 = decide (m = 8)) ∧
    (let s := { withAct (receiving (frameOf .scrubbing 3 3) 0) (fun a => { a with wait := some .frameOp }) with scrubs := [⟨0, 0, 1, 2, 3, 3, false, 5, 1, [5], [], 0, 0x2000⟩] }
     FormOk s ∧ (s.scrubs.find? fun x => decide (x.core = 0 ∧ x.slot = 0)).isSome = true ∧ s.findAct 0 0 = some s.act ∧ s.act.halt ≠ .step ∧ s.ext = [] ∧ (getFrame s 5).state = .scrubbing ∧ receiptWaits s 2 0 0 0x2000 = none) ∧
    isDram (4096 * 5) = true := by
  refine ⟨by decide +kernel, ⟨formOk_of (by decide +kernel), by decide +kernel⟩, by decide +kernel⟩
theorem witness_RecallClosing :
    (let s := { framed (frameOf .recalling 3 4) with time := 1000 }
     (getFrame s 5).state = .recalling ∧ (getFrame s 5).closing = false ∧ (getFrame s 5).deadline ≤ s.time) ∧
    (let s := framed (frameOf .recalling 3 4)
     s.time < (getFrame s 5).deadline) ∧
    (let s := framed { frameOf .recalling 3 4 with closing := true, pending := [0, 163], lateLines := [(0, 2)] }
     (getFrame s 5).closing = true ∧ 163 ∈ (getFrame s 5).pending ∧ ((getFrame s 5).lateLines.find? fun x => decide (x.1 = 0)) = some (0, 2)) ∧
    (let s := framed { frameOf .recalling 3 4 with closing := true, late := 3 }
     (getFrame s 5).closing = true ∧ (getFrame s 5).state = .recalling ∧ (getFrame s 5).pending = [] ∧ (getFrame s 5).lateLines = []) := by decide +kernel
/-- Lines of a domain in L2 from 0x2000 on, zero, read and write allowed. -/
def linesOf (d n : Nat) : Tab L2Line :=
  (List.range n).map fun k => (0x140 + k, { dom := d, vl := 0x40 + k, data := 0, dirty := false, perms := ⟨true, true, false, false⟩, keyid := d, gen := 0, way := 0 })
/-- The accelerator kernel on core 0, domain 3 on core 1 with actor 0 loaded, and an actor record of zeros at 0x2000 in the kernel's L2 lines. -/
def managing : State :=
  { kern with cores := [(0, { Core.blank with dom := some 2 }), (1, { Core.blank with dom := some 3, actors := [(0, actor0)] })], l2 := linesOf 2 9 }
theorem witness_KernelOperations : (∀ i ∈ [Instr.actload 1 2 3, .actunld 1 2 3, .actbind 1 2 3, .tinv 1 2 3, .qset 1 2 3, .epreq 1 2 3], Issues i managing) ∧ managing.act.wait = none ∧
    heldTest managing 2 0x3001 0 = none ∧ heldTest managing 2 0x3000 0 ≠ none ∧
    (let s := { managing with cores := [(0, { Core.blank with dom := some 2 }), (1, { Core.blank with dom := some 3 })] }
     answersOk (readRecord s 0x2000) (fun x => decide (recordRefused x.2 1 3 x.1 = none) && made (areasOk x.2 3 (clusterOf 0) (actorAreas (recordIndex x.1) (actorOf x.1)))
       && decide (recordClash x.2 1 3 (recordIndex x.1) (actorOf x.1) = none)) = true) ∧
    answersOk (readRecord managing 0x2000) (fun x => decide (recordRefused x.2 1 3 x.1 = some .inuse)) = true ∧
    (findActor managing 1 0).isSome = true ∧ findActor managing 1 15 = none ∧ actorBusy managing 1 3 0 = false ∧
    actorBusy { managing with acts := [(64, { Act.blank with dom := 3, actor := some 0 })] } 1 3 0 = true ∧
    answersOk (evictTags managing 1 3 0 (List.range 16)) (fun x => decide (x.1 < 2 ^ 56)) = true := by
  refine ⟨issues_of (by decide +kernel), by decide +kernel, by decide +kernel, by decide +kernel, ?_, ?_, by decide +kernel⟩
  · decide +kernel
  · decide +kernel
theorem witness_KernelOperations_binding :
    (let w : Word := 0x00003001 + (15 <<< 24)
     w.extractLsb' 29 35 = 0 ∧ findTag managing 1 0 15 = some (tagEnt 2) ∧ w.getLsbD 28 = false ∧ findTag managing 1 0 1 = none) ∧
    tagGranted managing 1 3 0 15 = false ∧ tagGranted (managing.modCore 0 fun c => { c with endpoints := [(0, ent 3 1 0 15 2)] }) 1 3 0 15 = true ∧
    answersOk (evictTags managing 1 3 0 [15]) (fun x => decide (findActor x.2 1 0 = findActor managing 1 0)) = true ∧
    answersOk (devReadSpan managing 2 (clusterOf 0) 0 0x2000 32) (fun x => tagFormatOk x.1 && !tagRefused 0 (tagOf true x.1) &&
      decide ((tagOf true x.1).sbase.toNat % (tagOf true x.1).ringBytes = 0) && !lenClash x.2 1 3 0 0 (tagOf true x.1).len && decide (findActor x.2 1 0 = findActor managing 1 0)) = true ∧ (tagEnt 2).head = (tagEnt 2).tail ∧
    (0xFF : Word).toNat < 2 ^ 8 ∧ (0x01FFFFFFFFFFFFFF : Word).toNat < 2 ^ 57 ∧ (0x1FF : Word).toNat < 2 ^ 9 ∧ (0x103 : Word).getLsbD 8 = true := by
  refine ⟨by decide +kernel, by decide +kernel, by decide +kernel, ?_, ?_, by decide +kernel⟩
  · decide +kernel
  · decide +kernel
/-- A tenant whose page 0 is mapped to frame 5, which it owns. -/
def mapped (s : State) : State :=
  { s with frames := [(5, frameOf .owned 3 3)], tlb := [{ unit := unitOf 3 0, dom := 3, log := 12, vpn := 0, ppn := 5, perms := ⟨true, true, false, false⟩, g := false, tables := [] }] }
theorem witness_KernelOperations_ring : made (areaOk (mapped managing) 3 (clusterOf 0) 0 64) = true := by decide +kernel
theorem witness_KernelOperations_entries :
    (let e := ent 3 1 0 15 2 &&& ~~~(1 <<< 63 : Word)
     grantTest ({ managing with doms := tabPut managing.doms 3 { Dom.blank with exists_ := true, send := BitVec.allOnes 256, accept := BitVec.allOnes 256 } }) 1 3 252 e = none) ∧
    (endpoint managing 1 252).getLsbD 63 = false ∧ (endpoint (managing.modCore 1 fun c => { c with endpoints := [(252, ent 3 1 0 15 2)] }) 1 252).getLsbD 63 = true ∧
    ((0x10003001 : Word) + (252 <<< 20)).getLsbD 28 = true := by decide +kernel

/-- The kernel on core 0, slot 0; a parked activation of domain 3 on core 0, slot 63, whose trap message went to domain 2. -/
def parked (k eds : Nat) : State :=
  { managing with acts := [(63, { Act.blank with dom := 3, status := .parked, trapKernel := k, regs := { Regs.start with epc := 0x1000, eds := BitVec.ofNat 64 eds, ebt := 0x3000 } })] }
theorem witness_ParkedAnswers : (∀ i ∈ [Instr.aresume 1 2 3, .akill 1 2 3], Issues i (parked 2 0)) ∧ (parked 2 0).act.wait = none ∧
    (withS (parked 2 0) 0 63 0).getS 2 = BitVec.ofNat 64 (64 * 0 + 63) ∧
    (∀ k ∈ [1, 2], ∀ e ∈ [0, 1, 2], ∃ y, (parked k e).findAct 0 63 = some y ∧ y.status = .parked ∧ y.decided = false ∧ y.trapKernel = k ∧ (y.regs.eds.extractLsb' 0 2).toNat = e ∧
      y.regs.lc0 = 0 ∧ ((parked k e).getDom y.dom).halted = false ∧ ((parked k e).getDom y.dom).held = false ∧ groupHeld (parked k e) y.dom 0 = false ∧ grantOf (parked k e) y.dom = none) ∧
    FormOk (parked 2 0) ∧ (let s := { parked 2 0 with doms := tabPut kern.doms 3 { Dom.blank with exists_ := true, halted := true } }
      (s.getDom 3).halted = true) := by
  refine ⟨issues_of (by decide +kernel), by decide +kernel, by decide +kernel, ?_, formOk_of (by decide +kernel), by decide +kernel⟩
  intro k hk e he
  simp only [List.mem_cons, List.not_mem_nil, or_false] at hk he
  rcases hk with rfl | rfl <;> rcases he with rfl | rfl | rfl <;> exact ⟨_, rfl, rfl, rfl, rfl, rfl, rfl, rfl, rfl, rfl, rfl⟩

/-- The kernel with core 2 held by none, and with the 176 pages of an image area of domain 3 at 2 MiB mapped. -/
def switching : State :=
  { managing with frames := (List.range 176).map fun k => (512 + k, frameOf .owned 3 3), tlb := (List.range 80).map fun u => { unit := u, dom := 3, log := 21, vpn := 1, ppn := 1, perms := ⟨true, true, false, false⟩, g := false, tables := [] } }
theorem witness_ContextSwitch : (∀ i ∈ [Instr.ctxsw 1 2 3, .ctxswRestore 1 2 3, .ctxswFresh 1 2 3], Issues i switching) ∧ switching.act.wait = none ∧ switching.act.dom = 2 ∧
    (∀ n ∈ [0x30003002, 0x10003002, 0x00003001], let w : Word := BitVec.ofNat 64 n
      w.extractLsb' 20 8 = 0 ∧ w.extractLsb' 30 34 = 0 ∧ (w.extractLsb' 0 12).toNat < 1280 ∧ (w.extractLsb' 12 8).toNat = 3) ∧
    domExists switching 3 = true ∧ (switching.getDom 3).halted = false ∧ (switching.getCore 2).dom = none ∧ dieInService switching 0 = true ∧ (switching.getCore 1).dom = some 3 ∧
    dieInService { switching with stage := 6, diemask := 0x3FE } 0 = false ∧ (switching.getCore 1).evict = none ∧ (0x200000 : Word).extractLsb' 0 12 = 0 ∧
    made (areaOk switching 3 (clusterOf 0) 0x200000 0xB0000) = true ∧ (∀ x ∈ switching.allActs, ¬ (x.1 = 1 ∧ x.2.2.dom = 3)) :=
  ⟨issues_of (by decide +kernel), by decide +kernel⟩

/-- A message of tag `t` of actor 0 on core 0 on its way, and core 0 as `acting` has it. -/
def arriving (t : Nat) : State := { acting with flight := [{ msg t with reached := false }] }
theorem witness_MessageArrivals :
    (let s := arriving 0
     s.flight[0]? = some { msg 0 with reached := false } ∧ s.flight.take 0 = [] ∧ (s.getCore 0).dom = some 3 ∧ (findActor s 0 0).isSome = true ∧ findTag s 0 0 0 = some (tagEnt 2) ∧
       (s.getCore 0).ovf = [] ∧ (tagEnt 2).head = (tagEnt 2).tail ∧ storeFull (s.getCore 0) 0 = false ∧ mpopWaiters s 0 = []) ∧
    ({ tagEnt 2 with tail := 1 } : TagEnt).full = true ∧ (tagEnt 2).broken = false ∧
    (let s := { arriving 0 with cores := [(0, { Core.blank with dom := some 3 })] }
     findActor s 0 0 = none ∧ (s.getCore 0).resident = [] ∧ ((s.getDom (kernelOf 3)).homeless).getLsbD 63 = false) ∧
    (let s := { arriving 0 with doms := tabPut tenant.doms 2 { Dom.blank with exists_ := true, homeless := ent 2 8 1 1 7 } }
     ((s.getDom (kernelOf 3)).homeless).getLsbD 63 = true) ∧
    (let s := withCore acting fun c => { c with store := [], ovf := [{ msg := msg 15, arrived := 3, slot := none }] }
     findTag s 0 (15 / 16) (15 % 16) = some (tagEnt 2) ∧ storeFull (s.getCore 0) 15 = false ∧ (s.getCore 0).moved = none ∧ (0 + 15) % 256 = 15 ∧ (s.getCore 0).ovf = [] ++ { msg := msg 15, arrived := 3, slot := none } :: [] ∧
       mpopWaiters s 0 = [] ∧ (∀ k < 15, ∀ e, findTag s 0 (k / 16) (k % 16) = some e → storeFull (s.getCore 0) (k % 16) = false ∧ (e.head ≠ e.tail ∨ ∃ o ∈ (s.getCore 0).ovf, o.msg.actor = k / 16 ∧ o.msg.tag = k % 16) → False)) := by
  refine ⟨by decide +kernel, by decide +kernel, by decide +kernel, by decide +kernel, ?_⟩
  decide +kernel
/-- Actor 0 with tag 0's ring of one slot at 0x2000, the arrival store full, and overflow messages of another tag. -/
def crowded (e : TagEnt) (n : Nat) (m : Msg) : State :=
  { withCore tenant (fun c => { c with
      actors := [(0, { actor0 with tags := (List.range 16).map fun i => if i = 0 then e else { tagEnt 0 with present := false } })],
      store := List.replicate 256 { msg := msg 3, arrived := 1, slot := none }, ovf := List.replicate n { msg := msg 3, arrived := 2, slot := none } }) with
    l2 := linesOf 3 1, flight := [m], acts := [(5, { Act.blank with dom := 3, status := .parked, trapOut := true })] }
theorem witness_MessageArrivals_full :
    (let e := { tagEnt 2 with sbase := 0x2000 }
     let s := crowded e 7 (msg 0)
     s.flight[0]? = some (msg 0) ∧ findTag s 0 0 0 = some e ∧ storeFull (s.getCore 0) 0 = true ∧ (∀ o ∈ (s.getCore 0).ovf, sameTag o.msg (msg 0) = false) ∧ e.full = false ∧ e.broken = false ∧
       made (spillWrite { s with flight := [], serial := s.serial + 1 } (msg 0) e s.serial) = true ∧ (s.getCore 0).ovf.length < 8) ∧
    (let s := crowded { tagEnt 2 with tail := 1 } 8 { msg 0 with src := 256 * 4090 + 2 }
     ({ tagEnt 2 with tail := 1 } : TagEnt).full = true ∧ 8 ≤ (s.getCore 0).ovf.length ∧ isNotice { msg 0 with src := 256 * 4090 + 2 } = true ∧ isNotice (msg 0) = false) ∧
    (let m : Msg := { msg 0 with src := 254, words := [0, 0, 0, 0, 5, 0, 0] }
     let s := { acting with flight := [m], acts := [(5, { Act.blank with dom := 3, status := .parked, trapOut := true })] }
     ¬ (256 * 1312 ≤ m.src ∨ m.src % 256 < 254) ∧ (m.words.getD 4 0).toNat = 64 * 0 + 5 ∧ s.findAct 0 5 = some { Act.blank with dom := 3, status := .parked, trapOut := true } ∧
       storeFull (s.getCore 0) 0 = false) := by decide +kernel
/-- A tenant whose core has a task record, the runtime actor, and a saved activation due in slot 5 with a record of zeros. -/
def starting : State := withCore tenant fun c => { c with deque := [[0x4000, 0]] }
def resuming (dump : Bool) : State :=
  { withCore tenant (fun c => { c with actors := [(15, { actor0 with savebase := 0x2000 })] }) with l2 := linesOf 3 200, acts := [(5, { Act.blank with dom := 3, status := .saved dump false, due := some 0 })] }
theorem witness_ActivationStarts :
    (∃ f, chooseStart acting 0 = .fire f ∧ f.actor = 0 ∧ f.tag = 0) ∧ 63 ∈ freeSlots acting 0 ∧ (findActor acting 0 0).isSome = true ∧ (findTag acting 0 0 0).isSome = true ∧
    ((queueOf (acting.getCore 0) 3 0 0).head?).isSome = true ∧
    chooseStart starting 0 = .pop ∧ 63 ∈ freeSlots starting 0 ∧ (starting.getCore 0).deque.getLast? = some [0x4000, 0] ∧
    (∀ d ∈ [true, false], chooseStart (resuming d) 0 = .resume 5 ∧ ((resuming d).findAct 0 5).map (fun a => a.status) = some (.saved d false) ∧ recordAddr (resuming d) 0 5 = some 0x4800 ∧
      made (recordReadAll (resuming d) 3 (clusterOf 0) 0 (0x2000 + 2048 * 5) 32) = true ∧ made (recordRead (resuming d) 3 (clusterOf 0) 0 (0x4800 + 0x498) 8) = true) := by
  refine ⟨⟨{ actor := 0, tag := 0, prio := 1, arrived := 1 }, by decide +kernel, rfl, rfl⟩, ?_⟩
  decide +kernel
/-- A compute core that may steal from core 1 of its cluster, its runtime actor's STEAL at 1. -/
def thief : State :=
  { tenant with cores := [(0, { Core.blank with dom := some 3, actors := [(15, { actor0 with steal := 1, tags := (List.range 16).map fun _ => { tagEnt 0 with present := false } })] }),
      (1, { Core.blank with dom := some 3, deque := [[0x4000, 0]], actors := [(15, { actor0 with steal := 1, tags := (List.range 16).map fun _ => { tagEnt 0 with present := false } })] })] }
theorem witness_Stealing :
    63 ∈ freeSlots thief 0 ∧ stealAllowed thief 0 = true ∧ (thief.getCore 0).steal.active = false ∧ victims thief 0 = [1] ∧ (thief.getCore 0).steal.retry = 0 ∧
    (let s := { thief with time := 78, cores := thief.cores.take 1 }
     victims (s.modCore 0 fun c => { c with steal := { c.steal with retry := 78 } }) 0 = [] ∧ stealAllowed (s.modCore 0 fun c => { c with steal := { c.steal with retry := 78 } }) 0 = true ∧
       ((s.modCore 0 fun c => { c with steal := { c.steal with retry := 78 } }).getCore 0).steal.retry ≤ s.time) ∧
    (let s := { thief with steals := [{ thief := 0, victim := 1, answer := none }, { thief := 0, victim := 9, answer := none }] }
     s.steals[0]? = some { thief := 0, victim := 1, answer := none } ∧ answersSteal s 0 1 = true ∧ answersSteal s 0 9 = false ∧ ringCount (s.getCore 1) = 0 ∧ (s.getCore 1).deque = [0x4000, 0] :: []) ∧
    (let s := { thief.modCore 0 (fun c => { c with steal := { slot := some 63, last := 1, left := [2], active := true, retry := 0 } }) with
        steals := [{ thief := 0, victim := 1, answer := some [0x4000, 0] }, { thief := 0, victim := 1, answer := some [] }] }
     (s.getCore 0).steal.slot = some 63 ∧ startsAllowed s 0 = true ∧ (s.getCore 0).steal.left = 2 :: [] ∧
       startsAllowed (s.modDom 3 fun d => { d with halted := true }) 0 = false) ∧
    (let s := { thief.modCore 1 (fun c => { c with ringTail := 1, actors := [(15, { actor0 with steal := 1, dqbase := 0x2000 })] }) with l2 := linesOf 3 1 }
     ringCount (s.getCore 1) ≠ 0 ∧ made (devRead s ((s.getCore 1).dom.getD 0) (clusterOf 1) 1 (ringSlotAddr s 1 (s.getCore 1).ringHead) 64) = true) ∧
    (let s := (thief.modDom 3 fun d => { d with halted := true }).modCore 0 fun c => { c with ringTail := 1, deque := List.replicate 64 [] }
     startsAllowed s 0 = false ∧ 64 ≤ (s.getCore 0).deque.length ∧ ringCap s 0 ≤ ringCount (s.getCore 0)) := by
  refine ⟨by decide +kernel, by decide +kernel⟩
/-- A running activation of domain 3 in slot 5 of core 0, and its record's lines. -/
def running (f : Act → Act) : State := { resuming true with acts := [(5, f { Act.blank with dom := 3, prio := 2, aged := 2 })] }
theorem witness_Preemption :
    ((running id).findAct 0 5).map (fun a => (a.status, a.wait, a.halt)) = some (.running, none, .none) ∧
    (let s := { running (fun a => { a with preempt := some { why := .evict, at_ := 10, budget := 50000 } }) with time := 50010 }
     answersOk (match s.findAct 0 5 with | some a => (.ok a : Acc Act) | none => .error (.wait 0)) (fun a => atBoundary a && decide (a.saving = none) &&
       made (recordWriteAll s 3 (clusterOf 0) 0 0x4800 32 (recordBytes a false 0 (0, 0) (reservedOf (s.getCore 0) 5)))) = true ∧ recordAddr s 0 5 = some 0x4800 ∧ 10 + 50000 ≤ s.time) ∧
    ({ running (fun a => { a with preempt := some { why := .evict, at_ := 10, budget := 50000 } }) with time := 50009 } : State).time < 10 + 50000 ∧
    FormOk (running fun a => { a with saving := some { addr := 0x1000, n := 1, retired := 4096 } }) ∧
    (let s := running fun a => { a with status := .parked, preempt := some { why := .halt, at_ := 0, budget := 0 } }
     answersOk (match s.findAct 0 5 with | some a => (.ok a : Acc Act) | none => .error (.wait 0)) (fun a => atBoundary a && decide (a.status = .parked) &&
       made (recordWriteAll s 3 (clusterOf 0) 0 0x4800 32 (recordBytes a true 0 (0, 0) (reservedOf (s.getCore 0) 5)))) = true) ∧
    (let s := { running (fun a => { a with preempt := some { why := .quota, at_ := 0, budget := 0 } }) with dies := [(0, { DieRegs.blank with stopped := true })] }
     (s.getDie 0).stopped = true ∧ (s.getDom 3).held = false) := by
  refine ⟨by decide +kernel, by decide +kernel, by decide +kernel, formOk_of (by decide +kernel), by decide +kernel⟩

/-- Outstanding requests of core 0: one that credits accumulator 48, one for a prefetch. -/
def waitingFor : State :=
  withCore hit fun c => { c with pending := [{ da := some 48, pref := none, walked := false, reads := [] }, { da := none, pref := some (3, 0x2000, false, .read), walked := false, reads := [] }] }
/-- Frame 5 owned by domain 3, which host 65,535 may read and write, and its line 160 held modified by host 7. -/
def hosted : State :=
  { tenant with frames := [(5, frameOf .owned 3 3)], hostTab := [(0, { ctl := 0x8303FFFF, base := 0x5000, limit := 0x5000 })], ext := [(161, { host := 7, modified := true, since := some 0, dom := 3 })] }
theorem witness_MemoryTraffic : MemoryOk hosted ∧
    (waitingFor.getCore 0).pending[0]? = some { da := some 48, pref := none, walked := false, reads := [] } ∧ (waitingFor.getCore 0).open_ = true ∧ (waitingFor.getCore 0).evict = none ∧
    (waitingFor.getCore 0).pending[1]? = some { da := none, pref := some (3, 0x2000, false, .read), walked := false, reads := [] } ∧
    made (translate (mapped tenant) 3 (clusterOf 0) false .load 0 false) = true ∧ translate tenant 3 0 false .load 0x2000 false = .error (.fault .pageAbsent 0x2000 tenant) ∧
    prefetchHits waitingFor 0 3 .read 0x2000 = true ∧ prefetchHits (mapped tenant) 0 3 .read 0 = false ∧ prefetchHits tenant 0 3 .read 0x2000 = false ∧
    hostServed hosted 65535 0x5000 true = some 3 ∧ hostServed hosted 65535 0x5000 false = some 3 ∧ hostServed hosted 0 0x5000 false = none ∧ tabFind hosted.lost 160 = none ∧
    tabFind hosted.ext 160 = none ∧ tabFind hosted.ext 161 = some { host := 7, modified := true, since := some 0, dom := 3 } ∧ isDram (128 * 161) = true ∧
    hosted.time < 0 + 1000000 ∧ (0 + 1000000 ≤ ({ hosted with time := 1000000 } : State).time) ∧ (hosted.ext.map fun x => x.1).Pairwise (· < ·) ∧
    (∀ w ∈ hosted.heldWrites, w.pa / 128 ≠ 161) ∧ ¬ (3 ≤ hosted.stage) ∧
    (let s := { hosted with stage := 6, lost := [(160, [])] }
     3 ≤ s.stage ∧ s.err = 0 ∧ hostServed s 65535 0x5000 false = some 3 ∧ (tabFind s.lost 160).isSome = true ∧ hostServed s 65535 0x5080 true = some 3 ∧ tabFind s.lost 161 = none ∧
       tabFind s.ext 161 = some { host := 7, modified := true, since := some 0, dom := 3 } ∧ (7 : Nat) ≠ 65535) := ⟨⟨by decide, by decide +kernel⟩, by decide +kernel⟩
theorem witness_EnergyAccounts :
    (let s := { tenant with charges := [{ dom := 3, meter := 0, eu := 5, cls := 1, at_ := 0 }, { dom := 194, meter := 1, eu := 5, cls := 1, at_ := 0 }, { dom := 2, meter := 2, eu := 1, cls := 1, at_ := 0 }] }
     s.charges[0]? = some { dom := 3, meter := 0, eu := 5, cls := 1, at_ := 0 } ∧ (∀ p ∈ s.charges.take 2, p.meter ≠ 2) ∧ s.charges[2]? = some { dom := 2, meter := 2, eu := 1, cls := 1, at_ := 0 } ∧
       (s.getDom 3).qbal.toInt - 5 < 0 ∧ (s.getCore 0).dom = some 3) ∧
    (let s := { tenant with clusters := [(0, { Cluster.blank with sum := 256 })] }
     (s.getCluster 0).sum ≠ 0 ∧ 128 ≤ (s.getCluster 0).cscale ∧ (s.getCluster 0).cscale ≤ 511 ∧ (2 * 256 * 1 * 256 + 256) / (2 * 256) = 256) ∧
    (tenant.getCluster 163).sum = 0 ∧ (tenant.getDom 3).modes.getLsbD 5 = false ∧ 100 * 60 / max 100 1 ≠ 0 ∧ 100 * 0 / max 100 1 = 0 ∧
    (let s := { (withCore tenant fun c => { c with holding := [(3, 600000)] }).modDom 3 (fun d => { d with held := true, heldAt := 500 }) with time := 2500 }
     (s.getCore 0).holding = [(3, 600000)] ∧ clusterOf 0 = 0 ∧ clusterOf 8 ≠ 0 ∧ 10 * 600000 / max 1000000 600000 = 6 ∧ 1 * 600000 / max 1000000 600000 = 0 ∧ (s.getDom 3).held = true ∧
       (s.getDom 3).heldAt + 2000 ≤ s.time ∧ (s.getCore 0).dom = some 3) := by decide +kernel
theorem witness_PowerAndBringUp :
    (let s := { tenant with dies := [(0, { DieRegs.blank with temp := 115 }), (1, { DieRegs.blank with temp := 105 }), (2, { DieRegs.blank with temp := 104 })] }
     115 ≤ (s.getDie 0).temp ∧ 105 ≤ (s.getDie 1).temp ∧ (s.getDie 1).temp < 115 ∧ (s.getDie 2).temp < 105) ∧
    State.reset.inReset = true ∧ (∀ n ≤ 6, (let s := { State.reset with inReset := false, stage := n, diemask := 0x200 }
      s.inReset = false ∧ s.err = 0 ∧ s.stage = n)) ∧ (0x200 : BitVec 10).getLsbD 9 = true ∧ (∀ k < 9, (0x200 : BitVec 10).getLsbD k = false) ∧ (∀ n < 10, (0 : BitVec 10).getLsbD n = false) ∧
    (tenant.getDie 0).tthr < 101 ∧ ¬ ((tenant.getDie 0).tthr < 100) ∧ 94 + 5 < (tenant.getDie 0).tthr ∧ 4799 < tenant.plimit ∧
    (let s := { State.reset with agenda := [.event (.registerWrite (.bar2 false) 8 0), .event .packageReset] }
     s.inReset = true ∧ s.agenda = .event (.registerWrite (.bar2 false) 8 0) :: [.event .packageReset] ∧ (Instr.registerWrite (.bar2 false) 8 0).isStep = true ∧
       Instr.registerWrite (.bar2 false) 8 0 ≠ .packageReset) := by decide +kernel
/-- Every stage of bring-up with no image to verify, or with one that verifies, whichever those are. -/
theorem witness_BringUp_images (f : Firmware) (h : Config.verifies f.image f.key = true ∧ sha3 f.key = Config.fusedKey ∧ Config.fusedVersion ≤ f.version) :
    (∀ g ∈ ([] : List Firmware), Config.verifies g.image g.key = true ∧ sha3 g.key = Config.fusedKey ∧ Config.fusedVersion ≤ g.version) ∧
    (∀ g ∈ [f], Config.verifies g.image g.key = true ∧ sha3 g.key = Config.fusedKey ∧ Config.fusedVersion ≤ g.version) ∧
    (State.reset.log.countP fun x => decide (x.type = 1)) + [f].length ≤ 8 := by
  refine ⟨by simp, by simpa using h, ?_⟩
  change 0 + 1 ≤ 8
  decide

/-- A request of a domain's kernel at the security core. -/
def request (k : Nat) (ws : List Word) : Msg := { dom := 0, core := 4090, actor := 0, tag := 0, hdr := BitVec.ofNat 64 (k * 2 ^ 35 + 0xFFFF * 2 ^ 19), words := ws, via := 0, src := 0, reached := true }
/-- The frames 5 to 15 owned by domain 2, one log entry. -/
def asking (k : Nat) (ws : List Word) : State :=
  { tenant with requests := [request k ws], frames := (List.range 11).map fun i => (5 + i, frameOf .owned 2 2), log := [{ index := 0, type := 1, dom := 0, slot := 0, time := 0, digest := 0 }], logCount := 1 }
theorem witness_MeasuringRequests : MemoryOk (asking 2 []) ∧
    (∀ c ∈ [0, 1, 2, 3, 7, 8, 9], (asking 2 [BitVec.ofNat 64 c]).requests = [request 2 [BitVec.ofNat 64 c]] ∧ bitsOf (request 2 [BitVec.ofNat 64 c]).hdr 42 35 = 2) ∧
    domExists (asking 2 []) 3 = true ∧ ((asking 2 []).getDom 3).exists_ = true ∧ ((asking 2 []).getDom 3).cs.length = 4 ∧ kernelOf 3 = 2 ∧ kernelOf 1 = 1 ∧
    bufferOk (asking 2 []) 2 0x5000 0x2000 = true ∧ bufferOk (asking 2 []) 2 0x5001 0x1000 = false ∧ (asking 2 []).logCount - (asking 2 []).log.length ≤ 0 ∧
    0 < (asking 2 []).logCount ∧ (asking 2 []).log[0]? = some { index := 0, type := 1, dom := 0, slot := 0, time := 0, digest := 0 } ∧
    (∀ x ∈ (asking 2 []).ext, ¬ (0x5000 / 128 ≤ x.1 ∧ x.1 < (0x5000 + 0x2000) / 128)) ∧ (∀ b < 6, (0x40 : Word).getLsbD b = false) ∧
    (∀ b < 6, (0x10 : Word).getLsbD b = true → 1 = (if b = 4 then 1 else kernelOf 3)) ∧
    (let s := (asking 2 []).modDom 3 fun d => { d with send := BitVec.allOnes 256, accept := BitVec.allOnes 256 }
     (s.getDom 3).send &&& ~~~((1 : BitVec 256) <<< 3) ≠ 0 ∧ (s.getDom 3).send &&& ~~~(s.getDom 3).send = 0) := ⟨⟨by decide, by decide +kernel⟩, by decide +kernel⟩
theorem witness_DomainRequests :
    (∀ c ∈ [4, 5, 6], (asking 2 [BitVec.ofNat 64 c, 194]).requests = [request 2 [BitVec.ofNat 64 c, 194]]) ∧ ((asking 2 []).getDom 194).exists_ = false ∧
    (asking 2 []).cores.any (fun x => decide (x.2.dom = some 3)) = true ∧ ((asking 2 []).getDom 3).exists_ = true ∧
    (let s := { asking 2 [5, 3] with cores := [] }
     (∀ x ∈ s.cores, x.2.dom ≠ some 3) ∧ (∀ x ∈ s.frames, x.2.owner ≠ 3 ∧ x.2.peer ≠ 3)) ∧
    isDram 0x5000 = true ∧ isDram 0x0A0000000000 = false ∧ (getFrame (asking 2 []) 5).owner = 2 ∧ (getFrame (asking 2 []) 5).state = .owned ∧ (getFrame (asking 2 []) 5).peer = 2 ∧
    (getFrame (asking 2 []) 4).owner = 255 := by decide +kernel

/-- A debug command's word: core, DOM, CMD and the rest of its fields. -/
def command (core d cmd arg : Nat) : Word := BitVec.ofNat 64 (core * 2 ^ 52 + arg * 2 ^ 12 + d * 2 ^ 4 + cmd)
/-- A tenant with a grant to domain 1 that holds its group, a command of domain 1 waiting, and another activation of it in slot 5. -/
def debugged (g : Grant) (w : Word) : State := { running (fun a => { a with halt := .group }) with live := false, grants := [(3, g)], commands := [{ dom := 1, core := 0, word := w }] }
theorem witness_DebugCommands : FormOk (debugged held3 0) ∧
    (∀ c ∈ [1, 2, 3, 4, 5, 6, 7, 8, 9, 10, 11], let w := command 0 3 c (if c = 1 ∨ c = 2 then 1 else 0)
      bitsOf w 3 0 = c ∧ bitsOf w 11 4 = 3 ∧ bitsOf w 63 52 = 0 ∧ cmdFormat w = false) ∧
    cmdFormat (command 1311 195 4 0) = true ∧ cmdFormat (command 1312 3 4 0) = true ∧ bitsOf (command 0 3 12 0) 3 0 = 12 ∧ bitsOf (command 0 3 1 3) 19 12 = 3 ∧
    bitsOf (command 0 3 1 1) 19 12 = 1 ∧ (tenant.getDom 3).exists_ = true ∧ tabFind tenant.grants 3 = none ∧
    (let g := { held3 with granted := false }
     g.granted = false ∧ g.consent = true ∧ g.grantee = 1) ∧ grantOf (debugged held3 0) 3 = some held3 ∧ held3.grantee = 1 ∧
    ((debugged held3 0).grants.map fun x => x.1).Pairwise (· < ·) ∧ tabFind (debugged held3 0).acts 0 = none ∧
    ((debugged held3 0).findAct 0 5).map (fun a => (a.status, a.halt)) = some (.running, .group) ∧ (0 : Nat) ∈ ({ held3 with holds := [0], locks := [0] } : Grant).holds ∧ (0 : Nat) ∉ held3.locks ∧
    bufferOk { debugged held3 0 with frames := (List.range 40).map fun i => (512 + i, frameOf .owned 1 1) } 1 0x200000 0x21000 = true ∧
    made (snapRecords (debugged held3 0) 3 0 (List.range 64)) = true ∧ ((debugged held3 0).getCore 0).dom = some 3 ∧ (command 0 3 9 1).getLsbD 12 = true ∧
    (∀ y ∈ (debugged held3 0).ext, y.1 ≠ 0) ∧ (2 : Nat) ≠ held3.grantee ∧ ({ held3 with consent := false } : Grant).consent = false := ⟨formOk_of (by decide +kernel), by decide +kernel⟩
/-- Function 193 with ingress entry 63 valid and one egress message, its ring of 4 slots. -/
def linked : State :=
  { tenant with fns := [(193, { HostFn.blank with egbase := 0x10000, eglog := 2, ingress := [(63, ent 194 1311 15 15 7)], egress := [msg 0] })] }
theorem witness_HostLink :
    (tabGet 0 (linked.getFn 193).ingress 63).getLsbD 63 = true ∧ undelivered linked 193 < 16 ∧ epPkg (tabGet 0 (linked.getFn 193).ingress 63) = 0 ∧
    epCore (tabGet 0 (linked.getFn 193).ingress 63) < 1312 ∧ (tabGet 0 (linked.getFn 193).ingress 0).getLsbD 63 = false ∧
    16 ≤ undelivered { linked with flight := List.replicate 16 { msg 0 with src := hostSource 193 63 } } 193 ∧
    (linked.getFn 193).egress = msg 0 :: [] ∧ ((linked.getFn 193).egtail + 2 ^ 32 - (linked.getFn 193).eghead) % 2 ^ 32 ≠ 2 ^ (linked.getFn 193).eglog ∧
    ((4 + 2 ^ 32 - 0) % 2 ^ 32 = 2 ^ 2) ∧ ¬ (3 ≤ linked.stage) ∧ 3 ≤ ({ linked with stage := 6 } : State).stage ∧ linked.err = 0 ∧
    linked.stage < 8 ∧ (linked.getDie 9).temp < 256 ∧ (linked.getPort 11).drop < 2 ^ 32 ∧ (linked.getFn 193).ingerr < 2 ^ 32 ∧ (0x5500 : Word).toNat / 256 % 256 = 85 ∧ (0x6E00 : Word).toNat / 256 % 256 = 110 ∧ (0x5400 : Word).toNat / 256 % 256 < 85 := by decide +kernel

/-- A flit of port 11. -/
def flit (k : FlitKind) (seq ack : Nat) : Flit :=
  { ctr := 0, lseq := BitVec.ofNat 16 seq, ackseq := BitVec.ofNat 16 ack, ing := 255, resync := false, last := true, slot := false, kind := k, bytes := 64, body := List.replicate 64 0, reservedZero := true, iv := 0, auth := true }
/-- Port 11 up, bound to domain 3, its next flits numbered 65,535. -/
def port (f : Port → Port) : State :=
  { tenant with ports := [(11, f { Port.blank with lstate := .up, pdom := 3, bound := 3, lseq := 65535, expect := 65535 })], lanIngress := [(256 * 3 + 255, ent 3 0 0 1 7 ||| (12 <<< 44))] }
theorem witness_Lanyard_sending :
    (State.reset.getPort 0).lstate ≠ .up ∧ ((port fun p => { p with kagree := true }).getPort 11).kagree = true ∧ ((port id).getPort 11).lstate = .up ∧ ((port id).getPort 11).resync = false ∧
    ((port fun p => { p with resend := [flit .idle 0 0] }).getPort 11).resend = flit .idle 0 0 :: [] ∧
    64 ≤ ((port fun p => { p with sent := List.replicate 64 { flit := flit .data 0 0, unit := none } }).getPort 11).sent.length ∧ ((port id).getPort 11).tx0.data < 0xFFF00000 ∧
    ((port id).getPort 11).tx0.ctl < 0x1FF00000 ∧ ((port fun p => { p with queue := [{ ing := 255, bytes := [], last := true, dom := 3, ddom := 4, job := none }] }).getPort 11).queue ≠ [] ∧
    (let s := port fun p => { p with tx0 := { p.tx0 with data := 0xFFF00000 } }
     0xFFF00000 ≤ (s.getPort 11).tx0.data ∧ (s.getPort 11).marker = false ∧ (s.getPort 11).assisted = false) ∧
    (let s := { port (fun p => { p with sent := [{ flit := flit .data 65534 0, unit := none }, { flit := flit .data 65535 0, unit := none }] }) with time := 10000 }
     (s.getPort 11).sent ≠ [] ∧ (s.getPort 11).lastAck + 10000 ≤ s.time ∧ (flit .idle 0 65535).ackseq = (flit .data 65534 0).lseq + BitVec.ofNat 16 1 ∧
       (flit .retry 0 65533).ackseq = (flit .data 65534 0).lseq - 1 ∧ (s.getPort 11).resend = [] ∧ (flit .idle 0 0).slot = (s.getPort 11).rxSlot) ∧
    (∀ k ∈ [FlitKind.idle, .retry], let f := { flit k 0 65533 with iv := flitIv ((port id).getPort 11) false (flit k 0 65533) }
     f.auth = true ∧ f.reservedZero = true ∧ f.slot = ((port id).getPort 11).rxSlot ∧ f.iv = flitIv ((port id).getPort 11) false f ∧ (flit k 0 65533).iv ≠ f.iv) ∧
    (let s := port fun p => { p with sent := [{ flit := flit .data 65534 0, unit := none }], resend := [flit .data 65534 0], byRetry := true, resendFor := 65533 }
     (s.getPort 11).resend ≠ [] ∧ (s.getPort 11).resendFor = (flit .retry 0 65533).ackseq.toNat) := by decide +kernel
theorem witness_Lanyard_receiving :
    ((port id).getPort 11).sent = [] ∧ (flit .data 65535 0).lseq.toNat = ((port id).getPort 11).expect ∧ (tabGet 0 (port id).lanIngress (256 * 3 + 255)).getLsbD 63 = true ∧
    epPkg (tabGet 0 (port id).lanIngress (256 * 3 + 255)) = 11 + 1 ∧ (tabGet 0 (port id).lanIngress (256 * 3 + 255)).getLsbD 20 = false ∧ ((port id).getPort 11).landing = none ∧
    (flit .data 65535 0).body.length = 64 ∧ (tabGet 0 (port id).lanIngress (256 * 3 + 254)).getLsbD 63 = false ∧
    (flit .data 32767 0).lseq.toNat = (65535 + 65536 - 32768) % 65536 ∧ (flit .data 32766 0).lseq.toNat = (65535 + 32767) % 65536 ∧ ((port id).getPort 11).fails = [] ∧
    (let f : Flit := { flit .marker 65535 0 with resync := true, body := leBytes 8 0 ++ leBytes 8 0 ++ leBytes 8 65535 ++ List.replicate 40 0 }
     resyncAgrees ((port id).getPort 11) f = true ∧ tabGet 0 [((65535 : Nat), 2)] (flit .data 65535 0).lseq.toNat = 2 ∧ 65535 ∉ ((port id).getPort 11).resumed ∧ (((port id).getPort 11).tx false).data < 2 ^ 32) := by decide +kernel
/-- Port 11 with an ingress entry of LAND = 1 for ring 1 of core 0, two slots of 64 bytes, the first free. -/
def landing : State :=
  { ringed 0 0 with ports := [(11, { Port.blank with lstate := .up, pdom := 3, bound := 3, lseq := 65535, expect := 65535 })], lanIngress := [(256 * 3 + 255, ent 3 0 0 1 2 ||| (12 <<< 44) ||| (1 <<< 20) ||| (1 <<< 16))] }
theorem witness_Lanyard_landing : (∃ r, findRing landing 0 1 = some r ∧ 64 ≤ r.slotBytes) ∧
    (let e := tabGet 0 landing.lanIngress (256 * 3 + 255)
     let f := { flit .data 65535 0 with iv := flitIv (landing.getPort 11) false (flit .data 65535 0) }
     e.getLsbD 63 = true ∧ epPkg e = 12 ∧ e.getLsbD 20 = true ∧ bitsOf e 19 16 = 1 ∧ epCore e = 0 ∧ (landing.getCore 0).dom = some (epDom e) ∧
       landHolds landing (landing.getPort 11) e = false ∧ f.iv = flitIv (landing.getPort 11) false f) := ⟨⟨_, rfl, by decide +kernel⟩, by decide +kernel⟩
/-! Further cases of the statements. -/

/-- Domain 3 with frame 5 as its only table, its first 16 entries those of a number, and the frames 16 to 31 its own. -/
def tree (x : Nat) : State :=
  { tenant with
    doms := tabPut tenant.doms 3 { Dom.blank with exists_ := true, troot := 0x5001 }
    frames := (5, frameOf .owned 3 3) :: (List.range 16).map fun i => (16 + i, frameOf .owned 3 3)
    l2 := [(160, { dom := 3, vl := 0x7F, data := BitVec.ofNat 1024 x, dirty := false, perms := ⟨true, true, false, false⟩, keyid := 3, gen := 0, way := 0 })] }
/-- The entries of a group of sixteen pages, frames 16 to 31, readable, joined. -/
def groupLine : Nat := 0x1F043000000000001E043000000000001D043000000000001C043000000000001B043000000000001A0430000000000019043000000000001804300000000000170430000000000016043000000000001504300000000000140430000000000013043000000000001204300000000000110430000000000010043
theorem witness_WalkLevels :
    (∀ e ∈ [0, 0x10003, 0x0010000000000001, 5], readPte (tree e) 5 0 = BitVec.ofNat 64 e) ∧ tabFind (tree 0).l2 160 ≠ none ∧ tabFind tenant.l2 160 = none ∧
    (let f := getFrame (tree 0) 5
     isDram (4096 * 5) = true ∧ f.owner = 3 ∧ f.state = .owned) ∧
    (let f := getFrame (tree 0) 4
     f.owner ≠ 3 ∧ f.owner ≠ kernelOf 3 ∧ f.peer ≠ 3) ∧
    tabFind hosted.ext 161 ≠ none ∧ (getFrame hosted 5).owner = 3 ∧ (getFrame hosted 5).state = .owned ∧ (0x10000 : Word).toNat / 2 ^ (12 + 9 * 0) % 512 = 16 ∧ (4096 * 5 + 8 * 16) / 128 = 161 ∧
    tabFind ({ tree 0 with lost := [(160, [])] } : State).lost 160 ≠ none ∧ (tree 0).ext = [] ∧ (tree 0).lost = [] ∧
    (0x0010000000000001 : Word).extractLsb' 52 12 ≠ 0 ∧ (0 : Word).getLsbD 0 = false ∧
    ((5 : Word).getLsbD 2 = true ∧ (5 : Word).getLsbD 1 = false ∧ (5 : Word).getLsbD 0 = true) ∧ ((0x81 : Word).getLsbD 7 = true) ∧ ((3 : Word).extractLsb' 1 6 ≠ 0) ∧
    ((0x10003 : Word).getLsbD 0 = true ∧ (0x10003 : Word).extractLsb' 52 12 = 0 ∧ (0x10003 : Word).getLsbD 2 = false ∧ (0x10003 : Word).getLsbD 6 = false) ∧
    (∀ i < 16, let e := readPte (tree groupLine) 5 i
      e.extractLsb' 52 12 = 0 ∧ e.getLsbD 0 = true ∧ e.getLsbD 6 = true ∧ e.extractLsb' 1 5 = 1 ∧ (e.extractLsb' 12 40).toNat = 16 + i ∧
        leafDenies (tree groupLine) 3 (e.getLsbD 4) (4096 * (16 + i)) = none) ∧
    ((0x5001 : Word).getLsbD 7 = false ∧ (0x5001 : Word).extractLsb' 1 6 = 0) ∧
    (0x01FFFFFFFFFFFFFF : Word).toNat < 2 ^ 57 := by
  decide +kernel
/-- A state of domain 3 whose page 0 is mapped to a frame with these bits, the frame's entry as given. -/
def leafed (ppn : Nat) (p : Perms) (f : Frame) : State :=
  { tenant with frames := [(ppn, f)], tlb := [{ unit := unitOf 3 0, dom := 3, log := 12, vpn := 0, ppn := ppn, perms := p, g := false, tables := [] }] }
theorem witness_LeafChecks :
    (let t : TEntry := { unit := unitOf 3 0, dom := 3, log := 12, vpn := 0, ppn := 5, perms := ⟨true, true, false, false⟩, g := false, tables := [] }
     (leafed 5 ⟨true, true, false, false⟩ (frameOf .owned 3 3)).tlb = t :: [] ∧ t.vpn = (0x7F : Word).toNat / 2 ^ t.log ∧ unitOf 3 0 = unitOf 3 0x7F) ∧
    ((tenant.getDom 3).troot.getLsbD 0 = false ∧ tenant.tlb = []) ∧
    (((tree 0).getDom 3).troot.getLsbD 0 = true ∧ (tree 0).tlb = [] ∧ (tree 0).walk = []) ∧
    (let w : WEntry := { unit := unitOf 3 0, dom := 3, level := 1, prefix_ := 0, frame := 5, tables := [] }
     ({ tree 0 with walk := [w] } : State).walk = [w] ∧ w.prefix_ = (0x7F : Word).toNat / 2 ^ (12 + 9 * w.level) ∧ unitOf 3 0x7F = unitOf 3 0) ∧
    made (findLeaf (tree 0x5001) 3 0 0) = true ∧ (match findLeaf (tree 0) 3 0 0 with | .error (.fault .pageAbsent 0 _) => true | _ => false) = true ∧
    (∀ x ∈ [(Need.load, (⟨true, false, false, false⟩ : Perms)), (.store, ⟨false, true, false, false⟩), (.both, ⟨true, true, false, false⟩), (.fetch, ⟨false, false, true, false⟩)],
      answersOk (findLeaf (leafed 5 x.2 (frameOf .owned 3 3)) 3 0 0) (fun l => decide (l.1.perms = x.2) && decide (l.1.pa = 0x5000)) = true) ∧
    (∀ x ∈ [(frameOf .owned 3 3, true), (frameOf .lent 4 3, true), (frameOf .recalling 4 3, true), ({ frameOf .recalling 4 3 with closing := true }, false), (frameOf .owned 4 3, false), (frameOf .owned 4 4, false),
        (frameOf .scrubbing 3 3, false)],
      made (translate (leafed 5 ⟨true, true, false, false⟩ x.1) 3 0 false .load 0 false) = x.2) ∧
    ({ leafed 5 ⟨true, true, false, false⟩ (frameOf .owned 3 3) with lost := [(160, [])] } : State).lost = [(160, [])] ∧
    (∀ x ∈ [(5, Region.bonded), (0x80000000000 / 4096, .hostWindow 0), (0x200000000000 / 4096, .cxl), (0xF00000000000 / 4096, .coreWindow 0), (0xFF0000000000 / 4096, .security),
        (0xFF8000000000 / 4096, .control 0), (0x300000000000 / 4096, .unpopulated)], regionOf (4096 * x.1) = x.2) ∧
    (tabFind hosted.ext (0x5080 / 128) ≠ none) := by
  decide +kernel
/-- Exact sums, products, quotients and roots above and below zero, and at it. -/
theorem witness_FloatResults : fmtF16 ∈ [fmtF16, fmtBF16, fmtF32, fmtF64] ∧
    (let val := fun (s : Bool) (m : Nat) (e : Int) => (if s then -1 else 1 : ℝ) * m * (2 : ℝ) ^ e
     0 < val false 1 0 + val false 3 (-1) ∧ val true 3 0 + val false 1 1 < 0 ∧ val false 1 0 + val true 1 0 = 0 ∧ 0 < val true 1 0 * val true 1 0 ∧ val false 1 0 / val true 2 0 < 0 ∧
       val false 1 0 + val true 1 0 * val false 1 0 = 0 ∧ (2 : ℝ) * 2 = val false 1 2) ∧
    Fp.nan true ∈ [Fp.nan true, .inf false] ∧ Fp.nan true ∉ [Fp.nan false, .inf false] := by
  refine ⟨by simp, ?_, by simp, by simp⟩
  norm_num
/-- F16's values at the ends of its ranges, between which a magnitude falls: 1 and its successor, infinity's, zero's and the least one's bits. -/
theorem witness_RoundedOnce :
    (let g := fun (n : Nat) => if n < 2 ^ fmtF16.fb then (n : ℝ) * (2 : ℝ) ^ fmtF16.qmin
       else ((2 ^ fmtF16.fb + n % 2 ^ fmtF16.fb : Nat) : ℝ) * (2 : ℝ) ^ (fmtF16.qmin + ((n / 2 ^ fmtF16.fb : Nat) : Int) - 1)
     g 0x3C00 = 1 ∧ g 0x3C01 = 1025 / 1024 ∧ g 0x3C00 + g 0x3C01 = 2 * (2049 / 2048) ∧ g 0x7C00 ≤ 65536 ∧ g 0 = 0 ∧ 1 / 2 ^ 25 < g 1 ∧ g 1 < g (2 ^ fmtF16.fb)) ∧
    fmtF16.infBits = 0x7C00 := by
  have h1 : fmtF16.fb = 10 := rfl
  have h2 : fmtF16.qmin = -24 := rfl
  refine ⟨?_, rfl⟩
  simp only [h1, h2]
  norm_num
theorem witness_IssueTraps_ends : (looped 1 0 0).act.owed = 0 ∧ ((looped 1 0 0).act.regs.lc0 ≠ 0 ∧ (looped 1 0 0).act.pc = (looped 1 0 0).act.regs.le0) ∧
    (looped 0 1 0).act.owed = 0 ∧ ((looped 0 1 0).act.regs.lc1 ≠ 0 ∧ (looped 0 1 0).act.pc = (looped 0 1 0).act.regs.le1) ∧ (looped 0 0 2).act.owed ≠ 0 ∧ (looped 0 0 2).act.regs.lc1 = 0 := by decide +kernel
/-- The save routine of `saving`, its record's lines there, with a message of tag 15 reserved to its slot. -/
def leaving : State :=
  { withCore saving fun c => { c with store := [{ msg := msg 15, arrived := 2, slot := some 0 }] } with l2 := linesOf 3 17 }
theorem witness_SafePoints_saved : Issues .psaved leaving ∧ leaving.act.halt ≠ .step ∧ leaving.live = true ∧ leaving.act.saving = some { addr := 0x1400, n := 1, retired := 9 } ∧
    recordAddr leaving 0 0 = some 0x2000 ∧ ((reservedOf (leaving.getCore 0) 0).take 7).length = 1 ∧ (dueAtSave leaving leaving.act).isSome = false ∧
    made (writePieces leaving 3 0 0x2000 ((0, wordBytes [recordDesc leaving.act 1 true false 1 1]) ::
      ((reservedOf (leaving.getCore 0) 0).take 7).map fun m => (0x500, msgBytes m.msg.hdr m.msg.words))) = true := by
  refine ⟨issues_of (l := [.psaved]) (by decide +kernel) _ (by simp), by decide +kernel⟩
theorem witness_SafePoints_unread : (let s : State := { asked 1 1 0x3000 with l2 := [] }
     s.act.preempt ≠ none ∧ s.act.saving = none ∧ s.act.halt ≠ .step ∧ s.act.modes.getLsbD 0 = true ∧
       (match safePoint s 0 s.act 0 with | .error (.fault .pageAbsent _ _) => true | _ => false) = true) := by decide +kernel
/-- `ringJob` with an MRDACC job of the same ring accepted before it. -/
def ringQueue : State :=
  { ringJob with clusters := [(0, { ringJob.getCluster 0 with splice := [⟨0, 6, .mrdacc 1 .i32 none, { word := 0x00401717, atab := none, btab := none }, 3, false, false, .none, .none, 0, false, false⟩] })] }
theorem witness_ReeveSlots :
    (∃ j r, findReeve ringJob 0 5 = some j ∧ j.id = 5 ∧ ctlDk j.ctl = 3 ∧ j.running = false ∧ (ringJob.getCore j.core).evict = none ∧ ringJob.ports = [] ∧
      tabFind (ringJob.getCore j.core).rings (ctlRh j.ctl) = some r ∧ (∀ k ∈ (ringJob.getCluster 0).reeve ++ (ringJob.getCluster 0).reeveBack, j.serial ≤ k.serial) ∧
      (ringJob.getCluster 0).splice = [] ∧ (ringJob.getCluster 0).spliceBack = [] ∧ r.free ≠ 0) ∧
    (∃ j, findReeve ringQueue 0 5 = some j ∧ ∃ k ∈ (ringQueue.getCluster 0).splice, k.op = .mrdacc (ctlRh j.ctl) .i32 none ∧ k.core = j.core ∧ k.serial < j.serial) ∧
    (let s : State := { ringJob with ports := [(0, { Port.blank with landing := some { entry := 0, ring := some (0, 1), born := 0, slot := 0, off := 0, dropped := 0, reason := 0, part := [], lost := false, skip := 0 } })] }
     ∃ p ∈ s.ports, ∃ l, p.2.landing = some l ∧ l.ring = some (0, ctlRh ((1 <<< 48) + (3 <<< 37))) ∧ l.reason ≠ 1 ∧ l.reason ≠ 3) := by
  refine ⟨⟨_, _, rfl, rfl, rfl, rfl, rfl, rfl, rfl, by decide +kernel⟩, ⟨_, rfl, _, List.mem_singleton.mpr rfl, rfl, rfl, by decide +kernel⟩, ⟨_, List.mem_singleton.mpr rfl, _, rfl, by decide +kernel⟩⟩
/-- A running job of core 0 alone in its cluster, on a tenant whose L2 holds the line of 0x2000. -/
def copyJob (form : ReeveForm) (src dst shape ctl : Word) : ReeveJob := { reeveJob form ctl true with src := src, dst := dst, shape := shape }
def copyRun (j : ReeveJob) : State := { atSlice with clusters := [(0, { Cluster.blank with reeve := [j] })] }
theorem witness_ReeveCopies :
    (∀ j ∈ [copyJob .cpy 0x100 0x7FFC0 64 ((1 <<< 35) + (1 <<< 37)), copyJob .cpy 0x207C 0x100 4 (1 <<< 37), copyJob .cpyrd 0x2000 0x100 128 ((1 <<< 37) + (1 <<< 55)),
        copyJob .cpy 0x100 0x2000 128 (1 <<< 35), copyJob .cpy2 0x100 0x1000 0x0010000800020008 ((1 <<< 35) + (1 <<< 37)), copyJob .cpypl 0x10000 0 128 ((1 <<< 35) + (1 <<< 37) + 0x50)],
      findReeve (copyRun j) 0 5 = some j ∧ j.id = 5 ∧ ((copyRun j).getCluster 0).reeveBack = [] ∧ j.running = true ∧ j.held = false ∧ j.sent = false ∧ j.killed = false ∧ j.done = 0 ∧
        ((copyRun j).getDie (dieOf j.core)).stopped = false ∧ ctlMsg j.ctl = false ∧ clusterOf j.core = 0) ∧
    MemoryOk (copyRun (copyJob .cpy 0x100 0x7FFC0 64 ((1 <<< 35) + (1 <<< 37)))) ∧
    (∃ l, findL2 atSlice 3 (vlineOf 0x207C) = some (0x140, l) ∧ tabFind atSlice.l2 0x140 = some l ∧ l.perms.r = true ∧ l.perms.w = true ∧ l.perms.k = false) ∧ closedTo atSlice 3 0x140 = false ∧
    (0x207C : Word).toNat % 128 + 4 ≤ 128 ∧ (∀ r < 2, ∀ c < 8, ∀ q < 2, ∀ d < 8, 0x1000 + r * 0x10 + c ≠ 0x100 + q * 8 + d) ∧
    (let j := copyJob .cpy 0x100 0x2000 256 (1 <<< 35)
     (match copyLoop (copyRun j) j 0 0x2000 256 257 0 (copyRun j) with | (128, some (.fault .pageAbsent 0x2080 _), _) => true | _ => false) = true ∧ j.modes.getLsbD 2 = false) ∧
    (let j := { copyJob .cpy 0x100 0 64 (1 <<< 35) with modes := 4 }
     let s : State := { (tree 0).modDom 3 (fun d => { d with halted := true }) with clusters := [(0, { Cluster.blank with reeve := [j] })] }
     (match copyLoop s j 0 0 64 65 0 s with | (0, some (.fault .pageAbsent 0 _), u) => decide ((u.getDom 3).troot.getLsbD 0 = true) && (u.getDom 3).halted | _ => false) = true) ∧
    2 ^ 57 ≤ (copyJob .cpy 0xFFFFFFFFFFFFFF80 0x100 4 (1 <<< 37)).src.toNat ∧ (copyJob .cpyfill 0 0x104 64 ((1 <<< 37) + 3)).dst.toNat % 2 ^ 3 ≠ 0 := by
  refine ⟨by decide +kernel, ⟨by decide, by decide +kernel⟩, ⟨_, rfl, rfl, rfl, rfl, rfl⟩, by decide +kernel⟩
/-- The end of core 0's Reeve job 5 with a status, told through entry 253 or not. -/
def ending (st : Word) (n : Bool) : Unseen := { splice := false, core := 0, id := 5, dom := 3, status := st, notify := n, ep := 253, words := [5, st] }
theorem witness_JobEnds : groupHeld { filling with grants := [(3, { held3 with holds := [0] })] } 3 0 = true ∧ groupHeld filling 3 0 = false ∧ (5, 2) ∈ (filling.getCore 0).reeveTab.jobs ∧ 5 / 8192 = 0 % 8 ∧
    (3 : Word).extractLsb' 0 3 ≠ 4 ∧ (0x240004 : Word).extractLsb' 0 3 = 4 ∧ (ending 3 true).notify = true ∧ (ending 3 false).notify = false ∧
    (let s := withCore filling fun c => { c with endpoints := [(253, ent 3 7 1 2 2)] }
     (endpoint s 0 253).getLsbD 63 = true ∧ epLen (endpoint s 0 253) = (ending 3 true).words.length ∧ epPkg (endpoint s 0 253) = 0 ∧ epCore (endpoint s 0 253) < 1312 ∧ (s.getCore 0).inj = []) ∧
    (endpoint filling 0 253).getLsbD 63 = false := by decide +kernel
/-- Actor 0 whose tag 0 has one spilled message, number `n`, in its ring at 0x2000, and perhaps one of number 5 in the overflow buffer. -/
def backed (n : Nat) (o : Bool) : State :=
  { withCore tenant (fun c => { c with
      actors := [(0, { actor0 with tags := (List.range 16).map fun i => if i = 0 then { tagEnt 2 with sbase := 0x2000, tail := 1, ring := [{ msg := msg 0, arrived := n, slot := none }] } else { tagEnt 0 with present := false } })],
      ovf := if o then [{ msg := msg 0, arrived := 5, slot := none }] else [] }) with l2 := linesOf 3 1 }
theorem witness_MessageArrivals_moves :
    (let s : State := { acting with flight := [{ msg 15 with reached := false, src := 9 }, { msg 0 with reached := false }] }
     s.flight[1]? = some { msg 0 with reached := false } ∧ (∀ o ∈ s.flight.take 1, ¬ (o.reached = false ∧ o.src = (msg 0).src ∧ sameTag o (msg 0) = true)) ∧
       ∀ o ∈ s.flight.take 1, o.reached = false) ∧
    (∀ r ∈ [true, false], let s := crowded { tagEnt 2 with tail := 1 } 8 { msg 0 with reached := r }
     (TagEnt.full { tagEnt 2 with tail := 1 }) = true ∧ 8 ≤ (s.getCore 0).ovf.length ∧ isNotice { msg 0 with reached := r } = false ∧ (findTag s 0 0 0).isSome = true) ∧
    ((crowded { tagEnt 2 with tail := 1 } 7 (msg 0)).getCore 0).ovf.length < 8 ∧
    (∀ x ∈ [(7, true), (3, true), (3, false)], let s := backed x.1 x.2
     (findTag s 0 0 0).map (fun e => (e.head, e.tail, e.ring.map fun r => r.arrived)) = some (0, 1, [x.1]) ∧ storeFull (s.getCore 0) 0 = false ∧ mpopWaiters s 0 = [] ∧
       (s.getCore 0).moved = none ∧ (s.getCore 0).ovf.length = (if x.2 then 1 else 0)) ∧
    answersOk (spillRead ((backed 3 false).modCore 0 fun x => { x with moved := some 0 }) 3 (clusterOf 0) 0 0x2000 64) (fun r => decide (r.1.length = 64)) = true ∧
    (let s : State := { backed 3 false with ext := [(0x140, { host := 7, modified := false, since := none, dom := 3 })] }
     (match spillRead (s.modCore 0 fun x => { x with moved := some 0 }) 3 (clusterOf 0) 0 0x2000 64 with | .error (.wait 0x140) => true | _ => false) = true) := by decide +kernel
/-- `resuming` of one whose BKPT a debug release passed over. -/
def skipping : State := { resuming true with acts := [(5, { Act.blank with dom := 3, status := .saved true false, due := some 0, skip := true })] }
theorem witness_ActivationStarts_skip : chooseStart skipping 0 = .resume 5 ∧ (skipping.findAct 0 5).map (fun a => a.skip) = some true ∧ recordAddr skipping 0 5 = some 0x4800 ∧
    answersOk (recordReadAll skipping 3 (clusterOf 0) 0 0x4800 32) (fun r => decide ((recordWord r.1 0x490).extractLsb' 0 2 = 0) && decide (recordWord r.1 0x430 = 0) && decide (recordWord r.1 0x448 = 0)) = true := by
  decide +kernel
theorem witness_Stealing_more :
    (let s := { thief with steals := [{ thief := 0, victim := 1, answer := none }, { thief := 0, victim := 1, answer := some [] }], dies := [(0, { DieRegs.blank with stopped := true })] }
     (s.getDie (dieOf 1)).stopped = true ∧ (s.getDie (dieOf 0)).stopped = true) ∧ (thief.getDie 0).stopped = false ∧
    (let s := thief.modCore 0 fun c => { c with steal := { slot := some 63, last := 1, left := [], active := true, retry := 0 } }
     (s.getCore 0).steal.slot = some 63 ∧ (s.getCore 0).steal.left = [] ∧ startsAllowed s 0 = true) ∧
    (let s := { (thief.modDom 3 fun d => { d with halted := true }).modCore 0 (fun c => { c with
        deque := List.replicate 64 [], actors := [(15, { actor0 with steal := 1, dqbase := 0x2000, dqlog := 2 })] }) with l2 := linesOf 3 1 }
     startsAllowed s 0 = false ∧ 64 ≤ (s.getCore 0).deque.length ∧ ringCount (s.getCore 0) < ringCap s 0 ∧
       made (devWrite s 3 (clusterOf 0) 0 (ringSlotAddr s 0 (s.getCore 0).ringTail) (wordBytes ([0x4000, 0] ++ List.replicate 6 0))) = true) := by decide +kernel
theorem witness_Preemption_more :
    (let s := { running id with dies := [(0, { DieRegs.blank with stopped := true })] }
     (s.getDie (dieOf 0)).stopped = true ∧ (s.findAct 0 5).isSome = true) ∧
    ((running fun a => { a with wait := some .frameOp }).findAct 0 5).map (fun a => a.wait) = some (some .frameOp) ∧
    (let s := { running (fun a => { a with halt := .step, preempt := some { why := .evict, at_ := 0, budget := 0 } }) with grants := [(3, held3)] }
     answersOk (match s.findAct 0 5 with | some a => (.ok a : Acc Act) | none => .error (.wait 0)) (fun a => atBoundary a && decide (a.halt = .step) && decide (a.saving = none) &&
       (let told := unstepped s 0 5 a
        made (recordWriteAll told 3 (clusterOf 0) 0 0x4800 32 (recordBytes a false 0 (0, 0) (reservedOf (told.getCore 0) 5))))) = true) := by decide +kernel
theorem witness_Frames_several :
    (∀ x ∈ [(FrameState.free, FrameState.free), (.free, .owned), (.retired, .free)],
      let s := { kern with frames := [(5, frameOf x.1 255 255), (6, frameOf x.2 255 255)] }
      let q := frameReq .accept 0x100300
      frameRefused s q 2 0x5000 0x100300 = none ∧ q.count = 2 ∧
        (match frameNext s q (getFrame s 5) with | .ok _ => true | .error _ => false) = decide (x.1 = .free) ∧
        (match frameNext s q (getFrame s 6) with | .ok _ => true | .error _ => false) = decide (x.2 = .free)) := by decide +kernel
/-- Core 1 of domain 3 with a running activation in slot 5 and a parked one in slot 6, to be evicted. -/
def evicting (parked : Bool) : State :=
  { switching with acts := (64 + 5, { Act.blank with dom := 3 }) :: if parked then [(64 + 6, { Act.blank with dom := 3, status := .parked })] else [] }
theorem witness_ContextSwitch_eviction : ∀ p ∈ [true, false],
    ((evicting p).findAct 1 5).map (fun y => (y.dom, y.status, y.halt, y.wait.isNone, y.preempt.isNone)) = some (3, .running, .none, true, true) ∧
    ((evicting p).findAct 1 6).isSome = p ∧ ((evicting p).getCore 1).dom = some 3 ∧ ((evicting p).getCore 1).evict = none ∧
    answersOk (areaOk (evicting p) 3 (clusterOf 0) 0x200000 0xB0000) (fun v => decide (v.slot < 64) && decide ((v.acts.map fun x => x.1) = (evicting p).acts.map fun x => x.1) && v.mem.wf &&
      v.cores.all fun x => x.2.spad.wf) = true := by decide +kernel
theorem witness_EnergyAccounts_requests :
    (let s : State := { running id with charges := [{ dom := 3, meter := 0, eu := 5, cls := 1, at_ := 0 }] }
     FormOk s ∧ s.charges[0]? = some { dom := 3, meter := 0, eu := 5, cls := 1, at_ := 0 } ∧ (s.getDom 3).held = false ∧ (s.getDom 3).qbal.toInt - 5 < 0 ∧
       (s.findAct 0 5).map (fun y => (y.dom, y.status, y.halt)) = some (3, .running, .none)) ∧
    (let s : State := (running id).modDom 3 fun d => { d with qbal := 5 }
     0 ≤ (s.getDom 3).qbal.toInt - 5) := by
  refine ⟨⟨formOk_of (by decide +kernel), by decide +kernel⟩, by decide +kernel⟩
theorem witness_PowerAndBringUp_stopped :
    (let s : State := { running id with dies := [(0, { DieRegs.blank with temp := 104, stopped := true, stopAt := 7 })], time := 50 }
     (s.getDie 0).temp < 105 ∧ (s.getDie 0).stopped = true ∧ FormOk s ∧ (s.findAct 0 5).isSome = true ∧ dieOf 0 = 0) ∧
    (DieRegs.blank.stopped = false) := by
  refine ⟨⟨by decide +kernel, by decide +kernel, formOk_of (by decide +kernel), by decide +kernel⟩, by decide +kernel⟩
/-- Images that a stage has, and numbers of them that it has not. -/
theorem witness_BringUp_fits (f g : Firmware) :
    (([f] : List Firmware) ≠ [] ∧ ([f, g] : List Firmware).length = 2 ∧ (State.reset.log.countP fun x => decide (x.type = 1)) + [f, g].length ≤ 8) ∧
    ¬ (([] : List Firmware) ≠ []) ∧ ¬ (([f] : List Firmware).length = 2) ∧ ¬ (0 + (List.replicate 9 f).length ≤ 8) := by
  refine ⟨⟨by simp, rfl, ?_⟩, by simp, by simp, by simp⟩
  change 0 + 2 ≤ 8
  decide
/-- Function 193 trained, sixteen messages of it undelivered, and a write that stalls there. -/
def stalled : State :=
  { linked with stage := 6, flight := List.replicate 16 { msg 0 with src := hostSource 193 63 }, posted := [.ingress 193 0xFC0 64 0], inReset := false }
theorem witness_HostLink_posted : 3 ≤ stalled.stage ∧ stalled.err = 0 ∧ stalled.posted ≠ [] ∧ PostedWrite.stalls (.ingress 193 0xFC0 64 0) stalled = true ∧
    (Instr.registerWrite (.bar2 false) 8 7).isStep = true ∧ stalled.inReset = false ∧ (∃ t, step { stalled with agenda := [.event (.registerWrite (.bar2 false) 8 7)] } = .next t) ∧
    ({ stalled with posted := [] } : State).posted = [] ∧ 16 ≤ undelivered stalled 193 := by
  refine ⟨by decide +kernel, by decide +kernel, by decide +kernel, by decide +kernel, by decide, by decide, next_of (by decide +kernel), by decide +kernel⟩
theorem witness_Lanyard_markers :
    (let s := port fun p => { p with tx0 := { p.tx0 with data := 2 ^ 32 } }
     (s.getPort 11).resend = [] ∧ (s.getPort 11).sent.length < 64 ∧ 2 ^ 32 ≤ (s.getPort 11).tx0.data ∧ (s.getPort 11).marker = false ∧ (s.getPort 11).assisted = false) ∧
    (let s := port fun p => { p with resumed := [65535] }
     let f : Flit := { flit .marker 65535 0 with resync := true, iv := flitIv (s.getPort 11) false { flit .marker 65535 0 with resync := true } }
     f.lseq.toNat ∈ (s.getPort 11).resumed ∧ f.iv = flitIv (s.getPort 11) false f ∧ f.slot = (s.getPort 11).rxSlot ∧ f.lseq.toNat = (s.getPort 11).expect) ∧
    (let s := port id
     let f : Flit := { flit .marker 3 0 with resync := true, body := leBytes 8 0 ++ leBytes 8 0 ++ leBytes 8 65535 ++ List.replicate 40 0 }
     f.lseq.toNat ∉ (s.getPort 11).resumed ∧ f.lseq.toNat ≠ (s.getPort 11).expect ∧
       resyncAgrees (s.getPort 11) f = true ∧ f.iv = flitIv (s.getPort 11) false f ∧ resyncAgrees (s.getPort 11) { f with body := List.replicate 64 1 } = false) ∧
    ({ flit .data 65535 0 with last := false, ing := 254 } : Flit).last = false ∧ (tabGet 0 (port id).lanIngress (256 * 3 + 254)).getLsbD 63 = false ∧
    (∀ back : Nat, 1 ≤ back → back ≤ 32768 → 3 ≠ (65535 + 65536 - back) % 65536) := by
  refine ⟨by decide +kernel, by decide +kernel, by decide +kernel, by decide, by decide +kernel, fun back _ _ => by omega⟩
theorem witness_SpliceEngine_fills : (let s : State := { queued (.mrdacc 0 .i32 none) false with cores := [(0, { spliced.getCore 0 with rings := [(0, { desc := 0x200000000, head := 1, tail := 1, meta_ := [], born := 0 })] })] }
     (s.getCluster 0).splice.head?.map (fun j => spliceReady s j) = some true ∧ ringFillers s 0 0 = [1] ∧ portFills s 0 0 = false) ∧
    (let s := queued (.mmar 0 1) false
     (s.getCluster 0).splice.head?.map (fun j => (spliceReady s j, matrixBad s j 0 1 true)) = some (true, true)) := by decide +kernel

/-! Single steps. Expected results are worked by hand from the rule each name cites. -/

/-- Whether a step answers a next state that satisfies a test. -/
def after (x : Host.Outcome State Fault Refusal) (p : State → Bool) : Bool := match x with | .next t => p t | _ => false

/-- The state with a word placed, and the step that runs it. -/
theorem test_step_placed_add : after (step ((withS kern 0xFFFFFFFFFFFFFFFF 2 0).withFetchWord 32 0x00102181)) (fun t => decide (t.getS 3 = 1) && decide (t.act.pc = 0x1004)) = true := by
  decide +kernel
theorem test_reset_placed : after (step (State.reset.withFetchWord 32 0x0000E082)) (fun t => decide (t.act.kernel = true) && decide (t.act.dom = 2) && decide (t.act.pc = 0x1004)) = true := by
  decide +kernel
theorem test_exec_s0_discards : after (exec (.add 0 1 2) (withS tenant 5 7 0)) (fun t => decide (t.getS 0 = 0) && decide (t.act.pc = 0x1004)) = true := by decide +kernel
theorem test_exec_div_overflow : after (exec (.div 3 1 2) (withS tenant 0x8000000000000000 0xFFFFFFFFFFFFFFFF 0)) (fun t => decide (t.getS 3 = 0x8000000000000000)) = true := by decide +kernel
theorem test_exec_div_zero : after (exec (.div 3 1 2) (withS tenant 9 0 0)) (fun t => decide (t.getS 3 = 0xFFFFFFFFFFFFFFFF)) = true := by decide +kernel
theorem test_exec_rem_negative : after (exec (.rem 3 1 2) (withS tenant 0xFFFFFFFFFFFFFFF9 3 0)) (fun t => decide (t.getS 3 = 0xFFFFFFFFFFFFFFFF)) = true := by decide +kernel
theorem test_exec_sra_wide : after (exec (.sra 3 1 2) (withS tenant 0x8000000000000000 64 0)) (fun t => decide (t.getS 3 = 0xFFFFFFFFFFFFFFFF)) = true := by decide +kernel
theorem test_exec_mulhsn : after (exec (.mulhsn 3 1 2) (withS tenant 0xFFFFFFFFFFFFFFFF 0xFFFFFFFFFFFFFFFF 0)) (fun t => decide (t.getS 3 = 0xFFFFFFFFFFFFFFFF)) = true := by decide +kernel
theorem test_exec_liu : after (exec (.liu 3 0x40000) tenant) (fun t => decide (t.getS 3 = 0xFFFFFFFF80000000)) = true := by decide +kernel
theorem test_exec_branch : after (exec (.beq 1 2 (-2)) tenant) (fun t => decide (t.act.pc = 0x1004) && decide (t.act.owed = 2) && decide (t.act.btarget = 0xFF8)) = true := by decide +kernel
theorem test_exec_jr_link : after (exec (.jr 1 1 1) (withS tenant 0x2000 0 0)) (fun t => decide (t.getS 1 = 0x100C) && decide (t.act.btarget = 0x2004)) = true := by decide +kernel
theorem test_exec_loop : after (exec (.loopi false 3 2) tenant) (fun t => decide (t.act.regs.lc0 = 3) && decide (t.act.regs.ls0 = 0x1004) && decide (t.act.regs.le0 = 0x1008)) = true := by decide +kernel
theorem test_exec_loop_end : after (exec (.add 0 0 0) (looped 2 0 0)) (fun t => decide (t.act.pc = 0xFF0) && decide (t.act.regs.lc0 = 1)) = true := by decide +kernel
theorem test_exec_slot_branch : after (exec (.j 0 1) (looped 0 0 1)) (fun t => decide (t.act.regs.ecause = 3) && decide (t.act.regs.eds = 1) && decide (t.act.regs.ebt = 0x2000) && decide (t.act.status = .parked)) = true := by
  decide +kernel
theorem test_exec_privilege : after (exec (.qset 1 2 3) tenant) (fun t => decide (t.act.regs.ecause = 4) && decide (t.act.regs.epc = 0x1000)) = true := by decide +kernel
theorem test_exec_trap_message : after (exec (.trap 9) trappable) (fun t => decide (t.flight.map (fun m => (m.dom, m.core, m.actor, m.tag, m.words.take 3)) = [(2, 1, 3, 5, [0x3000038, 0x1000, 9])])) = true := by
  decide +kernel
theorem test_exec_load_signed : after (exec (.ldB 1 2 0) ((withS { hit with cores := [(0, { hit.getCore 0 with l1 := [{ lineAt 0x40 with data := lineOf 0 1 0x80 }] })] } 0 0x2000 0))) (fun t => decide (t.getS 1 = 0xFFFFFFFFFFFFFF80)) = true := by decide +kernel
theorem test_exec_store_bytes : after (exec (.stH 2 1 (-2)) (withS hit 0xABCD 0x2010 0)) (fun t => decide (l1Byte t 0 3 0x40 14 = some 0xCD) && decide (l1Byte t 0 3 0x40 15 = some 0xAB) && decide (l1Byte t 0 3 0x40 16 = some 16)) = true := by
  decide +kernel
theorem test_exec_scratchpad : after (exec (.spstW 2 1 0) (withS tenant 0x11223344 0x7FFFC 0)) (fun t => decide (spadByte t 0 0x7FFFC = 0x44) && decide (spadByte t 0 0x7FFFF = 0x11)) = true := by decide +kernel
theorem test_exec_amo : after (exec (.amoMin 1 2 3 .w .relaxed) (withS atSlice 0 0x2000 0xFFFFFFFF)) (fun t => decide (t.getS 1 = 0x03020100) && decide (homeByte t 0x140 0 = 0xFF)) = true := by decide +kernel
theorem test_exec_cas_miss : after (exec (.cas 1 2 3 .d) (withS atSlice 5 0x2000 7)) (fun t => decide (t.getS 1 = 0x0706050403020100) && decide (homeByte t 0x140 0 = 0)) = true := by decide +kernel
theorem test_exec_vadds : after (exec (.vadds 0 1 2 3) (withV tenant (quad .none 0) (quad .i8 0x80007F) (quad .i8 0xFF0001))) (fun t => decide (t.getV 1 = quad .i8 0x80007F) && decide (t.act.regs.fstat = 32)) = true := by
  decide +kernel
theorem test_exec_vshl_wide : after (exec (.vshl 0 1 2 3) (withV tenant (quad .none 0) (quad .n16 0x00010001) (quad .n16 0x0010000F))) (fun t => decide (t.getV 1 = quad .n16 0x8000)) = true := by decide +kernel
theorem test_exec_vadd_f32 : after (exec (.vadd 0 1 2 3) (withV tenant (quad .none 0) (quad .f32 0x3F800000) (quad .f32 0x33800000))) (fun t => decide (t.getV 1 = quad .f32 0x3F800000) && decide (t.act.regs.fstat = 16)) = true := by
  decide +kernel
theorem test_exec_vdiv_zero : after (exec (.vdiv 0 1 2 3) (withV tenant (quad .none 0) (quad .f64 (0x3FF0000000000000 * 2 ^ 64)) (quad .f64 (0x8000000000000000 * 2 ^ 64)))) (fun t => decide (t.getV 1 = quad .f64 (0xFFF0000000000000 * 2 ^ 64 + 0x7FF8000000000000))) = true := by
  decide +kernel
theorem test_exec_vcvt : after (exec (.vcvt 0 1 2 .i8) (withV tenant (quad .none 0) (quad .f16 0x5C00C700) (quad .none 0))) (fun t => decide (t.getV 1 = quad .i8 0x7FF9) && decide (t.act.regs.fstat = 1)) = true := by decide +kernel
theorem test_exec_tag_mismatch : after (exec (.vadd 0 1 2 3) (withV tenant (quad .none 0) (quad .i8 0) (quad .n64 0))) (fun t => decide (t.act.regs.ecause = 5) && decide (t.act.regs.eval = 0x81)) = true := by decide +kernel
theorem test_exec_pcnt : after (exec (.pcnt 1 0) tenant) (fun t => decide (t.getS 1 = 32)) = true := by decide +kernel
theorem test_exec_ring_advance : after (exec (.radvh 1 0) (ringed 0xFFFF 0)) (fun t => decide ((tabFind (t.getCore 0).rings 1).map (fun r => r.head) = some 0)) = true := by decide +kernel
theorem test_exec_ring_empty : after (exec (.rwaitf 1 1) (ringed 0xFFFF 0)) (fun t => decide (t.act.wait = some (.ring false 1 2)) && decide (t.act.pc = 0x1000)) = true := by decide +kernel
theorem test_exec_send : after (exec (.send 253 8 3) (sender.setS 8 0xAA)) (fun t => decide ((t.getCore 0).inj.map (fun o => (o.pkg, o.msg.core, o.msg.actor, o.msg.tag, o.msg.words)) = [(0, 7, 1, 2, [0xAA, 0, 0])]) && decide (epSeq (endpoint t 0 253) = 0)) = true := by
  decide +kernel
theorem test_exec_mpop : after (exec (.mpop 8 15) acting) (fun t => decide (t.getS 8 = 0x1234) && decide (t.getS 9 = 7) && decide (t.getS 11 = 0) && decide ((t.getCore 0).store.length = 1)) = true := by decide +kernel
theorem test_exec_eret : after (exec .eret (withAct tenant fun a => { a with regs := { a.regs with epc := 0x3000, eds := 1, ebt := 0x4000 } })) (fun t => decide (t.act.pc = 0x3000) && decide (t.act.owed = 1) && decide (t.act.btarget = 0x4000) && decide (t.act.regs.eds = 0)) = true := by
  decide +kernel
theorem test_exec_faccept : after (exec (.faccept 1 2 3) (withS (framed (frameOf .free 255 255)) 0 0x5000 0x300)) (fun t => decide ((getFrame t 5).state = .owned) && decide ((getFrame t 5).owner = 3) && decide ((t.getS 1).extractLsb' 0 8 = 3)) = true := by
  decide +kernel
theorem test_exec_tag_fire : after (exec (.tagFire 0 1) acting) (fun t => decide ((t.findAct 0 1).map (fun a => (a.pc, a.prio, a.actor, a.regs.s[4], a.regs.s[8])) = some (0x3000, 1, some 0, 0x1234, 7))) = true := by decide +kernel
/-- R96 R91: a walk from the level-1 table over a joined group of 16 answers one page of 64 KiB; a group with one entry that is not joined, its page of 4 KiB. -/
theorem test_walk_group : answersOk (walkFrom (tree groupLine) 3 0 0x3008 [] 1 5) (fun x => decide (x.1.pa = 0x13008) && decide (x.2.tlb.map (fun t => (t.log, t.vpn, t.ppn)) = [(16, 0, 1)])) = true ∧
    answersOk (walkFrom (tree (groupLine - 0x40 * 2 ^ 960)) 3 0 0x3008 [] 1 5) (fun x => decide (x.1.pa = 0x13008) && decide (x.2.tlb.map (fun t => (t.log, t.vpn, t.ppn)) = [(12, 3, 0x13)])) = true := by
  decide +kernel
/-- R186: a branch at the last body word of an armed loop, no slot owed, traps DELAY_SLOT (3) at itself with its word in EVAL. -/
theorem test_exec_loop_end_branch : after (exec (.beq 1 2 1) (looped 2 0 0)) (fun t => decide (t.act.regs.ecause = 3) && decide (t.act.regs.epc = 0x1000) && decide (t.act.regs.eval = (Instr.beq 1 2 1).word.zeroExtend 64)) = true := by
  decide +kernel
/-- R294: four bytes at the end of a line that L2 holds land in the scratchpad, and no other. -/
theorem test_copy_ends :
    after (exec (.reeveJobEnd 0 5) (copyRun (copyJob .cpy 0x207C 0x100 4 (1 <<< 37)))) (fun t => decide (spadByte t 0 0x100 = 0x7C) && decide (spadByte t 0 0x103 = 0x7F) && decide (spadByte t 0 0x104 = 0)) = true := by decide +kernel
/-- R287 R276: a job that ends FAILED with a message its entry no longer takes raises one JOB_ERROR with the NOTIFY bit, and reads its status. -/
theorem test_job_ends : jobStatus (jobEnded filling (ending 0x240004 true)) 0 false 5 = 0x240004 ∧ (jobEnded filling (ending 3 false)).flight = [] := by decide +kernel
/-- R343: a balance gone below zero sends QUOTA, notice 1, to domain 2, and asks the running activation to save. -/
theorem test_quota_crosses : after (exec (.chargeApply 0) { running id with charges := [{ dom := 3, meter := 0, eu := 5, cls := 1, at_ := 0 }] }) (fun t =>
    decide ((t.getDom 3).held = true) && decide ((t.getDom 3).qbal = -5) && decide (t.waiting.map (fun m => m.words.take 2) = [[1, 3]]) &&
    decide ((t.findAct 0 5).map (fun y => y.preempt.isSome) = some true)) = true := by decide +kernel
/-- R362 R400: stage 1 does not end without its image. -/
theorem test_stage_without_image : after (exec (.bringupStage 0 0 false []) { State.reset with inReset := false, stage := 1 }) (fun t => decide (t.stage = 1) && decide (t.err = 0) && decide (t.log = [])) = true := by decide +kernel
/-- R382: a later write waits behind the one that stalls; once the messages are delivered, both take effect in order. -/
theorem test_posted_order : after (step { stalled with agenda := [.event (.registerWrite (.bar2 false) 8 7)] }) (fun t => decide (t.posted.length = 2) && decide (t.plimit = 4800)) = true ∧
    after (step { stalled with flight := [], agenda := [.event (.registerWrite (.bar2 false) 8 7)] }) (fun t => decide (t.posted = []) && decide (t.plimit = 7) && decide (t.flight.length = 1)) = true := by decide +kernel
/-- A tenant whose only entry of page 0, and whose only walk-cache entry, were read through table frame 5 of domain 3. -/
def walked : State :=
  { tenant with
    frames := [(5, frameOf .owned 3 3), (9, frameOf .owned 3 3)]
    tlb := [{ unit := unitOf 3 0, dom := 3, log := 12, vpn := 0, ppn := 9, perms := ⟨true, true, false, false⟩, g := false, tables := [8, 5] }]
    walk := [{ unit := unitOf 3 0, dom := 3, level := 1, prefix_ := 0, frame := 8, tables := [5] }] }
/-- R95 R100: a frame taken from its domain takes with it the entries that were read through it as a table, and no others. -/
theorem test_table_lost : (changeFrame walked 5 (frameOf .owned 4 4)).tlb = [] ∧ (changeFrame walked 5 (frameOf .owned 4 4)).walk = [] ∧
    (changeFrame walked 7 (frameOf .owned 4 4)).tlb = walked.tlb ∧ (changeFrame walked 7 (frameOf .owned 4 4)).walk = walked.walk := by decide +kernel
/-- An outstanding read prefetch of page 0 by core 0, translated, its two table reads not yet charged. -/
def fetching (s : State) : State :=
  { withCore s fun c => { c with pending := [{ da := none, pref := some (3, 0, false, .read), walked := true, reads := [(1, 5), (2, 5)] }] } with live := false }
theorem witness_MemoryTraffic_prefetch :
    (let s := { fetching (mapped tenant) with ext := [(160, { host := 7, modified := true, since := none, dom := 3 })] }
     (s.getCore 0).pending[0]? = some { da := none, pref := some (3, 0, false, .read), walked := true, reads := [(1, 5), (2, 5)] } ∧
     (match prefetchLine (s.modCore 0 fun x => { x with pending := x.pending.eraseIdx 0 }) 0 3 false .read 0 with | .error (.wait 160) => true | _ => false) = true) ∧
    (match prefetchLine ((fetching tenant).modCore 0 fun x => { x with pending := x.pending.eraseIdx 0 }) 0 3 false .read 0 with | .error (.fault .pageAbsent 0 _) => true | _ => false) = true := by
  decide +kernel
/-- R214 R336: a prefetch whose line a host holds stays outstanding; one that fails a check goes and charges nothing; one that comes charges its walk. -/
theorem test_prefetch_answers :
    after (exec (.memoryResponse 0 0 0) { fetching (mapped tenant) with ext := [(160, { host := 7, modified := true, since := none, dom := 3 })] }) (fun t =>
      decide ((t.getCore 0).pending.length = 1) && decide (t.charges = [])) = true ∧
    after (exec (.memoryResponse 0 0 0) (fetching tenant)) (fun t => decide ((t.getCore 0).pending = []) && decide (t.charges = [])) = true ∧
    after (exec (.memoryResponse 0 0 0) (fetching (mapped tenant))) (fun t => decide ((t.getCore 0).pending = []) && decide ((t.charges.map fun x => x.cls).drop (t.charges.length - 2) = [5, 5])) = true := by
  decide +kernel
/-- R334: the walk of a prefetch reads the group of its leaf, two parts, at the controller of its table, none where L2 holds it. -/
theorem test_walk_reads : let s := { tree groupLine with walk := [{ unit := unitOf 3 0x3008, dom := 3, level := 1, prefix_ := 0, frame := 5, tables := [] }] }
    walkReads s 3 0 false .load 0x3008 = [] ∧ walkReads (writeUnder { s with l2 := [] } 3 0 160 (BitVec.ofNat 1024 groupLine)) 3 0 false .load 0x3008 = [(2, 5)] := by decide +kernel
/-- R371: a step of an activation stalled in MPOP may issue, so that it is reported; unstepped it waits. -/
theorem test_step_stalled : let s := withAct (withCore acting fun c => { c with store := [] }) fun a => { a with wait := some (.mpop 0), halt := .step }
    canIssue s = true ∧ canIssue (withAct s fun a => { a with halt := .none }) = false ∧
    after (exec (.mpop 56 0) { s with grants := [(3, held3)] }) (fun t => decide (t.act.halt = .group) && decide (t.act.wait = some (.mpop 0))) = true := by decide +kernel
theorem witness_Lanyard_resync :
    (let s := port fun p => { p with resync := true, fails := [(65535, 2)] }
     (s.getPort 11).resync = true ∧ tabGet 0 (s.getPort 11).fails 65535 = 2 ∧ ({ flit .data 65535 0 with auth := false } : Flit).auth = false) ∧
    (port id).time = 0 ∧ ((port fun p => { p with assisted := true, fresh := true }).getPort 11).fresh = true := by decide +kernel
/-- R392 R393: the third failure of an LSEQ draws RETRY and the resynchronising MARKER; with a MARKER out already, RETRY alone. -/
theorem test_third_failure (b : Bool) : after (exec (.lanyardDataFlit 11 { flit .data 65535 0 with auth := false }) (port fun p => { p with resync := b, fails := [(65535, 2)] })) (fun t =>
    decide ((t.getPort 11).out.map (fun f => f.kind) = if b then [.retry] else [.retry, .marker])) = true := by cases b <;> decide +kernel
/-- R30: a port takes its domain's mode at its training. -/
theorem test_port_mode : after (exec (.linkTrained 11 1 true) { port (fun p => { p with lstate := .training }) with doms := [(3, { Dom.blank with modes := 16 })] }) (fun t =>
    rolloverHost (t.getPort 11)) = true ∧ rolloverHost ((port id).getPort 11) = false := by decide +kernel
/-- R365: a notice may come before an earlier one to its tag; a message through an entry may not. -/
theorem test_notices_pass : let n : Msg := { msg 15 with src := 256 * 4090 + 2, reached := false }
    let m : Msg := { msg 0 with src := 253, reached := false }
    overtakes [n] n = false ∧ overtakes [m] m = true := by decide +kernel
/-- R325: an older image's entry of the same actor stays beside the new one, told apart by its block; the same block is the same entry. -/
theorem test_residents : let x : Core := { Core.blank with actors := [(2, actor0)], resident := [{ dom := 3, index := 2, block := 0x2800, actor := actor0, gone := [1] }] }
    (enterResidents x 3 0x100000).map (fun r => r.block) = [0x2800, 0x102800] ∧ (enterResidents x 3 0).map (fun r => (r.block, r.gone)) = [(0x2800, [])] := by decide +kernel
/-- A Reeve job whose port has told its end while its die's clocks stood still, or runs. -/
def told (stopped : Bool) : State :=
  { filling with clusters := [(0, { Cluster.blank with reeve := [{ reeveJob .cpy (1 <<< 39) true with sent := true, acked := 64, port := some 11, ending := some none }] })],
                 dies := [(0, { DieRegs.blank with stopped := stopped })] }
theorem witness_ReeveEngine_told : (∃ j, findReeve (told false) 0 5 = some j ∧ j.running = true ∧ j.held = false ∧ j.sent = true ∧ j.ending = some none) ∧
    ((told false).getDie 0).stopped = false ∧ ((told true).getDie 0).stopped = true := ⟨⟨_, rfl, by decide, by decide, by decide, by decide⟩, by decide +kernel⟩
/-- R405 R396: its end shows once the clocks run. -/
theorem test_told_end : after (exec (.reeveJobEnd 0 5) (told false)) (fun t => decide (jobStatus t 0 false 5 = BitVec.ofNat 64 (64 * 2 ^ 24 + 3))) = true ∧
    after (exec (.reeveJobEnd 0 5) (told true)) (fun t => decide (t = told true)) = true := by decide +kernel
/-- R276 R372: the completion message of a held job goes by its entry as it stood at the job's end, and leaves a new entry as it is. -/
theorem test_held_entry : let s := withCore tenant fun c => { c with endpoints := [(253, ent 3 1 0 0 2)] }
    let t := jobVisible s (ending 3 true) (ent 3 7 0 1 2)
    t.flight.map (fun m => (m.core, m.tag)) = [(7, 1)] ∧ endpoint t 0 253 = ent 3 1 0 0 2 := by decide +kernel
theorem witness_StepRunsDecoded_turns : goesNow coded = true ∧
    (let s := { coded with agenda := [.issue 0 0] }
     s.agenda = .issue s.core s.slot :: [] ∧ s.inReset = false ∧ canIssue { s with agenda := [] } = true) := by decide +kernel
theorem witness_TrapEntry_debugged : SlotOk { trappable with grants := [(3, held3)] } := fun _ => by decide +kernel
/-- A line of domain 3 that host 7 holds. -/
def heldLine (pl : Nat) : Tab ExtHold := [(pl, { host := 7, modified := false, since := none, dom := 3 })]
theorem witness_SafePoints_records :
    (let s := asked 0 1 0x3000
     made (recordWriteAll s 3 0 0 0x2080 32 (recordBytes s.act false 0 (0, 0) [])) = true ∧
     (match recordWriteAll { s with ext := heldLine 0x141 } 3 0 0 0x2080 32 (recordBytes s.act false 0 (0, 0) []) with | .error (.wait 0x141) => true | _ => false) = true ∧
     (match recordWriteAll { s with l2 := [] } 3 0 0 0x2080 32 (recordBytes s.act false 0 (0, 0) []) with | .error (.fault .pageAbsent _ _) => true | _ => false) = true) ∧
    recordAddr tenant 0 0 = none ∧
    (let s := asked 1 1 0x3000
     (match safePoint { s with ext := heldLine 0x140 } 0 s.act 0 with | .error (.wait 0x140) => true | _ => false) = true ∧
     (let u := { s with ext := heldLine 0x141 }
      answersOk (safePoint u 0 u.act 0) (fun r => r.1.isSome && match writePieces r.2 3 0 0x2080 (safeRecord r.2 0 0 r.2.act 0 false) with | .error (.wait 0x141) => true | _ => false) = true) ∧
     (let u := { s with l2 := s.l2.take 1 }
      answersOk (safePoint u 0 u.act 0) (fun r => r.1.isSome && match writePieces r.2 3 0 0x2080 (safeRecord r.2 0 0 r.2.act 0 false) with | .error (.fault .pageAbsent _ _) => true | _ => false) = true) ∧
     (let u := withCore s fun c => { c with actors := [] }
      recordAddr u 0 0 = none ∧ answersOk (safePoint u 0 u.act 0) (fun r => r.1.isSome) = true)) ∧
    (let w := fun (s : State) => writePieces s 3 0 0x2000 ((0, wordBytes [recordDesc s.act 1 true false 1 0]) :: [])
     (match w { leaving with ext := heldLine 0x40 } with | .ok _ => true | _ => false) = true ∧ (match w { leaving with ext := heldLine 0x140 } with | .error (.wait 0x140) => true | _ => false) = true ∧
       (match w { leaving with l2 := [] } with | .error (.fault .pageAbsent _ _) => true | _ => false) = true) ∧
    (withAct leaving fun a => { a with halt := .step }).act.halt = .step := by decide +kernel
theorem witness_SafePoints_form : FormOk (asked 0 1 0x3000) ∧ FormOk leaving := ⟨formOk_of (by decide +kernel), formOk_of (by decide +kernel)⟩
theorem witness_clocks :
    (let s := { withAct (receiving (frameOf .scrubbing 3 3) 0) (fun a => { a with wait := some .frameOp }) with dies := [(0, { DieRegs.blank with stopped := true })] }
     (s.getDie (dieOf 0)).stopped = true) ∧ ((parked 2 0).getDie (dieOf 0)).stopped = false ∧
    (({ parked 2 0 with dies := [(0, { DieRegs.blank with stopped := true })] } : State).getDie (dieOf 0)).stopped = true ∧ ((evicting true).getDie (dieOf 0)).stopped = false ∧
    (let s : State := { running (fun a => { a with preempt := some { why := .halt, at_ := 0, budget := 10 } }) with dies := [(0, { DieRegs.blank with temp := 104, stopped := true, stopAt := 7 })], time := 50 }
     s.slot < 64 ∧ (s.acts.map fun x => x.1).Pairwise (· < ·) ∧ tabFind s.acts (64 * s.core + s.slot) = none ∧ (s.findAct 0 5).map (fun y => (y.preempt, y.status, y.saving, atBoundary y)) =
       some (some { why := .halt, at_ := 0, budget := 10 }, .running, none, true) ∧ 0 + 10 ≤ s.time) ∧
    ((running id).findAct 0 5).map (fun y => y.preempt) = some none ∧ ((running id).findAct 0 0).map (fun y => y.preempt) = some none := by decide +kernel
theorem witness_Stealing_unread :
    (let s := { thief.modCore 1 (fun c => { c with ringTail := 1, actors := [(15, { actor0 with steal := 1, dqbase := 0x2000 })] }) with ext := heldLine 0x140, l2 := linesOf 3 1 }
     answersSteal s 0 1 = true ∧ (findActor s 1 15).isSome = true ∧ ringCount (s.getCore 1) ≠ 0 ∧ (s.getCore 1).deque = [[0x4000, 0]] ∧
     (match devRead s 3 (clusterOf 1) 1 (ringSlotAddr s 1 0) 64 with | .error (.wait 0x140) => true | _ => false) = true ∧
     (match devRead { s with l2 := [] } 3 (clusterOf 1) 1 (ringSlotAddr s 1 0) 64 with | .error (.fault .pageAbsent _ _) => true | _ => false) = true) := by decide +kernel
/-- R62 R74: a victim whose ring cannot be read gives its deque's oldest record. -/
theorem test_steal_unread : let s := { thief.modCore 1 (fun c => { c with ringTail := 1, actors := [(15, { actor0 with steal := 1, dqbase := 0x2000 })] }) with steals := [{ thief := 0, victim := 1, answer := none }] }
    after (exec (.stealRequest 0) s) (fun t => decide (t.steals.map (fun m => m.answer) = [some [0x4000, 0]]) && decide ((t.getCore 1).deque = [])) = true := by decide +kernel
theorem witness_MemoryTraffic_comes :
    (∀ k ∈ [PrefKind.read, .write, .l2], answersOk (prefetchLine ((fetching (mapped tenant)).modCore 0 fun x => { x with pending := x.pending.eraseIdx 0 }) 0 3 false k 0) (fun _ => true) = true) ∧
    answersOk (homePlace ((fetching (mapped tenant)).modCore 0 fun x => { x with pending := x.pending.eraseIdx 0 }) 3 (clusterOf 0) false .load 0 false)
      (fun r => isDram r.1.pa && decide (wayMask r.2 (homeOf 3 (vlineOf 0)) 3 ≠ 0)) = true ∧
    0 + 1000000 < ({ hosted with time := 1000001 } : State).time ∧ hosted.time ≤ 0 + 1000000 := by decide +kernel
theorem witness_Lanyard_slot :
    (let s := port id
     let f : Flit := { flit .marker 65535 0 with resync := true, slot := true, body := leBytes 8 0 ++ leBytes 8 0 ++ leBytes 8 65535 ++ List.replicate 40 0 }
     f.lseq.toNat ∉ (s.getPort 11).resumed ∧ f.lseq.toNat = (s.getPort 11).expect ∧ f.slot ≠ (s.getPort 11).rxSlot) := by decide +kernel
/-- An endpoint entry to a peer on port 0, whose link is down. -/
def abroad : Word := ent 3 7 1 2 2 ||| (1 <<< 44)
theorem witness_SpliceIssue_down :
    (let s := withCore spliced fun c => { c with endpoints := [(253, abroad)], splice := some { word := 0xFDC01717, atab := none, btab := none } }
     epPkg (endpoint s 0 253) ≠ 0 ∧ (s.getPort (epPkg (endpoint s 0 253) - 1)).lstate ≠ .up ∧ (endpoint s 0 253).getLsbD 63 = true ∧
     (s.getCore 0).splice.map (fun c => ((c.word.extractLsb' 24 8).toNat, c.word.getLsbD 23)) = some (253, true)) := by decide +kernel
theorem witness_ReeveCopies_high : (copyJob .cpyfill 0 0xFF00000000000004 64 3).dst.toNat % 2 ^ 3 ≠ 0 ∧ 2 ^ 57 ≤ (copyJob .cpyfill 0 0xFF00000000000004 64 3).dst.toNat ∧
    ctlDk (copyJob .cpyfill 0 0xFF00000000000004 64 3).ctl = 0 ∧ (copyJob .cpyfill 0 4 64 3).dst.toNat < 2 ^ 57 ∧ budgetOver tenant 0 tenant.act tenant.time = false := by decide +kernel
theorem witness_ActivationStarts_asks : ∀ d ∈ [true, false], chooseStart (askDue (resuming d) 0) 0 = .resume 5 ∧ ((askDue (resuming d) 0).findAct 0 5) = (resuming d).findAct 0 5 ∧
    made (recordReadAll (askDue (resuming d) 0) 3 (clusterOf 0) 0 0x4800 32) = true := by decide +kernel
/-- A table of the values 0 and 1, its NaN codes from 2. -/
def unitTable : CodeSlot := { hdr := 0x2E2, ents := [0, 0x1FC00, 0x3FE00] }
theorem witness_CodeValues : (2 : Nat) - 1 = 1 ∧ (unitTable.hdr.extractLsb' 8 8).toNat = 2 ∧ unitTable.hdr.getLsbD 7 = true ∧ unitTable.hdr.getLsbD 4 = false ∧
    unpackF fmtN19 ((unitTable.ents.getD 0 0).toNat % 2 ^ 19) = .fin false 0 (-136) ∧ unpackF fmtN19 ((unitTable.ents.getD 1 0).toNat % 2 ^ 19) = .fin false 1024 (-10) ∧
    ((0 : ℝ) * (2 : ℝ) ^ (-136 : Int) < (1024 : ℝ) * (2 : ℝ) ^ (-10 : Int)) := by
  refine ⟨rfl, by decide, by decide, by decide, by decide +kernel, by decide +kernel, by norm_num⟩
/-- R150 R153: the image of a built-in table is accepted and found encodable; an image of WIDTH 3, and one with a reserved bit in an entry, is not accepted. -/
theorem test_code_images : (match builtin 4 .c8 with | some x => decide ((slotOfImage (imageOfSlot x)).map (fun t => (t.hdr, t.enc)) = some (x.hdr, true)) | none => false) = true ∧
    slotOfImage (imageOfSlot { hdr := 3, ents := [] }) = none ∧ slotOfImage (leBytes 16 0 ++ leBytes 4 0x80000 ++ List.replicate 1020 0) = none := by decide +kernel
/-- R371 R373: a stepped SAFEPT that is dumped is reported once, as executed. -/
theorem test_step_dumped : after (exec (.safept 0) { withAct (asked 0 1 0x3000) (fun a => { a with halt := .step }) with grants := [(3, held3)] }) (fun t =>
    decide (t.waiting.length = 1) && decide (t.waiting.map (fun m => m.words.getD 3 0) = [50]) && decide ((t.findAct 0 0).map (fun a => a.status) = some (.saved true false))) = true := by decide +kernel
/-- R391 R393: a resynchronising MARKER next in order under the other slot does not authenticate. -/
theorem test_resync_slot : after (exec (.lanyardResyncMarker 11 { flit .marker 65535 0 with resync := true, slot := true, body := leBytes 8 0 ++ leBytes 8 0 ++ leBytes 8 65535 ++ List.replicate 40 0 }) (port id)) (fun t =>
    decide ((t.getPort 11).lstate = .down)) = true := by decide +kernel
/-- R74: with an empty agenda a tag that is due to fire fires. -/
theorem test_due_fires : after (step { acting with live := false }) (fun t => (t.findAct 0 0).isSome) = true := by decide +kernel
/-- R129: an acquire at CORE scope that hits its own L1 is checked by its cluster's crypto unit, though the line's home lies on another die. -/
theorem test_near_miss : missAgent true 3 0 = clusterOf 0 ∧ missAgent false 3 0 = 1000 + 16 * 3 ∧ missAgent false 0 5 = clusterOf 5 := by decide
/-- R308: an entry to a peer package names no activation here. -/
theorem test_abroad_entry : actsOf (ent 2 7 1 2 2) 7 { Act.blank with dom := 2, actor := some 1 } = true ∧ actsOf (ent 2 7 1 2 2 ||| (1 <<< 44)) 7 { Act.blank with dom := 2, actor := some 1 } = false := by decide +kernel
end Sys2Proof.Tests
end

section
/-!
The frame of the register-only scalar forms (00 R8, 13 R203): what the retirement of a word and the write of a scalar
register each keep, by what a reader of the state sees of it.
-/
namespace Sys2Proof.Machine

namespace State

@[simp] theorem setS_halt (s : State) (r : SReg) (w : Word) : (s.setS r w).act.halt = s.act.halt := by
  unfold setS; split <;> rfl

/-- Of the activation's registers a scalar write changes the scalar ones alone. -/
theorem setS_regs (s : State) (r : SReg) (w : Word) :
    (s.setS r w).act.regs = { s.act.regs with s := (s.setS r w).act.regs.s } := by
  unfold setS; split <;> rfl

theorem getS_setS_self (s : State) (r : SReg) (w : Word) : (s.setS r w).getS r = if r = 0 then 0 else w := by
  by_cases h : r = 0
  · subst h; rfl
  · rw [getS_setS, if_pos ⟨rfl, h⟩, if_neg h]

theorem getS_setS_of_ne (s : State) {r q : SReg} (w : Word) (h : q ≠ r) : (s.setS r w).getS q = s.getS q := by
  rw [getS_setS, if_neg fun e => h e.1]

end State

section
variable {s t : State}

/-- What an L2 line unseals to rests on the generation of its key alone. -/
theorem l2Data_congr (hd : t.doms = s.doms) : l2Data t = l2Data s := by
  funext pl l
  unfold l2Data unsealLine State.getDom
  rw [hd]

/-- A byte at its home slice is read from memory, L2 and the generation of its domain's key. -/
theorem homeByte_congr (hm : t.mem = s.mem) (hl : t.l2 = s.l2) (hd : t.doms = s.doms) (pl i : Nat) :
    homeByte t pl i = homeByte s pl i := by
  unfold homeByte
  rw [hm, hl, l2Data_congr hd]

theorem l1Byte_congr (hc : t.cores = s.cores) (c d vl i : Nat) : l1Byte t c d vl i = l1Byte s c d vl i := by
  simp only [l1Byte, findL1, State.getCore, hc]

theorem spadByte_congr (hc : t.cores = s.cores) (c o : Nat) : spadByte t c o = spadByte s c o := by
  simp only [spadByte, State.getCore, hc]

end

/-- Of the registers, advancing past a word changes LC0 and LC1 alone (11 R189). -/
theorem advance_regs (a : Act) (f : Flow) :
    (advance a f).regs = { a.regs with lc0 := (advance a f).regs.lc0, lc1 := (advance a f).regs.lc1 } := by
  cases f with
  | resume p k b =>
    simp only [advance]
    repeat' split
    all_goals rfl
  | seq | goto | branch =>
    simp only [advance]
    repeat' split
    all_goals exact loopCheck_regs a.regs a.pc

/-- A word that no debug command steps retires, and nothing more. -/
theorem complete_retires (w : IWord) {u : State} (f : Flow) (ts : List Term) (h : u.act.halt ≠ .step) :
    Retires u f (complete w u f ts) := by
  rw [complete, if_neg h]
  exact retireWord_retires w u f ts

theorem Completes.retires {i : Instr} {s t u : State} {f : Flow} {ts : List Term} (hc : Completes i s u f ts)
    (he : exec i s = .next t) (hs : u.act.halt ≠ .step) : Retires u f t := by
  have ht : complete i.word u f ts = t := Host.Outcome.next.inj (hc.symm.trans he)
  exact ht ▸ complete_retires i.word f ts hs

namespace Retires
variable {u t : State} {f : Flow}

theorem regs (h : Retires u f t) :
    t.act.regs = { u.act.regs with lc0 := t.act.regs.lc0, lc1 := t.act.regs.lc1 } := by
  have ha : t.act.regs = (advance u.act f).regs := by rw [h.act]
  rw [ha]
  exact advance_regs u.act f

theorem getS (h : Retires u f t) (r : SReg) : t.getS r = u.getS r := by
  unfold State.getS; rw [h.regs]

theorem getV (h : Retires u f t) (r : VNum) : t.getV r = u.getV r := by
  unfold State.getV; rw [h.regs]

theorem getP (h : Retires u f t) (r : PNum) : t.getP r = u.getP r := by
  unfold State.getP; rw [h.regs]

theorem mem (h : Retires u f t) : t.mem = u.mem := by rw [h.rest]
theorem l2 (h : Retires u f t) : t.l2 = u.l2 := by rw [h.rest]
theorem doms (h : Retires u f t) : t.doms = u.doms := by rw [h.rest]
theorem cores (h : Retires u f t) : t.cores = u.cores := by rw [h.rest]

end Retires

/-- A scalar write followed by its word's retirement changes the scalar registers, LC0 and LC1 alone. -/
theorem Retires.regs_setS {s t : State} {d : SReg} {v : Word} {f : Flow} (h : Retires (s.setS d v) f t) :
    t.act.regs = { s.act.regs with s := t.act.regs.s, lc0 := t.act.regs.lc0, lc1 := t.act.regs.lc1 } := by
  have hs : t.act.regs.s = (s.setS d v).act.regs.s := by rw [h.regs]
  rw [hs]
  exact h.regs.trans (by rw [State.setS_regs])

/-- Settles O10: the word retires on the state with s[d] written, and the frame of the write and that of the retirement
compose. -/
theorem registerFormFrame : Obligations.RegisterFormFrame := by
  unfold Obligations.RegisterFormFrame
  intro i d s t _ v hc he hs
  have hr : Retires (s.setS d v) .seq t := hc.retires he (by rwa [State.setS_halt])
  have hmem : t.mem = s.mem := hr.mem.trans (State.setS_mem ..)
  have hl2 : t.l2 = s.l2 := hr.l2.trans (State.setS_l2 ..)
  have hdoms : t.doms = s.doms := hr.doms.trans (State.setS_doms ..)
  have hcores : t.cores = s.cores := hr.cores.trans (State.setS_cores ..)
  refine ⟨?_, fun r hne => ?_, fun r => ?_, fun r => ?_, hr.regs_setS, homeByte_congr hmem hl2 hdoms,
    l1Byte_congr hcores, spadByte_congr hcores, hmem⟩
  · rw [hr.getS, State.getS_setS_self]
  · rw [hr.getS, State.getS_setS_of_ne s v hne]
  · rw [hr.getV, State.getV_setS]
  · rw [hr.getP, State.getP_setS]

end Sys2Proof.Machine
end

section
/-!
The job-starting Reeve instructions (19 R289 R290): their tests in groups, what each group answers, and the state that an
accepted job leaves.
-/
namespace Sys2Proof.Machine

section
variable {l m : List (Option TrapVal)} {c : Cause} {v : Word} {f : Unit → Eff}

@[simp] theorem firstTrap_nil : firstTrap [] = none := rfl
@[simp] theorem firstTrap_none_cons : firstTrap (none :: l) = firstTrap l := rfl
@[simp] theorem firstTrap_some_cons (t : TrapVal) : firstTrap (some t :: l) = some t := rfl

/-- A test in front of others answers first. -/
theorem firstTrap_cons (t : Option TrapVal) : firstTrap (t :: l) = t.or (firstTrap l) := by
  cases t <;> rfl

theorem firstTrap_append : firstTrap (l ++ m) = (firstTrap l).or (firstTrap m) := by
  induction l with
  | nil => simp
  | cons t r ih => simp only [List.cons_append, firstTrap_cons, ih, Option.or_assoc]

/-- An engine's guard tests in order as any other. -/
theorem engineGuard_eq_guarded : engineGuard l f = guarded l f := by
  induction l with
  | nil => rfl
  | cons t r ih =>
    cases t with
    | none => exact ih
    | some t => rfl

theorem engineGuard_trap (h : firstTrap l = some (c, v)) : engineGuard l f = .trap c v := by
  rw [engineGuard_eq_guarded, guarded, h]

theorem engineGuard_pass (h : firstTrap l = none) : engineGuard l f = f () := by
  rw [engineGuard_eq_guarded, guarded, h]

@[simp] theorem operandTrap_true (n : Nat) : operandTrap true n = some (.engineOperand, BitVec.ofNat 64 n) := rfl
@[simp] theorem operandTrap_false (n : Nat) : operandTrap false n = none := rfl

end

/-! The fields of the control word, as numbers below their bounds. -/

theorem bitsOf_lt (w : Word) (hi lo : Nat) : bitsOf w hi lo < 2 ^ (hi + 1 - lo) :=
  Nat.mod_lt _ (Nat.two_pow_pos _)

theorem ctlNep_lt (w : Word) : ctlNep w < 256 := bitsOf_lt w 63 56
theorem ctlMep_lt (w : Word) : ctlMep w < 256 := bitsOf_lt w 47 40

theorem toNat_ofNat_ctlRh (w : Word) : (BitVec.ofNat 4 (ctlRh w)).toNat = ctlRh w :=
  (BitVec.toNat_ofNat ..).trans (Nat.mod_eq_of_lt (bitsOf_lt w 51 48))

/-! The endpoint tests. -/

/-- A message can leave through an entry: it is valid, and no link it names is down (21 R305, 29 R394). -/
def Sendable (s : State) (e : Word) : Prop :=
  e.getLsbD 63 = true ∧ ¬ (epPkg e ≠ 0 ∧ (s.getPort (epPkg e - 1)).lstate ≠ .up)

theorem sendable_iff (s : State) (e : Word) : Sendable s e ↔ epValid e = true ∧ portDown s e = false := by
  simp [Sendable, epValid, portDown]

theorem not_sendable_iff (s : State) (e : Word) :
    ¬ Sendable s e ↔ e.getLsbD 63 = false ∨ (epPkg e ≠ 0 ∧ (s.getPort (epPkg e - 1)).lstate ≠ .up) := by
  rw [Sendable, not_and_or, not_not, Bool.not_eq_true]

/-- The test that both endpoint tests make of an entry in use. -/
theorem unsendable_iff (s : State) (e : Word) : (!epValid e || portDown s e) = true ↔ ¬ Sendable s e := by
  rw [sendable_iff, Bool.or_eq_true, not_and_or, Bool.not_eq_true', Bool.not_eq_true, Bool.not_eq_false]

theorem reservedEp_of_le {i : Nat} (hlt : i < 256) (h : 254 ≤ i) : reservedEp i = some (.endpoint, BitVec.ofNat 64 i) := by
  have ht : trapEndpoint i = true := by simp only [trapEndpoint, Bool.or_eq_true, decide_eq_true_eq]; omega
  rw [reservedEp, if_pos ht]

theorem trapEndpoint_of_lt {i : Nat} (h : i < 254) : trapEndpoint i = false := by
  simp only [trapEndpoint, Bool.or_eq_false_iff, decide_eq_false_iff_not]; omega

theorem reservedEp_of_lt {i : Nat} (h : i < 254) : reservedEp i = none := by
  rw [reservedEp, trapEndpoint_of_lt h]; rfl

/-- EVAL of MSG_TYPE as one number (11 R184). -/
theorem msgTypeEval_eq {i len n : Nat} (hi : i < 2 ^ 8) (hl : len < 2 ^ 3) :
    msgTypeEval i len n = BitVec.ofNat 64 (i + 2 ^ 8 * len + 2 ^ 11 * n) := by
  have h1 : i ||| len <<< 8 = i + 2 ^ 8 * len := by
    rw [Nat.or_comm, ← Nat.shiftLeft_add_eq_or_of_lt hi, Nat.shiftLeft_eq]; omega
  have h2 : (i + 2 ^ 8 * len) ||| n <<< 11 = i + 2 ^ 8 * len + 2 ^ 11 * n := by
    rw [Nat.or_comm, ← Nat.shiftLeft_add_eq_or_of_lt (show i + 2 ^ 8 * len < 2 ^ 11 by omega), Nat.shiftLeft_eq]; omega
  rw [msgTypeEval, at_, at_, at_, ← BitVec.ofNat_or, ← BitVec.ofNat_or, Nat.shiftLeft_zero, h1, h2]

theorem epLen_lt (e : Word) : epLen e < 2 ^ 3 := bitsOf_lt e 23 21

section
variable {s : State} {ep len : Nat}

theorem notifyTrap_unused : notifyTrap s false ep len = none := rfl

theorem notifyTrap_endpoint (hlt : ep < 254) (h : ¬ Sendable s (endpoint s s.core ep)) :
    notifyTrap s true ep len = some (.endpoint, BitVec.ofNat 64 ep) := by
  simp [notifyTrap, trapEndpoint_of_lt hlt, (unsendable_iff s _).mpr h]

theorem notifyTrap_of_sendable (hlt : ep < 254) (h : Sendable s (endpoint s s.core ep)) :
    notifyTrap s true ep len = if epLen (endpoint s s.core ep) = len then none
      else some (.msgType, BitVec.ofNat 64 (ep + 2 ^ 8 * epLen (endpoint s s.core ep) + 2 ^ 11 * len)) := by
  obtain ⟨hv, hd⟩ := (sendable_iff s _).mp h
  simp [notifyTrap, trapEndpoint_of_lt hlt, hv, hd, msgTypeEval_eq (show ep < 2 ^ 8 by omega) (epLen_lt _)]

end

/-! The tests of a job-starting Reeve instruction, in the groups that the spec names. -/

/-- The tests of the operand words alone. -/
def operandTests (f : ReeveForm) (dst shape ctl : Word) : List (Option TrapVal) :=
  [operandTrap (copyReserved f shape ctl) 4, operandTrap (copyUndefined f ctl) 5, operandTrap (copyLength f shape ctl) 7,
   operandTrap (copyKinds f dst ctl) 8]

/-- The tests of the completion's entry. -/
def nepTests (s : State) (f : ReeveForm) (ctl : Word) : List (Option TrapVal) :=
  [reservedEp (ctlNep ctl), notifyTrap s (ctlNotify ctl) (ctlNep ctl) (completionLen f)]

/-- The tests of the message's entry. -/
def mepTests (s : State) (ctl : Word) : List (Option TrapVal) := [reservedEp (ctlMep ctl), mepTrap s ctl]

/-- The tests of the places that the job reads and writes on its core. -/
def placeTests (s : State) (f : ReeveForm) (src dst shape ctl : Word) : List (Option TrapVal) :=
  [if ctlDk ctl = 3 then ringTrap s (BitVec.ofNat 4 (ctlRh ctl)) else none,
   spadRangeTrap s.core (decide (f ≠ .cpyfill) && decide (ctlSk ctl = 1)) src (copySpans f shape ctl).1,
   spadRangeTrap s.core (decide (ctlDk ctl = 1)) dst (copySpans f shape ctl).2,
   operandTrap (decide (ctlDk ctl = 3) && decide (slotBytesOf s (BitVec.ofNat 4 (ctlRh ctl)) < copySize f shape ctl)) 3]

/-- All the tests, in their order. -/
def copyTests (s : State) (f : ReeveForm) (src dst shape ctl : Word) : List (Option TrapVal) :=
  operandTests f dst shape ctl ++ (nepTests s f ctl ++ (mepTests s ctl ++ placeTests s f src dst shape ctl))

/-- An operand word: s[4g + k]. -/
def copyWord (s : State) (g : BitVec 4) (k : Nat) : Word := s.getS (BitVec.ofNat 6 (4 * g.toNat + k))

/-- The instruction accepts its job once its tests pass. -/
theorem copyOp_eq (i : Instr) (s : State) (d : SReg) (g : BitVec 4) (f : ReeveForm) :
    copyOp i s d g f = issue i s fun s =>
      engineGuard (copyTests s f (copyWord s g 0) (copyWord s g 1) (copyWord s g 2) (copyWord s g 3)) fun _ =>
        reeveAccept s d f (copyWord s g 0) (copyWord s g 1) (copyWord s g 2) (copyWord s g 3) := rfl

/-- The operand words pass their own tests. -/
def OperandsOk (f : ReeveForm) (dst shape ctl : Word) : Prop :=
  copyReserved f shape ctl = false ∧ copyUndefined f ctl = false ∧ copyLength f shape ctl = false ∧
    copyKinds f dst ctl = false

/-- The completion's entry can carry it. -/
def NepOk (s : State) (f : ReeveForm) (ctl : Word) : Prop :=
  ctlNep ctl < 254 ∧ (ctlNotify ctl = true → Sendable s (endpoint s s.core (ctlNep ctl)) ∧
    epLen (endpoint s s.core (ctlNep ctl)) = completionLen f)

/-- The message's entry can carry it. -/
def MepOk (s : State) (ctl : Word) : Prop :=
  ctlMep ctl < 254 ∧ (ctlMsg ctl = true → Sendable s (endpoint s s.core (ctlMep ctl)))

/-- The ring that the job fills is defined. -/
def RingOk (s : State) (ctl : Word) : Prop := ctlDk ctl = 3 → findRing s s.core (ctlRh ctl) ≠ none

/-- A source in the scratchpad lies in it. -/
def SourceOk (s : State) (f : ReeveForm) (src shape ctl : Word) : Prop :=
  ctlSk ctl = 1 → f ≠ .cpyfill → (copySpans f shape ctl).1 ≠ 0 →
    src.toNat + (copySpans f shape ctl).1 ≤ spadSize s.core

/-- A destination in the scratchpad lies in it. -/
def DestOk (s : State) (f : ReeveForm) (dst shape ctl : Word) : Prop :=
  ctlDk ctl = 1 → (copySpans f shape ctl).2 ≠ 0 → dst.toNat + (copySpans f shape ctl).2 ≤ spadSize s.core

/-- What the job lands fits a slot of its ring. -/
def SlotFits (s : State) (f : ReeveForm) (shape ctl : Word) : Prop :=
  ∀ r, ctlDk ctl = 3 → findRing s s.core (ctlRh ctl) = some r → copySize f shape ctl ≤ r.slotBytes

section
variable {s : State} {f : ReeveForm} {src dst shape ctl : Word}

theorem operandTests_reserved (hres : copyReserved f shape ctl = true) :
    firstTrap (operandTests f dst shape ctl) = some (.engineOperand, 4) := by
  rw [operandTests, hres]; rfl

theorem operandTests_undefined (hres : copyReserved f shape ctl = false) (hund : copyUndefined f ctl = true) :
    firstTrap (operandTests f dst shape ctl) = some (.engineOperand, 5) := by
  rw [operandTests, hres, hund]; rfl

theorem operandTests_length (hres : copyReserved f shape ctl = false) (hund : copyUndefined f ctl = false)
    (hlen : copyLength f shape ctl = true) : firstTrap (operandTests f dst shape ctl) = some (.engineOperand, 7) := by
  rw [operandTests, hres, hund, hlen]; rfl

theorem operandTests_kinds (hres : copyReserved f shape ctl = false) (hund : copyUndefined f ctl = false)
    (hlen : copyLength f shape ctl = false) (hk : copyKinds f dst ctl = true) :
    firstTrap (operandTests f dst shape ctl) = some (.engineOperand, 8) := by
  rw [operandTests, hres, hund, hlen, hk]; rfl

theorem operandTests_pass (h : OperandsOk f dst shape ctl) : firstTrap (operandTests f dst shape ctl) = none := by
  obtain ⟨hres, hund, hlen, hkinds⟩ := h
  rw [operandTests, hres, hund, hlen, hkinds]; rfl

theorem nepTests_endpoint (h : 254 ≤ ctlNep ctl ∨ (ctlNotify ctl = true ∧ ¬ Sendable s (endpoint s s.core (ctlNep ctl)))) :
    firstTrap (nepTests s f ctl) = some (.endpoint, BitVec.ofNat 64 (ctlNep ctl)) := by
  rcases Nat.lt_or_ge (ctlNep ctl) 254 with hlt | hge
  · obtain ⟨hn, hs⟩ := h.resolve_left (by omega)
    simp [nepTests, reservedEp_of_lt hlt, hn, notifyTrap_endpoint hlt hs]
  · simp [nepTests, reservedEp_of_le (ctlNep_lt ctl) hge]

theorem nepTests_msgType (hlt : ctlNep ctl < 254) (hn : ctlNotify ctl = true)
    (hs : Sendable s (endpoint s s.core (ctlNep ctl))) (hl : epLen (endpoint s s.core (ctlNep ctl)) ≠ completionLen f) :
    firstTrap (nepTests s f ctl) = some (.msgType, BitVec.ofNat 64
      (ctlNep ctl + 2 ^ 8 * epLen (endpoint s s.core (ctlNep ctl)) + 2 ^ 11 * completionLen f)) := by
  rw [nepTests, reservedEp_of_lt hlt, hn, notifyTrap_of_sendable hlt hs, if_neg hl]
  rfl

theorem nepTests_pass (h : NepOk s f ctl) : firstTrap (nepTests s f ctl) = none := by
  obtain ⟨hlt, hn⟩ := h
  rw [nepTests, reservedEp_of_lt hlt]
  cases hc : ctlNotify ctl with
  | false => rfl
  | true =>
    obtain ⟨hs, hl⟩ := hn hc
    rw [notifyTrap_of_sendable hlt hs, if_pos hl]
    rfl

theorem mepTests_endpoint (h : 254 ≤ ctlMep ctl ∨ (ctlMsg ctl = true ∧ ¬ Sendable s (endpoint s s.core (ctlMep ctl)))) :
    firstTrap (mepTests s ctl) = some (.endpoint, BitVec.ofNat 64 (ctlMep ctl)) := by
  rcases Nat.lt_or_ge (ctlMep ctl) 254 with hlt | hge
  · obtain ⟨hm, hs⟩ := h.resolve_left (by omega)
    simp [mepTests, reservedEp_of_lt hlt, mepTrap, hm, (unsendable_iff s _).mpr hs]
  · simp [mepTests, reservedEp_of_le (ctlMep_lt ctl) hge]

theorem mepTests_pass (h : MepOk s ctl) : firstTrap (mepTests s ctl) = none := by
  obtain ⟨hlt, hm⟩ := h
  rw [mepTests, reservedEp_of_lt hlt, mepTrap]
  cases hc : ctlMsg ctl with
  | false => rfl
  | true =>
    have hs : ¬ (!epValid (endpoint s s.core (ctlMep ctl)) || portDown s (endpoint s s.core (ctlMep ctl))) = true :=
      fun hu => (unsendable_iff s _).mp hu (hm hc)
    rw [Bool.true_and, if_neg hs]
    rfl

theorem ringTrap_ctlRh (s : State) (ctl : Word) : ringTrap s (BitVec.ofNat 4 (ctlRh ctl)) =
    if findRing s s.core (ctlRh ctl) = none then some (.ring, BitVec.ofNat 64 (ctlRh ctl)) else none := by
  have hv : (BitVec.ofNat 4 (ctlRh ctl)).setWidth 64 = BitVec.ofNat 64 (ctlRh ctl) := by
    apply BitVec.eq_of_toNat_eq
    rw [BitVec.toNat_setWidth, toNat_ofNat_ctlRh, BitVec.toNat_ofNat]
  simp only [ringTrap, toNat_ofNat_ctlRh, hv, Option.isNone_iff_eq_none]

/-- A range is tested where its place is in use and it is not empty (19 R290). -/
theorem spadRangeTrap_eq (c : Nat) (used : Bool) (o : Word) (n : Nat) : spadRangeTrap c used o n =
    if used = true → n ≠ 0 → o.toNat + n ≤ spadSize c then none else some (.window, o) := by
  have hb : (used && decide (n ≠ 0) && decide (spadSize c < o.toNat + n)) = true ↔
      ¬ (used = true → n ≠ 0 → o.toNat + n ≤ spadSize c) := by
    simp only [Bool.and_eq_true, decide_eq_true_eq, Classical.not_imp, and_assoc, Nat.not_le]
  rw [spadRangeTrap]
  simp only [hb, ite_not]

theorem spadRangeTrap_pass {c : Nat} {used : Bool} {o : Word} {n : Nat}
    (h : used = true → n ≠ 0 → o.toNat + n ≤ spadSize c) : spadRangeTrap c used o n = none := by
  rw [spadRangeTrap_eq, if_pos h]

theorem spadRangeTrap_window {c : Nat} {used : Bool} {o : Word} {n : Nat}
    (h : ¬ (used = true → n ≠ 0 → o.toNat + n ≤ spadSize c)) : spadRangeTrap c used o n = some (.window, o) := by
  rw [spadRangeTrap_eq, if_neg h]

theorem sourceOk_iff : ((decide (f ≠ .cpyfill) && decide (ctlSk ctl = 1)) = true → (copySpans f shape ctl).1 ≠ 0 →
    src.toNat + (copySpans f shape ctl).1 ≤ spadSize s.core) ↔ SourceOk s f src shape ctl := by
  rw [SourceOk, Bool.and_eq_true, decide_eq_true_eq, decide_eq_true_eq, and_imp]
  exact ⟨fun h hsk hf => h hf hsk, fun h hf hsk => h hsk hf⟩

theorem destOk_iff : (decide (ctlDk ctl = 1) = true → (copySpans f shape ctl).2 ≠ 0 →
    dst.toNat + (copySpans f shape ctl).2 ≤ spadSize s.core) ↔ DestOk s f dst shape ctl := by
  rw [DestOk, decide_eq_true_eq]

theorem slotBytesOf_ctlRh {r : Ring} (h : findRing s s.core (ctlRh ctl) = some r) :
    slotBytesOf s (BitVec.ofNat 4 (ctlRh ctl)) = r.slotBytes := by
  rw [slotBytesOf, toNat_ofNat_ctlRh, h]; rfl

/-- With the ring defined, the slot test is of the ring's own slots. -/
theorem slotTest_iff (h : RingOk s ctl) : (decide (ctlDk ctl = 3) &&
    decide (slotBytesOf s (BitVec.ofNat 4 (ctlRh ctl)) < copySize f shape ctl)) = false ↔ SlotFits s f shape ctl := by
  by_cases hk : ctlDk ctl = 3
  · obtain ⟨r, hr⟩ := Option.ne_none_iff_exists'.mp (h hk)
    simp [SlotFits, hk, hr, slotBytesOf_ctlRh hr]
  · simp [SlotFits, hk]

theorem ringTest_pass (h : RingOk s ctl) :
    (if ctlDk ctl = 3 then ringTrap s (BitVec.ofNat 4 (ctlRh ctl)) else none) = none := by
  split
  · next hk => rw [ringTrap_ctlRh, if_neg (h hk)]
  · rfl

theorem placeTests_ring (hk : ctlDk ctl = 3) (hf : findRing s s.core (ctlRh ctl) = none) :
    firstTrap (placeTests s f src dst shape ctl) = some (.ring, BitVec.ofNat 64 (ctlRh ctl)) := by
  rw [placeTests, if_pos hk, ringTrap_ctlRh, if_pos hf, firstTrap_some_cons]

section
variable (hr : RingOk s ctl)
include hr

theorem placeTests_source (hs : ¬ SourceOk s f src shape ctl) :
    firstTrap (placeTests s f src dst shape ctl) = some (.window, src) := by
  rw [placeTests, ringTest_pass hr, firstTrap_none_cons, spadRangeTrap_window (mt sourceOk_iff.mp hs), firstTrap_some_cons]

variable (hs : SourceOk s f src shape ctl)
include hs

theorem placeTests_dest (hd : ¬ DestOk s f dst shape ctl) :
    firstTrap (placeTests s f src dst shape ctl) = some (.window, dst) := by
  rw [placeTests, ringTest_pass hr, firstTrap_none_cons, spadRangeTrap_pass (sourceOk_iff.mpr hs), firstTrap_none_cons,
    spadRangeTrap_window (mt destOk_iff.mp hd), firstTrap_some_cons]

variable (hd : DestOk s f dst shape ctl)
include hd

/-- Past the ring and the scratchpad's ranges the slot's size is what is left to test. -/
theorem placeTests_slotTest : firstTrap (placeTests s f src dst shape ctl) =
    operandTrap (decide (ctlDk ctl = 3) && decide (slotBytesOf s (BitVec.ofNat 4 (ctlRh ctl)) < copySize f shape ctl)) 3 := by
  rw [placeTests, ringTest_pass hr, firstTrap_none_cons, spadRangeTrap_pass (sourceOk_iff.mpr hs), firstTrap_none_cons,
    spadRangeTrap_pass (destOk_iff.mpr hd), firstTrap_none_cons, firstTrap_cons, firstTrap_nil, Option.or_none]

theorem placeTests_slot (hf : ¬ SlotFits s f shape ctl) :
    firstTrap (placeTests s f src dst shape ctl) = some (.engineOperand, 3) := by
  rw [placeTests_slotTest hr hs hd, Bool.eq_true_of_not_eq_false (mt (slotTest_iff hr).mp hf)]; rfl

theorem placeTests_pass (hf : SlotFits s f shape ctl) : firstTrap (placeTests s f src dst shape ctl) = none := by
  rw [placeTests_slotTest hr hs hd, (slotTest_iff hr).mpr hf, operandTrap_false]

end

/-! The groups in their order: the first that traps answers. -/

theorem copyTests_operands {t : TrapVal} (h : firstTrap (operandTests f dst shape ctl) = some t) :
    firstTrap (copyTests s f src dst shape ctl) = some t := by
  rw [copyTests, firstTrap_append, h, Option.some_or]

section
variable (ho : OperandsOk f dst shape ctl)
include ho

theorem copyTests_nep {t : TrapVal} (h : firstTrap (nepTests s f ctl) = some t) :
    firstTrap (copyTests s f src dst shape ctl) = some t := by
  rw [copyTests, firstTrap_append, operandTests_pass ho, Option.none_or, firstTrap_append, h, Option.some_or]

variable (hn : NepOk s f ctl)
include hn

theorem copyTests_mep {t : TrapVal} (h : firstTrap (mepTests s ctl) = some t) :
    firstTrap (copyTests s f src dst shape ctl) = some t := by
  rw [copyTests, firstTrap_append, operandTests_pass ho, Option.none_or, firstTrap_append, nepTests_pass hn, Option.none_or,
    firstTrap_append, h, Option.some_or]

/-- Past the endpoints the places on the core are what is left to test. -/
theorem copyTests_places (hm : MepOk s ctl) :
    firstTrap (copyTests s f src dst shape ctl) = firstTrap (placeTests s f src dst shape ctl) := by
  rw [copyTests, firstTrap_append, operandTests_pass ho, Option.none_or, firstTrap_append, nepTests_pass hn, Option.none_or,
    firstTrap_append, mepTests_pass hm, Option.none_or]

end

end

/-! An accepted job. -/

theorem setS_getCluster (s : State) (r : SReg) (w : Word) (g : Nat) : (s.setS r w).getCluster g = s.getCluster g := by
  simp only [State.getCluster, State.setS_clusters]

theorem setS_getCore (s : State) (r : SReg) (w : Word) (c : Nat) : (s.setS r w).getCore c = s.getCore c := by
  simp only [State.getCore, State.setS_cores]

/-- The id that the next job gets does not rest on what an access changes. -/
theorem nextJobId_access {s t : State} (h : AccessOnly s t) (c : Nat) (b : Bool) : nextJobId t c b = nextJobId s c b := by
  simp only [nextJobId, jobTable]
  rw [h.core c]

theorem nextJobId_lt (s : State) (c : Nat) (b : Bool) : nextJobId s c b < 2 ^ 16 := by
  unfold nextJobId coreInCluster; omega

theorem jobTable_putJobTable (x : Core) (b : Bool) (t : JobTable) : jobTable (putJobTable x b t) b = t := by
  cases b <;> rfl

/-- A job's status rests on its core's table alone. -/
theorem jobStatus_congr {s t : State} {c : Nat} {b : Bool} (h : jobTable (t.getCore c) b = jobTable (s.getCore c) b) (w : Word) :
    jobStatus t c b w = jobStatus s c b w := by
  simp only [jobStatus, h]

/-- The id just accepted reads the state it entered the table with (19 R274 R287). -/
theorem jobStatus_tableAccept (s : State) (c : Nat) (b : Bool) (st : Nat) :
    jobStatus (tableAccept s c b st) c b (BitVec.ofNat 64 (nextJobId s c b)) = statusWord 0 0 false st := by
  have hlt := nextJobId_lt s c b
  have hid : bitsOf (BitVec.ofNat 64 (nextJobId s c b)) 15 0 = nextJobId s c b := by
    simp only [bitsOf, BitVec.toNat_ofNat, Nat.shiftRight_zero]; omega
  have hhigh : bitsOf (BitVec.ofNat 64 (nextJobId s c b)) 63 16 = 0 := by
    simp only [bitsOf, BitVec.toNat_ofNat, Nat.shiftRight_eq_div_pow]; omega
  have hcore : nextJobId s c b / 8192 = coreInCluster c := by unfold nextJobId; omega
  have htab : (jobTable ((tableAccept s c b st).getCore c) b).jobs.find? (fun j => decide (j.1 = nextJobId s c b)) =
      some (nextJobId s c b, statusWord 0 0 false st) := by
    simp [tableAccept, jobTable_putJobTable]
  simp [jobStatus, hid, hhigh, hcore, htab]

/-- SCOPE of a control word as a job is ordered. -/
def acceptScope (ctl : Word) : Scope := orderScope (scopeOfCode (ctlScope ctl))

/-- The job that an instruction has accepted. -/
def acceptedJob (s : State) (f : ReeveForm) (src dst shape ctl : Word) : ReeveJob :=
  { core := s.core, id := nextJobId s s.core false, form := f, src := src, dst := dst, shape := shape, ctl := ctl,
    dom := s.act.dom, kernel := s.act.kernel, modes := s.act.modes, running := !decide (ctlDk ctl = 3), slot := none,
    held := false, killed := false, trapKernel := 0, trapOut := false, issuer := s.act.serial, done := 0, sent := false,
    acked := 0, serial := s.serial, port := none, ending := none }

/-- A Reeve job's id in its core's table with a state, and its scope recorded for its observers. -/
def tableReeve (t : State) (c id st : Nat) (sc : Scope) : State :=
  (tableAccept t c false st).modCore c fun x => { x with reeveScopes := tabPut x.reeveScopes id sc }

/-- A job at the end of its engine's queue. -/
def enqueueReeve (t : State) (j : ReeveJob) : State :=
  { t with serial := t.serial + 1 }.modCluster (clusterOf j.core)
    fun g => { g with reeve := g.reeve ++ [j], lastReeve := j.core % 8 }

section
variable (t : State) (c id st : Nat) (sc : Scope) (j : ReeveJob)

@[simp] theorem tableReeve_act : (tableReeve t c id st sc).act = t.act := rfl
@[simp] theorem tableReeve_mem : (tableReeve t c id st sc).mem = t.mem := rfl
@[simp] theorem tableReeve_getCluster (g : Nat) : (tableReeve t c id st sc).getCluster g = t.getCluster g := rfl

theorem tableReeve_scope : tabGet .package ((tableReeve t c id st sc).getCore c).reeveScopes id = sc := by
  simp [tableReeve]

theorem tableReeve_jobTable :
    jobTable ((tableReeve t c id st sc).getCore c) false = jobTable ((tableAccept t c false st).getCore c) false := by
  rw [tableReeve, State.modCore_eq, State.getCore_setCore, if_pos rfl]; rfl

@[simp] theorem enqueueReeve_act : (enqueueReeve t j).act = t.act := rfl
@[simp] theorem enqueueReeve_mem : (enqueueReeve t j).mem = t.mem := rfl
@[simp] theorem enqueueReeve_getCore (e : Nat) : (enqueueReeve t j).getCore e = t.getCore e := rfl

theorem enqueueReeve_getCluster : (enqueueReeve t j).getCluster (clusterOf j.core) =
    { t.getCluster (clusterOf j.core) with reeve := (t.getCluster (clusterOf j.core)).reeve ++ [j], lastReeve := j.core % 8 } :=
  (State.getCluster_setCluster ..).trans (if_pos rfl)

end

/-- The state in which the job is accepted: a release at its scope, its id in the table, its place in the queue, and its id
in s[d]. -/
def reeveAccepted (s : State) (d : SReg) (f : ReeveForm) (src dst shape ctl : Word) : State :=
  (enqueueReeve (tableReeve (release s s.core s.act.dom (acceptScope ctl)) s.core (nextJobId s s.core false)
    (if decide (ctlDk ctl = 3) then 1 else 2) (acceptScope ctl)) (acceptedJob s f src dst shape ctl)).setS d
      (BitVec.ofNat 64 (nextJobId s s.core false))

section
variable {s : State} {d : SReg} {f : ReeveForm} {src dst shape ctl : Word}

theorem reeveAccept_done (hroom : reeveRoom s = true) (hturn : portTurn s false = true) :
    reeveAccept s d f src dst shape ctl = .done (reeveAccepted s d f src dst shape ctl) .seq [] := by
  rw [reeveAccept, hroom, hturn]
  rfl

theorem reeveAccept_stall (h : reeveRoom s = false ∨ portTurn s false = false) :
    reeveAccept s d f src dst shape ctl = .stall (.port false) s := by
  rw [reeveAccept, (Bool.and_eq_false_iff).mpr h]
  rfl

theorem reeveRoom_iff : reeveRoom s = true ↔
    (s.getCluster (clusterOf s.core)).reeve.length < 16 ∧ (s.getCluster (clusterOf s.core)).reeveBack = [] := by
  simp [reeveRoom]

theorem reeveRoom_eq_false_iff : reeveRoom s = false ↔
    16 ≤ (s.getCluster (clusterOf s.core)).reeve.length ∨ (s.getCluster (clusterOf s.core)).reeveBack ≠ [] := by
  rw [← Bool.not_eq_true, reeveRoom_iff, not_and_or, Nat.not_lt]

theorem reeveAccepted_getS_self (hd : d ≠ 0) :
    (reeveAccepted s d f src dst shape ctl).getS d = BitVec.ofNat 64 (nextJobId s s.core false) := by
  rw [reeveAccepted, State.getS_setS_self, if_neg hd]

theorem reeveAccepted_getS_of_ne {r : SReg} (h : r ≠ d) : (reeveAccepted s d f src dst shape ctl).getS r = s.getS r := by
  rw [reeveAccepted, State.getS_setS_of_ne _ _ h, State.getS, enqueueReeve_act, tableReeve_act, (release_access ..).act]; rfl

theorem reeveAccepted_getCluster : (reeveAccepted s d f src dst shape ctl).getCluster (clusterOf s.core) =
    { (release s s.core s.act.dom (acceptScope ctl)).getCluster (clusterOf s.core) with
      reeve := ((release s s.core s.act.dom (acceptScope ctl)).getCluster (clusterOf s.core)).reeve ++
        [acceptedJob s f src dst shape ctl]
      lastReeve := s.core % 8 } := by
  have h := enqueueReeve_getCluster (tableReeve (release s s.core s.act.dom (acceptScope ctl)) s.core (nextJobId s s.core false)
    (if decide (ctlDk ctl = 3) then 1 else 2) (acceptScope ctl)) (acceptedJob s f src dst shape ctl)
  rw [tableReeve_getCluster] at h
  rw [reeveAccepted, setS_getCluster]
  exact h

theorem reeveAccepted_mem :
    (reeveAccepted s d f src dst shape ctl).mem = (release s s.core s.act.dom (acceptScope ctl)).mem := by
  rw [reeveAccepted, State.setS_mem, enqueueReeve_mem, tableReeve_mem]

theorem reeveAccepted_getCore (c : Nat) : (reeveAccepted s d f src dst shape ctl).getCore c =
    (tableReeve (release s s.core s.act.dom (acceptScope ctl)) s.core (nextJobId s s.core false)
      (if decide (ctlDk ctl = 3) then 1 else 2) (acceptScope ctl)).getCore c := by
  rw [reeveAccepted, setS_getCore, enqueueReeve_getCore]

theorem reeveAccepted_scope : tabGet .package ((reeveAccepted s d f src dst shape ctl).getCore s.core).reeveScopes
    (nextJobId s s.core false) = acceptScope ctl := by
  rw [reeveAccepted_getCore, tableReeve_scope]

theorem reeveAccepted_jobStatus :
    jobStatus (reeveAccepted s d f src dst shape ctl) s.core false (BitVec.ofNat 64 (nextJobId s s.core false)) =
      if decide (ctlDk ctl = 3) then 1 else 2 := by
  have hr := release_access s s.core s.act.dom (acceptScope ctl)
  have htab := (congrArg (jobTable · false) (reeveAccepted_getCore (s := s) (d := d) (f := f) (src := src) (dst := dst)
    (shape := shape) (ctl := ctl) s.core)).trans (tableReeve_jobTable ..)
  rw [jobStatus_congr htab, ← nextJobId_access hr, jobStatus_tableAccept]
  split <;> rfl

end

/-! The fields of CPY's operand words that its tests read. -/

theorem copyReserved_cpy (shape ctl : Word) :
    copyReserved .cpy shape ctl = false ↔ (ctl.extractLsb' 0 35).toNat = 0 ∧ shape.extractLsb' 40 24 = 0 := by
  have hc : (ctl.extractLsb' 0 35).toNat = 0 ↔ bitsOf ctl 34 32 = 0 ∧ bitsOf ctl 31 0 = 0 := by
    simp only [BitVec.extractLsb'_toNat, bitsOf, Nat.shiftRight_eq_div_pow]; omega
  have hs : shape.extractLsb' 40 24 = 0 ↔ bitsOf shape 63 40 = 0 := BitVec.toNat_inj.symm
  have hr : copyReserved .cpy shape ctl = (decide (bitsOf ctl 34 32 ≠ 0) || decide (bitsOf ctl 31 0 ≠ 0) ||
    decide (bitsOf shape 63 40 ≠ 0)) := rfl
  rw [hc, hs, hr]
  simp only [Bool.or_eq_false_iff, decide_eq_false_iff_not, not_not]

theorem copyUndefined_cpy (ctl : Word) : copyUndefined .cpy ctl = false ↔ ctlScope ctl < 5 ∧ ctlSk ctl < 3 := by
  have hk : ctlSk ctl < 4 := bitsOf_lt ctl 36 35
  have hu : copyUndefined .cpy ctl = (decide (5 ≤ ctlScope ctl) || decide (ctlSk ctl = 3)) := by simp [copyUndefined]
  rw [hu, Bool.or_eq_false_iff, decide_eq_false_iff_not, decide_eq_false_iff_not]
  omega

theorem copyLength_cpy (shape ctl : Word) :
    copyLength .cpy shape ctl = false ↔ (ctlMsg ctl = true → bitsOf shape 39 0 % 64 = 0) := by
  simp [copyLength]

theorem copyKinds_cpy (dst ctl : Word) :
    copyKinds .cpy dst ctl = false ↔ (ctlMsg ctl = true → ctlDk ctl = 0 ∧ dst.toNat % 64 = 0) := by
  cases h : ctlMsg ctl <;> simp [copyKinds, h]

theorem copySize_cpy (shape ctl : Word) : copySize .cpy shape ctl = bitsOf shape 39 0 := Nat.one_mul _

theorem copySize_cpy2 (shape ctl : Word) : copySize .cpy2 shape ctl = bitsOf shape 31 16 * bitsOf shape 15 0 := rfl

/-! How a job-starting Reeve instruction ends. -/

section
variable {i : Instr} {s : State} {d : SReg} {g : BitVec 4} {f : ReeveForm} (hi : Issues i s) (he : exec i s = copyOp i s d g f)
include hi he

theorem copyOp_traps {c : Cause} {v : Word}
    (h : firstTrap (copyTests s f (copyWord s g 0) (copyWord s g 1) (copyWord s g 2) (copyWord s g 3)) = some (c, v)) :
    Traps i s c v :=
  he.trans (issue_trap hi (engineGuard_trap h))

variable (h : firstTrap (copyTests s f (copyWord s g 0) (copyWord s g 1) (copyWord s g 2) (copyWord s g 3)) = none)
include h

theorem copyOp_stalls (hw : reeveRoom s = false ∨ portTurn s false = false) : Stalls i s s (.port false) :=
  he.trans (issue_stall hi ((engineGuard_pass h).trans (reeveAccept_stall hw)))

theorem copyOp_completes (hroom : reeveRoom s = true) (hturn : portTurn s false = true) :
    Completes i s (reeveAccepted s d f (copyWord s g 0) (copyWord s g 1) (copyWord s g 2) (copyWord s g 3)) .seq [] :=
  he.trans (issue_done hi ((engineGuard_pass h).trans (reeveAccept_done hroom hturn)))

end

/-- Settles O40: the tests answer in the groups' order, and past them the job waits or is accepted. -/
theorem reeveJobs : Obligations.ReeveJobs := by
  unfold Obligations.ReeveJobs
  intro d g s reg src dst shape ctl x cl f ring id sc ep nep mep notify msg down nepOk mepOk ringOk srcOk dstOk fits rule
  have hsc : acceptScope ctl = sc := by
    change orderScope (scopeOfCode (f 52 3)) = _
    simp only [sc]
    rcases f 52 3 with _ | _ | _ | _ | n <;> rfl
  have hrule : ∀ i form, exec i s = copyOp i s d g form → rule i form (completionLen form) := by
    intro i form he hi
    have traps : ∀ {c v}, firstTrap (copyTests s form src dst shape ctl) = some (c, v) → Traps i s c v := copyOp_traps hi he
    have unsendable : ∀ n, (ep n).getLsbD 63 = false ∨ down n → ¬ Sendable s (ep n) := fun n => (not_sendable_iff s _).mpr
    have hnep : nepOk (completionLen form) → NepOk s form ctl := fun h => ⟨h.1, fun hn => and_assoc.mpr (h.2 hn)⟩
    have hring : ringOk → RingOk s ctl := fun h hk => h (decide_eq_true hk)
    have hfits : fits form ↔ SlotFits s form shape ctl := forall_congr' fun _ => imp_congr_left decide_eq_true_iff
    refine ⟨fun hres => traps (copyTests_operands (operandTests_reserved hres)),
      fun hres hund => traps (copyTests_operands (operandTests_undefined hres hund)), fun hres hund =>
      ⟨fun hlen => traps (copyTests_operands (operandTests_length hres hund hlen)),
       fun hlen hk => traps (copyTests_operands (operandTests_kinds hres hund hlen hk)), fun hlen hk => ?_, fun hlen hk => ?_⟩⟩
    · have ho : OperandsOk form dst shape ctl := ⟨hres, hund, hlen, hk⟩
      have places : nepOk (completionLen form) → mepOk → ∀ {c v},
          firstTrap (placeTests s form src dst shape ctl) = some (c, v) → Traps i s c v :=
        fun hn hm _ _ h => traps ((copyTests_places ho (hnep hn) hm).trans h)
      refine ⟨fun h => ?_, fun hlt hn hv hd hl => ?_, fun hn h => ?_, fun hn hm hr hf => ?_, fun hn hm hr hs => ?_,
        fun hn hm hr hs hd => ?_, fun hn hm hr hs hd hf => ?_⟩
      · exact traps (copyTests_nep ho (nepTests_endpoint (h.imp_right (And.imp_right (unsendable nep)))))
      · exact traps (copyTests_nep ho (nepTests_msgType hlt hn ⟨hv, hd⟩ hl))
      · exact traps (copyTests_mep ho (hnep hn) (mepTests_endpoint (h.imp_right (And.imp_right (unsendable mep)))))
      · exact places hn hm (placeTests_ring (of_decide_eq_true hr) hf)
      · exact places hn hm (placeTests_source (hring hr) hs)
      · exact places hn hm (placeTests_dest (hring hr) hs hd)
      · exact places hn hm (placeTests_slot (hring hr) hs hd (mt hfits.mpr hf))
    · intro hn hm hr hs hd hf
      have hpass := (copyTests_places ⟨hres, hund, hlen, hk⟩ (hnep hn) hm).trans
        (placeTests_pass (hring hr) hs hd (hfits.mp hf))
      refine ⟨fun hw => copyOp_stalls hi he hpass ((or_assoc.mpr hw).imp_left reeveRoom_eq_false_iff.mpr),
        fun hlen hback hturn => ?_⟩
      exact ⟨_, _, _, congrArg (release s s.core s.act.dom) hsc,
        copyOp_completes hi he hpass (reeveRoom_iff.mpr ⟨hlen, hback⟩) hturn, reeveAccepted_getS_self,
        fun r hne => reeveAccepted_getS_of_ne hne, congrArg Cluster.reeve reeveAccepted_getCluster,
        rfl, rfl, rfl, rfl, rfl, rfl, rfl, rfl, rfl, reeveAccepted_mem, reeveAccepted_scope.trans hsc,
        congrArg Cluster.lastReeve reeveAccepted_getCluster, reeveAccepted_jobStatus⟩
  exact ⟨hrule (.cpy d g) .cpy rfl, hrule (.cpy2 d g) .cpy2 rfl, hrule (.cpypl d g) .cpypl rfl, hrule (.cpyrd d g) .cpyrd rfl,
    hrule (.cpyfill d g) .cpyfill rfl, copyReserved_cpy shape ctl, copyUndefined_cpy ctl, copyLength_cpy shape ctl,
    copyKinds_cpy dst ctl, copySize_cpy shape ctl, copySize_cpy2 shape ctl⟩

end Sys2Proof.Machine
end

section
/-!
The step of a chunk block (03 R63): the four words of a block written as one number, and the ceiling that sets the count.
-/
namespace Sys2Proof.Machine

/-- The low word of a number made of a word and what stands above it. -/
theorem blockWord_zero_add {x : Nat} (h : Nat) (hx : x < 2 ^ 64) : blockWord (x + 2 ^ 64 * h) 0 = x := by
  unfold blockWord; omega

/-- Past its low word, such a number holds the words of what stands above. -/
theorem blockWord_add_eight {x : Nat} (h off : Nat) (hx : x < 2 ^ 64) :
    blockWord (x + 2 ^ 64 * h) (off + 8) = blockWord h off := by
  have hp : 2 ^ (8 * (off + 8)) = 2 ^ 64 * 2 ^ (8 * off) := by rw [← Nat.pow_add]; congr 1; omega
  have hd : (x + 2 ^ 64 * h) / 2 ^ 64 = h := by omega
  rw [blockWord, blockWord, hp, ← Nat.div_div_eq_div_mul, hd]

theorem blockSet_zero_add {x y : Nat} (h : Nat) (hx : x < 2 ^ 64) (hy : y < 2 ^ 64) :
    blockSet (x + 2 ^ 64 * h) 0 y = y + 2 ^ 64 * h := by
  rw [blockSet, blockWord_zero_add h hx, Nat.mod_eq_of_lt hy]; omega

/-- The block of four 64-bit words. -/
theorem chunkBlock_eq (next end_ mn dv : Nat) :
    next + 2 ^ 64 * end_ + 2 ^ 128 * mn + 2 ^ 192 * dv = next + 2 ^ 64 * (end_ + 2 ^ 64 * (mn + 2 ^ 64 * dv)) := by ring

/-- The rounded-up quotient is the only number whose multiple reaches and whose predecessor's does not. -/
theorem ceilDiv_unique {n d up : Nat} (hd : 0 < d) (hle : n ≤ up * d) (hlt : up = 0 ∨ (up - 1) * d < n) : (n + d - 1) / d = up := by
  refine Nat.div_eq_of_lt_le ?_ ?_
  · rcases hlt with rfl | hlt
    · simp
    · cases up with
      | zero => simp
      | succ k => rw [Nat.add_sub_cancel] at hlt; rw [Nat.succ_mul]; omega
  · rw [Nat.succ_mul]; omega

/-- Settles O23: the block's words are read off its number, the count rounds up as the ceiling does, and NEXT plus the count
stays at or below END, so that it is written whole. -/
theorem chunkStep_holds : Obligations.ChunkStep := by
  unfold Obligations.ChunkStep
  intro next end_ mn dv hn he hm hv block rem m d up hle hlt count
  have hrem : rem = end_ - next := by simp only [rem]; split <;> omega
  have hd : 0 < d := by omega
  have hceil : (rem + d - 1) / d = up := ceilDiv_unique hd hle hlt
  have hcount : next + count < 2 ^ 64 := by omega
  have hblock : ∀ n, block n = n + 2 ^ 64 * (end_ + 2 ^ 64 * (mn + 2 ^ 64 * dv)) := fun n => chunkBlock_eq n end_ mn dv
  have hdv : blockWord dv 0 = dv := by simpa using blockWord_zero_add 0 hv
  have h8 : blockWord (block next) 8 = end_ := by
    rw [hblock, blockWord_add_eight _ 0 hn, blockWord_zero_add _ he]
  have h16 : blockWord (block next) 16 = mn := by
    rw [hblock, blockWord_add_eight _ 8 hn, blockWord_add_eight _ 0 he, blockWord_zero_add _ hm]
  have h24 : blockWord (block next) 24 = dv := by
    rw [hblock, blockWord_add_eight _ 16 hn, blockWord_add_eight _ 8 he, blockWord_add_eight _ 0 hm, hdv]
  refine ⟨?_, by omega⟩
  rw [chunkStep, h8, h16, h24, hblock next, blockWord_zero_add _ hn, ← hrem, hceil, blockSet_zero_add _ hn hcount,
    hblock (next + count)]
end Sys2Proof.Machine
end

section
/-!
A step runs what it fetches (03 R74, 05 R82): a fetch that hits, the word it reads, and the turn that issues it.
-/
namespace Sys2Proof.Machine

theorem bitsOf_eq (w : Word) (hi lo : Nat) : bitsOf w hi lo = w.toNat / 2 ^ lo % 2 ^ (hi + 1 - lo) := by
  rw [bitsOf, Nat.shiftRight_eq_div_pow]

/-- The activation whose turn it is keeps it. -/
theorem select_self {s : State} (h : s.live = true) : s.select s.core s.slot = s := by simp [State.select, h]

theorem live_of_canIssue {s : State} (h : canIssue s = true) : s.live = true := by
  simp only [canIssue, Bool.and_eq_true] at h
  exact h.1.1.1

/-- Four bytes of a line are the word they spell, the lowest first (00 R4). -/
theorem wordAt_eq {l : ILine} {va : Word} {w : IWord}
    (h : ∀ i, i < 4 → w.extractLsb' (8 * i) 8 = lineByte l.data (va.toNat % 128 + i)) : wordAt l va = w := by
  refine BitVec.eq_of_getLsbD_eq fun j hj => ?_
  have hb := congrArg (fun b : BitVec 8 => b.getLsbD (j % 8)) (h (j / 8) (by omega))
  have hm : j % 8 < 8 := by omega
  have h1 : 8 * (j / 8) + j % 8 = j := by omega
  have h2 : 8 * (va.toNat % 128 + j / 8) + j % 8 = 8 * (va.toNat % 128) + j := by omega
  simp only [BitVec.getLsbD_extractLsb', lineByte, BitVec.getLsbD_setWidth, BitVec.getLsbD_ushiftRight, hm, decide_true,
    Bool.true_and, h1, h2] at hb
  simp only [wordAt, lineNat, BitVec.getLsbD_ofNat, Nat.testBit_mod_two_pow, Nat.testBit_shiftRight, hj, decide_true,
    Bool.true_and, hb]
  rfl

section
variable {s : State} {l : ILine}

/-- A fetch that hits a line which allows it reads its word, and the state stays as it is. -/
theorem fetchWord_hit (hpc : s.act.pc.toNat < 2 ^ 57)
    (hl : ((s.getCore s.core).l1i.find? fun l => decide (l.dom = s.act.dom ∧ l.vl = s.act.pc.toNat / 128 % 2 ^ 50)) = some l)
    (hx : l.perms.x = true) (hk : l.perms.k = false ∨ s.act.kernel = true) :
    fetchWord s = .ok (wordAt l s.act.pc, s) := by
  have hv : vlineOf s.act.pc = s.act.pc.toNat / 128 % 2 ^ 50 := bitsOf_eq ..
  have hf : ((s.getCore s.core).l1i.find? fun l => decide (l.dom = s.act.dom) && decide (l.vl = vlineOf s.act.pc)) = some l := by
    rw [← hl]; simp only [hv, Bool.decide_and]
  have hb : bitsOf s.act.pc 63 57 = 0 := by rw [bitsOf_eq]; omega
  have ha : l.perms.allow .fetch s.act.kernel = true := by
    rcases hk with hk | hk <;> simp [Perms.allow, hx, hk]
  simp only [fetchWord, fetchLine, hb, hf, ha, if_true]
  rfl

/-- Nothing stops the word of an activation that no breakpoint matches, outside a spent save routine. -/
theorem beforeWord_fetched {w : IWord} (hb : breakpointAt s = none) (hr : ∀ r, s.act.saving = some r → r.retired < 4096)
    (hf : fetchWord s = .ok (w, s)) : beforeWord s = .inr (w, s) := by
  have hft : beforeWord.fetched s = .inr (w, s) := by simp only [beforeWord.fetched, hb, hf]
  unfold beforeWord
  split
  · next run h => rw [if_neg (Nat.not_le.mpr (hr run h)), hft]
  · exact hft

theorem issueTurn_ok {w : IWord} {i : Instr} (h : beforeWord s = .inr (w, s)) (hd : decodeWord w = .ok i) :
    issueTurn s = exec i s := by simp only [issueTurn, h, hd]

theorem issueTurn_illegal {w : IWord} {r : Reject} (h : beforeWord s = .inr (w, s)) (hd : decodeWord w = .error r) :
    issueTurn s = exec (.illegal w) s := by simp only [issueTurn, h, hd]

end

/-- With an empty agenda the step is the turn of the selected activation, if it goes. -/
theorem step_of_goesNow {s : State} (ha : s.agenda = []) (hg : goesNow s = true) : step s = issueTurn s := by
  simp only [step, ha, nextToGo, hg, if_true]

/-- The turn of the selected activation, if it may issue. -/
theorem takeTurn_issue {u : State} (hr : u.inReset = false) (hc : canIssue u = true) :
    takeTurn (.issue u.core u.slot) u = issueTurn u := by
  simp [takeTurn, hr, select_self (live_of_canIssue hc), hc]

/-- An agenda that gives the selected activation its turn. -/
theorem step_of_issue {s u : State} {r : List Turn} (ha : s.agenda = .issue s.core s.slot :: r) (hr : s.inReset = false)
    (hu : u = { s with agenda := r }) (hc : canIssue u = true) : step s = issueTurn u := by
  have hs : step s = takeTurn (.issue s.core s.slot) { s with agenda := r } := by simp only [step, ha]
  subst hu
  exact hs.trans (takeTurn_issue hr hc)

/-- Settles O4: the turn comes to the activation by the agenda or by the order of issue; then nothing stops the word, and
the line's bytes are its word. -/
theorem stepRunsDecoded : Obligations.StepRunsDecoded := by
  unfold Obligations.StepRunsDecoded
  intro s u l hturn hb hr hpc hl hx hk w hw halign
  have hstep : step s = issueTurn u := by
    rcases hturn with ⟨ha, hg, rfl⟩ | ⟨r, ha, hrst, hu, hc⟩
    · exact step_of_goesNow ha hg
    · exact step_of_issue ha hrst hu hc
  have hword : wordAt l u.act.pc = w := wordAt_eq fun i hi => hw i hi (by omega)
  have hbefore : beforeWord u = .inr (w, u) := beforeWord_fetched hb hr (hword ▸ fetchWord_hit hpc hl hx hk)
  exact ⟨fun i hd => hstep.trans (issueTurn_ok hbefore hd), fun r hd => hstep.trans (issueTurn_illegal hbefore hd)⟩

end Sys2Proof.Machine
end

section
/-!
What the device's messages, reports and trace records change (03 R45, 21 R306, 27 R373 R375): one relation, and for each
operation that sends or writes one a lemma that it stays within that relation.
-/
namespace Sys2Proof.Machine

/-- What messages, reports and trace records change beyond what accesses do: the queues that messages stand in, the
endpoint entries that they left by, the grants' trace state, and the lines asked back for a record. -/
structure ReportsOnly (s t : State) : Prop where
  rest : t = { s with
    cores := t.cores, clusters := t.clusters, charges := t.charges, device := t.device, mem := t.mem, sealLine := t.sealLine,
    l2 := t.l2, stamps := t.stamps, waymask := t.waymask, tlb := t.tlb, walk := t.walk, free := t.free, hostOut := t.hostOut,
    flight := t.flight, waiting := t.waiting, grants := t.grants, heldWrites := t.heldWrites, ext := t.ext, fns := t.fns,
    requests := t.requests, ports := t.ports }
  core : ∀ c, t.getCore c = { s.getCore c with
    l1 := (t.getCore c).l1, l1i := (t.getCore c).l1i, pending := (t.getCore c).pending, endpoints := (t.getCore c).endpoints,
    inj := (t.getCore c).inj }
  form : MemoryOk s → MemoryOk t

theorem AccessOnly.reports {s t : State} (h : AccessOnly s t) : ReportsOnly s t := by
  refine ⟨?_, fun c => ?_, h.form⟩
  · have := h.rest; rw [this]
  · have := h.core c; rw [this]

namespace ReportsOnly

theorem refl (s : State) : ReportsOnly s s := (AccessOnly.refl s).reports

theorem trans {s t u : State} (a : ReportsOnly s t) (b : ReportsOnly t u) : ReportsOnly s u := by
  refine ⟨?_, fun c => ?_, b.form ∘ a.form⟩
  · have h1 := a.rest
    have h2 := b.rest
    rw [h1] at h2
    exact h2
  · have h1 := a.core c
    have h2 := b.core c
    rw [h1] at h2
    exact h2

variable {s t : State}

theorem act (h : ReportsOnly s t) : t.act = s.act := by rw [h.rest]
theorem acts (h : ReportsOnly s t) : t.acts = s.acts := by rw [h.rest]
theorem steals (h : ReportsOnly s t) : t.steals = s.steals := by rw [h.rest]
theorem serial (h : ReportsOnly s t) : t.serial = s.serial := by rw [h.rest]
theorem store (h : ReportsOnly s t) (c : Nat) : (t.getCore c).store = (s.getCore c).store := by rw [h.core c]
theorem deque (h : ReportsOnly s t) (c : Nat) : (t.getCore c).deque = (s.getCore c).deque := by rw [h.core c]
theorem steal (h : ReportsOnly s t) (c : Nat) : (t.getCore c).steal = (s.getCore c).steal := by rw [h.core c]

theorem findAct (h : ReportsOnly s t) (c k : Nat) : t.findAct c k = s.findAct c k := by rw [h.rest]; rfl

theorem getDom (h : ReportsOnly s t) (d : Nat) : t.getDom d = s.getDom d := by rw [h.rest]; rfl

theorem formOk (h : ReportsOnly s t) (f : FormOk s) : FormOk t :=
  ⟨h.form f.1, by rw [h.rest]; exact f.2.1, by rw [h.rest]; exact f.2.2⟩

end ReportsOnly

/-- A core's endpoint entries and injection queue changed. -/
theorem modCore_reports (s : State) (c : Nat) (f : Core → Core)
    (h : ∀ x, f x = { x with endpoints := (f x).endpoints, inj := (f x).inj }) : ReportsOnly s (s.modCore c f) := by
  refine ⟨rfl, fun e => ?_, fun m => m.setCore (by rw [h]; exact m.spad c)⟩
  simp only [State.modCore_eq, State.getCore_setCore]
  split
  · subst_vars; rw [h]
  · rfl

theorem flight_reports (s : State) (l : List Msg) : ReportsOnly s { s with flight := l } := ⟨rfl, fun _ => rfl, id⟩
theorem waiting_reports (s : State) (l : List Waiting) : ReportsOnly s { s with waiting := l } := ⟨rfl, fun _ => rfl, id⟩
theorem grants_reports (s : State) (g : Tab Grant) : ReportsOnly s { s with grants := g } := ⟨rfl, fun _ => rfl, id⟩

theorem raise_reports (s : State) (w : Waiting) : ReportsOnly s (raise s w) := by
  unfold raise
  dsimp only
  split
  · refine .trans ?_ (flight_reports _ _)
    split
    · exact .refl s
    · exact (chargeDevice_access ..).reports
  · exact waiting_reports ..

theorem notice_reports (s : State) (k sc : Nat) (ws : List Word) : ReportsOnly s (notice s k sc ws) := raise_reports ..

theorem toPort_reports (s : State) (p : Nat) (u : Body) : ReportsOnly s (toPort s p u) := by
  unfold toPort
  split
  · exact ⟨rfl, fun _ => rfl, id⟩
  · exact raise_reports ..

theorem route_reports (s : State) (o : Outgoing) : ReportsOnly s (route s o) := by
  unfold route
  split
  · exact toPort_reports ..
  · split
    · exact ⟨rfl, fun _ => rfl, id⟩
    · split
      · exact ⟨rfl, fun _ => rfl, id⟩
      · exact flight_reports ..

theorem injectNext_reports (s : State) (c : Nat) : ReportsOnly s (injectNext s c) := by
  unfold injectNext
  split
  · exact .refl s
  · exact .trans (modCore_reports s c _ fun _ => rfl) (route_reports ..)

theorem injectMany_reports (s : State) (c n : Nat) : ReportsOnly s (injectMany s c n) := by
  induction n generalizing s with
  | zero => exact .refl s
  | succ n ih => exact (injectNext_reports s c).trans (ih _)

theorem injectBefore_reports (s : State) (c i : Nat) : ReportsOnly s (injectBefore s c i) := by
  unfold injectBefore
  dsimp only
  split
  · exact injectMany_reports ..
  · exact .refl s

theorem setEndpoint_reports (s : State) (c i : Nat) (e : Word) : ReportsOnly s (setEndpoint s c i e) := by
  unfold setEndpoint
  exact modCore_reports s c _ fun _ => rfl

theorem makeMsg_reports (s : State) (c i sdom score : Nat) (ws : List Word) : ReportsOnly s (makeMsg s c i sdom score ws).2 :=
  setEndpoint_reports ..

theorem deviceSend_reports (s : State) (c i sdom score payer meter : Nat) (ws : List Word) :
    ReportsOnly s (deviceSend s c i sdom score payer meter ws) :=
  ((injectBefore_reports s c i).trans (makeMsg_reports _ c i sdom score ws)).trans
    ((charge_access ..).reports.trans (route_reports ..))

theorem physWrite_reports (s : State) (d m pa : Nat) (bs : List Byte) : ReportsOnly s (physWrite s d m pa bs) := by
  unfold physWrite
  split
  · exact ⟨rfl, fun _ => rfl, id⟩
  · exact (physStore_access ..).reports

theorem traceRecord_reports (s : State) (a : Act) (c k : Nat) (fin : Bool) (addr : Word) :
    ReportsOnly s (traceRecord s a c k fin addr) := by
  unfold traceRecord
  split
  · exact .refl s
  · split
    · exact .refl s
    · dsimp only
      split
      · exact .trans (grants_reports _ _) (notice_reports ..)
      · exact .trans (grants_reports _ _) (physWrite_reports ..)

theorem trapRelease_reports (s : State) (c d : Nat) (e : Word) : ReportsOnly s (trapRelease s c d e) := by
  unfold trapRelease
  split
  · exact .refl s
  · exact (release_access ..).reports

theorem stepReport_reports (s : State) (c k : Nat) (a : Act) (cause : Nat) (ended stalled : Bool) :
    ReportsOnly s (stepReport s c k a cause ended stalled) := by
  unfold stepReport debugHit
  split
  · exact .trans (trapRelease_reports ..) (notice_reports ..)
  · exact .refl s

theorem stepLost_reports (s : State) (c k : Nat) (a : Act) : ReportsOnly s (stepLost s c k a) := by
  unfold stepLost unstepped
  split
  · exact stepReport_reports ..
  · exact .refl s

end Sys2Proof.Machine
end

section
/-!
MPOPs served from the arrival store (17 R248), and what a hardware dump leaves (03 R72, 21 R319).
-/
namespace Sys2Proof.Machine

/-! Lists. -/

theorem mem_insertBy {α : Type} (key : α → Nat) (a x : α) (l : List α) : x ∈ insertBy key a l ↔ x = a ∨ x ∈ l := by
  induction l with
  | nil => simp [insertBy]
  | cons b r ih =>
    simp only [insertBy]
    split
    · simp
    · simp only [List.mem_cons, ih]; tauto

theorem mem_sortBy {α : Type} (key : α → Nat) (x : α) (l : List α) : x ∈ sortBy key l ↔ x ∈ l := by
  have h : ∀ acc, x ∈ l.foldl (fun acc a => insertBy key a acc) acc ↔ x ∈ acc ∨ x ∈ l := by
    induction l with
    | nil => simp
    | cons a r ih => intro acc; rw [List.foldl_cons, ih, mem_insertBy, List.mem_cons]; tauto
  simpa [sortBy] using h []

/-- The first element that passes a test stands after elements that do not. -/
theorem takeFirst_eq_some {α : Type} {f : α → Bool} {l r : List α} {m : α} (h : takeFirst f l = some (m, r)) :
    ∃ l1 l2, l = l1 ++ m :: l2 ∧ r = l1 ++ l2 ∧ f m = true ∧ ∀ o ∈ l1, f o = false := by
  induction l generalizing r with
  | nil => simp [takeFirst] at h
  | cons a l ih =>
    simp only [takeFirst] at h
    split at h
    · next ha =>
      simp only [Option.some.injEq, Prod.mk.injEq] at h
      obtain ⟨rfl, rfl⟩ := h
      exact ⟨[], l, rfl, rfl, ha, by simp⟩
    · next ha =>
      obtain ⟨⟨b, s⟩, hb, he⟩ := Option.map_eq_some_iff.mp h
      simp only [Prod.mk.injEq] at he
      obtain ⟨rfl, rfl⟩ := he
      obtain ⟨l1, l2, rfl, rfl, hm, hn⟩ := ih hb
      exact ⟨a :: l1, l2, rfl, rfl, hm, List.forall_mem_cons.mpr ⟨Bool.eq_false_iff.mpr ha, hn⟩⟩

theorem takeFirst_isSome {α : Type} (f : α → Bool) (l : List α) : (takeFirst f l).isSome = l.any f := by
  induction l with
  | nil => rfl
  | cons a r ih =>
    simp only [takeFirst, List.any_cons]
    split
    · next h => simp [h]
    · next h => simp [h, ih]

theorem takeFirst_append {α : Type} {f : α → Bool} {l1 l2 : List α} {m : α} (hn : ∀ o ∈ l1, f o = false) (hm : f m = true) :
    takeFirst f (l1 ++ m :: l2) = some (m, l1 ++ l2) := by
  induction l1 with
  | nil => simp [takeFirst, hm]
  | cons a r ih =>
    simp only [List.cons_append, takeFirst, hn a (by simp), ih fun o ho => hn o (by simp [ho])]
    rfl

theorem replaceOrAdd_append {α : Type} {f : α → Bool} {l1 l2 : List α} {m : α} (b : α) (hn : ∀ o ∈ l1, f o = false)
    (hm : f m = true) : replaceOrAdd f b (l1 ++ m :: l2) = l1 ++ b :: l2 := by
  induction l1 with
  | nil => simp [replaceOrAdd, hm]
  | cons a r ih =>
    simp only [List.cons_append, replaceOrAdd, hn a (by simp), ih fun o ho => hn o (by simp [ho])]
    rfl

/-- A change past the first `n` that a test picks is not seen by what does not look at it. -/
theorem map_mapPast {α β : Type} (p : α → Bool) {f : α → α} {g : α → β} (h : ∀ a, g (f a) = g a) (n : Nat) (l : List α) :
    (mapPast p f n l).map g = l.map g := by
  induction l generalizing n with
  | nil => rfl
  | cons a r ih =>
    simp only [mapPast]
    split
    · simp [ih]
    · cases n <;> simp [ih, h]

/-- A change that undoes the test leaves the first `n` that passed it. -/
theorem filter_mapPast {α : Type} {p : α → Bool} {f : α → α} (h : ∀ a, p (f a) = false) (n : Nat) (l : List α) :
    (mapPast p f n l).filter p = (l.filter p).take n := by
  induction l generalizing n with
  | nil => simp [mapPast]
  | cons a r ih =>
    simp only [mapPast]
    split
    · next ha => simp only [Bool.not_eq_true'] at ha; simp [ha, ih]
    · next ha =>
      simp only [Bool.not_eq_true', Bool.not_eq_false] at ha
      cases n with
      | zero => simp [h, ih]
      | succ n => simp [ha, ih]

/-! The activations of a core, by their slots. -/

theorem tabFind_of_mem {α : Type} {t : Tab α} (h : Rising t) {x : Nat × α} (hx : x ∈ t) : tabFind t x.1 = some x.2 := by
  induction t with
  | nil => simp at hx
  | cons y r ih =>
    rcases List.mem_cons.mp hx with rfl | hx
    · simp [tabFind]
    · have : y.1 ≠ x.1 := Nat.ne_of_lt (h.head x hx)
      simp only [tabFind, if_neg this, ih h.tail hx]

/-- An activation that a core lists stands in its slot. -/
theorem findAct_of_mem_coreActs {s : State} (f : FormOk s) {c : Nat} {x : Nat × Act} (h : x ∈ s.coreActs c) :
    x.1 < 64 ∧ s.findAct c x.1 = some x.2 := by
  obtain ⟨-, hk, hr, hs⟩ := f
  obtain ⟨k, a⟩ := x
  simp only [State.coreActs, List.mem_map, List.mem_filter, decide_eq_true_eq] at h
  obtain ⟨⟨e, y⟩, ⟨hm, he⟩, rfl⟩ := h
  simp only at he
  subst he
  simp only [State.allActs, List.mem_append, List.mem_map] at hm
  rcases hm with hm | ⟨y, hy, hm⟩
  · split at hm
    · next hl =>
      simp only [List.mem_singleton, Prod.mk.injEq] at hm
      obtain ⟨rfl, rfl, rfl⟩ := hm
      exact ⟨hk, by simp [State.findAct, hl]⟩
    · simp at hm
  · simp only [Prod.mk.injEq] at hm
    obtain ⟨rfl, rfl, rfl⟩ := hm
    have hkey : 64 * (y.1 / 64) + y.1 % 64 = y.1 := by omega
    have hf : tabFind s.acts y.1 = some y.2 := tabFind_of_mem hr hy
    refine ⟨by simp only; omega, ?_⟩
    simp only [State.findAct, hkey, hf]
    split
    · next h =>
      simp only [Bool.and_eq_true, decide_eq_true_eq] at h
      have := hs h.1
      rw [← h.2, hf] at this
      simp at this
    · rfl

@[simp] theorem State.putAct_getCore (s : State) (c k : Nat) (a : Act) (e : Nat) : (s.putAct c k a).getCore e = s.getCore e := by
  unfold State.getCore; rw [State.putAct_cores]

/-! MPOPs served. -/

/-- What serving the MPOPs of some slots of a core changes: those activations, and the reservations in its store. -/
structure ServesMpops (l : List (Nat × Act)) (c : Nat) (s t : State) : Prop where
  rest : t = { s with cores := t.cores, act := t.act, acts := t.acts }
  others : ∀ e, e ≠ c → t.getCore e = s.getCore e
  here : t.getCore c = { s.getCore c with store := (t.getCore c).store }
  msgs : ((t.getCore c).store.map fun m => (m.msg, m.arrived)) = ((s.getCore c).store.map fun m => (m.msg, m.arrived))
  reserved : ∀ k, (∀ x ∈ l, x.1 ≠ k) → reservedOf (t.getCore c) k = reservedOf (s.getCore c) k
  findAct : ∀ e j, (∀ x ∈ l, 64 * c + x.1 ≠ 64 * e + j) → t.findAct e j = s.findAct e j

namespace ServesMpops

theorem refl (c : Nat) (s : State) : ServesMpops [] c s s :=
  ⟨rfl, fun _ _ => rfl, rfl, rfl, fun _ _ => rfl, fun _ _ _ => rfl⟩

theorem cons {x : Nat × Act} {l : List (Nat × Act)} {c : Nat} {s t u : State} (a : ServesMpops [x] c s t)
    (b : ServesMpops l c t u) : ServesMpops (x :: l) c s u := by
  refine ⟨?_, fun e he => (b.others e he).trans (a.others e he), ?_, b.msgs.trans a.msgs, fun k hk => ?_, fun e j hj => ?_⟩
  · have h1 := a.rest
    have h2 := b.rest
    rw [h1] at h2
    exact h2
  · have h1 := a.here
    have h2 := b.here
    rw [h1] at h2
    exact h2
  · exact (b.reserved k fun x hx => hk x (by simp [hx])).trans (a.reserved k fun y hy => hk y (by simp_all))
  · exact (b.findAct e j fun x hx => hj x (by simp [hx])).trans (a.findAct e j fun y hy => hj y (by simp_all))

theorem weaken {x : Nat × Act} {c : Nat} {s : State} : ServesMpops [x] c s s :=
  ⟨rfl, fun _ _ => rfl, rfl, rfl, fun _ _ => rfl, fun _ _ _ => rfl⟩

end ServesMpops

/-- A core's store changed in one message's reservation, and the activation it is reserved to. -/
theorem reserve_serves {s : State} {c k : Nat} {a b : Act} {f : Core → Core} {l1 l2 : List Stored} {m : Stored}
    (hs : (s.getCore c).store = l1 ++ m :: l2) (hm : m.slot = none)
    (hf : f (s.getCore c) = { s.getCore c with store := l1 ++ { m with slot := some k } :: l2 }) :
    ServesMpops [(k, a)] c s ((s.modCore c f).putAct c k b) := by
  refine ⟨?_, fun e he => ?_, ?_, ?_, fun j hj => ?_, fun e j hj => ?_⟩
  · unfold State.putAct; split <;> rfl
  · simp [Ne.symm he]
  · simp [hf]
  · simp [hf, hs]
  · have hkj : k ≠ j := by simpa using hj
    simp [reservedOf, hf, hs, hm, hkj]
  · have hne : 64 * c + k ≠ 64 * e + j := by simpa using hj
    rw [findAct_putAct, if_neg hne]; rfl

theorem serveMpop_serves (s : State) (c k : Nat) (a : Act) : ServesMpops [(k, a)] c s (serveMpop s c k a) := by
  unfold serveMpop
  split
  · next t ht =>
    dsimp only
    split
    · next hany =>
      obtain ⟨⟨m, r⟩, htake⟩ := Option.isSome_iff_exists.mp ((takeFirst_isSome _ _).trans hany)
      obtain ⟨l1, l2, hs, -, hm, hn⟩ := takeFirst_eq_some htake
      refine reserve_serves hs ?_ ?_
      · simp only [Bool.and_eq_true, decide_eq_true_eq] at hm
        exact hm.1.1.1
      · simp only [htake]
        rw [hs, replaceOrAdd_append _ hn hm]
    · exact .weaken
  · exact .weaken

theorem foldl_serveMpop_serves (c : Nat) (l : List (Nat × Act)) (s : State) :
    ServesMpops l c s (l.foldl (fun s x => serveMpop s c x.1 x.2) s) := by
  induction l generalizing s with
  | nil => exact .refl c s
  | cons x r ih => exact (serveMpop_serves s c x.1 x.2).cons (ih _)

/-- An activation stalled in an MPOP on its core, as the device sees it. -/
theorem mem_mpopWaiters {s : State} {c : Nat} {x : Nat × Act} (h : x ∈ mpopWaiters s c) :
    x ∈ s.coreActs c ∧ ∃ g, x.2.wait = some (.mpop g) := by
  rw [mpopWaiters, mem_sortBy, List.mem_filter] at h
  refine ⟨h.1, ?_⟩
  have hw := h.2
  split at hw
  · next g hg => exact ⟨g, hg⟩
  · simp at hw

/-- Serving a core's MPOPs touches no slot whose activation is not stalled in one there. -/
theorem serveMpops_serves (s : State) (c : Nat) : ∃ l, ServesMpops l c s (serveMpops s c) ∧ ∀ x ∈ l, x ∈ mpopWaiters s c := by
  unfold serveMpops
  split
  · exact ⟨[], .refl c s, by simp⟩
  · exact ⟨_, foldl_serveMpop_serves .., fun _ h => h⟩

theorem serveMpops_of_none {s : State} {c : Nat} (h : mpopWaiters s c = []) : serveMpops s c = s := by
  unfold serveMpops
  rw [h]
  split <;> rfl

/-! What is reserved past seven messages returns to its queue. -/

/-- The end of a dump: an activation put in its slot, and its record's room for seven messages. -/
theorem keepSeven_recordKept {w : State} (f : FormOk w) {c k : Nat} (hk : k < 64) {b : Act} (hb : b.wait = none) :
    (keepSeven (w.putAct c k b) c k).findAct c k = some b ∧ Clauses.RecordKept w (keepSeven (w.putAct c k b) c k) c k := by
  let v := (w.putAct c k b).modCore c fun x => { x with
    store := mapPast (fun m => decide (m.slot = some k)) (fun m => { m with slot := none }) 7 x.store }
  obtain ⟨l, h, hl⟩ := serveMpops_serves v c
  change (serveMpops v c).findAct c k = some b ∧ Clauses.RecordKept w (serveMpops v c) c k
  generalize serveMpops v c = t at h ⊢
  have hput : FormOk (w.putAct c k b) := putAct_formOk f c k b
  have hform : FormOk v := ⟨hput.1.setCore (hput.1.spad c), hput.2⟩
  have hfind : ∀ e j, v.findAct e j = if 64 * c + k = 64 * e + j then some b else w.findAct e j := fun e j =>
    findAct_putAct w c k e j b
  have hwait : ∀ x ∈ l, x.1 < 64 ∧ v.findAct c x.1 = some x.2 ∧ ∃ g, x.2.wait = some (.mpop g) := fun x hx => by
    obtain ⟨hc, hg⟩ := mem_mpopWaiters (hl x hx)
    exact ⟨(findAct_of_mem_coreActs hform hc).1, (findAct_of_mem_coreActs hform hc).2, hg⟩
  have hne : ∀ x ∈ l, x.1 ≠ k := by
    rintro x hx rfl
    obtain ⟨-, hx2, g, hg⟩ := hwait x hx
    rw [hfind, if_pos rfl, Option.some.injEq] at hx2
    rw [← hx2, hb] at hg
    cases hg
  have hself : t.findAct c k = some b := by
    rw [h.findAct c k fun x hx e => hne x hx (by omega), hfind, if_pos rfl]
  have hstore : (v.getCore c).store = mapPast (fun m => decide (m.slot = some k)) (fun m => { m with slot := none }) 7
      (w.getCore c).store := by simp [v]
  have hcore : v.getCore c = { w.getCore c with store := (v.getCore c).store } := by simp [v]
  have hothers : ∀ e, e ≠ c → v.getCore e = w.getCore e := fun e he => by simp [v, Ne.symm he]
  have hrest : v = { w with cores := v.cores, act := v.act, acts := v.acts } := by
    simp only [v, State.putAct]; split <;> rfl
  refine ⟨hself, ?_, fun e he => (h.others e he).trans (hothers e he), ?_, ?_, ?_, fun e j y hj hne' hy hw => ?_⟩
  · have := h.rest
    rw [hrest] at this
    exact this
  · have := h.here
    rw [hcore] at this
    exact this
  · rw [h.msgs, hstore]
    exact map_mapPast (f := fun m : Stored => { m with slot := none }) _ (fun _ => rfl) 7 _
  · rw [h.reserved k hne, reservedOf, hstore]
    exact filter_mapPast (by simp) 7 _
  · have hslot : 64 * c + k ≠ 64 * e + j := by rintro h; exact hne' (by omega)
    rw [h.findAct e j, hfind, if_neg hslot, hy]
    intro x hx hxe
    obtain ⟨hx64, hx2, g, hg⟩ := hwait x hx
    obtain ⟨rfl, rfl⟩ : c = e ∧ x.1 = j := by omega
    rw [hfind, if_neg hslot, hy, Option.some.injEq] at hx2
    exact hw rfl g (hx2 ▸ hg)

/-! A hardware dump. -/

/-- An activation as its dump leaves it in its slot (21 R319). -/
def dumpedRest (s : State) (a : Act) : Act :=
  { a with
    status := .saved true (decide (a.status = .parked)), preempt := none, wait := none,
    regs := { Regs.start with holdc := a.regs.holdc, eval := if a.halt = .hit .breakpoint then a.regs.eval else 0 },
    due := dueAtSave s a, decided := false, halt := if a.halt = .step then .group else a.halt }

/-- The state in which the dumped activation takes its slot again: its step reported if it had not issued, its end traced. -/
def dumpTraced (u : State) (c k : Nat) (a : Act) : State :=
  let v := stepLost u c k a
  traceRecord { v with free := v.free + 1 } a c k true (Config.openValue v.free)

/-- What the dump of an activation writes to its record's address. -/
def dumpWrite (s : State) (c k : Nat) (a : Act) (va : Word) : Acc State :=
  recordWriteAll s a.dom (clusterOf c) c va 32
    (recordBytes a (decide (a.status = .parked)) (if (dueAtSave s a).isSome then dueBit else 0) (0, 0)
      (reservedOf (s.getCore c) k))

section
variable {s : State} {c k : Nat} {a : Act}

theorem dumpAct_noRecord (h : recordAddr s c k = none) : dumpAct s c k a = haltAt s c k a.dom 2 := by
  simp only [dumpAct, h]

variable {va : Word} (h : recordAddr s c k = some va)
include h

theorem dumpAct_wait {pl : Nat} (hr : dumpWrite s c k a va = .error (.wait pl)) : dumpAct s c k a = askBack s pl := by
  unfold dumpWrite at hr
  simp only [dumpAct, h, hr]

theorem dumpAct_fault {x : Cause} {v : Word} {z : State} (hr : dumpWrite s c k a va = .error (.fault x v z)) :
    dumpAct s c k a = haltAt (keepTraffic s z) c k a.dom 2 := by
  unfold dumpWrite at hr
  simp only [dumpAct, h, hr]

theorem dumpAct_ok {u : State} (hr : dumpWrite s c k a va = .ok u) :
    dumpAct s c k a = keepSeven ((dumpTraced u c k a).putAct c k (dumpedRest s a)) c k := by
  unfold dumpWrite at hr
  simp only [dumpAct, h, hr]
  rfl

end

theorem dumpTraced_reports (u : State) (c k : Nat) (a : Act) : ReportsOnly u (dumpTraced u c k a) :=
  ((stepLost_reports u c k a).trans (draw_access _).reports).trans (traceRecord_reports ..)

/-- A dump leaves the activation due for resumption: its request was for its quota, and its domain is no longer held. -/
def dumpDue (s : State) (a : Act) : Bool :=
  match a.preempt with
  | some p => decide (p.why = .quota) && !(s.getDom a.dom).held
  | none => false

theorem dueAtSave_eq (s : State) (a : Act) : dueAtSave s a = if dumpDue s a = true then some s.time else none := by
  unfold dueAtSave dumpDue
  cases a.preempt <;> rfl

/-- The bytes of the record, DUE written as the spec's table gives it. -/
theorem dumpWrite_eq (s : State) (c k : Nat) (a : Act) (va : Word) : dumpWrite s c k a va =
    recordWriteAll s a.dom (clusterOf c) c va 32 (recordBytes a (decide (a.status = .parked))
      (if dumpDue s a = true then BitVec.ofNat 64 (2 ^ 9) else 0) (0, 0) (reservedOf (s.getCore c) k)) := by
  have hx : (if (dueAtSave s a).isSome then dueBit else 0) = if dumpDue s a = true then BitVec.ofNat 64 (2 ^ 9) else 0 := by
    rw [dueAtSave_eq]; cases dumpDue s a <;> rfl
  rw [dumpWrite, hx]

/-- What a dump leaves, in every case of its record's write. -/
theorem dumpAct_leaves (s : State) (c k : Nat) (a : Act) : Clauses.DumpLeaves s (dumpAct s c k a) c k a := by
  refine ⟨dumpAct_noRecord, fun va h => ?_⟩
  have hr := dumpWrite_eq s c k a va
  refine ⟨fun _ hw => dumpAct_wait h (hr.trans hw), fun _ _ _ hw => dumpAct_fault h (hr.trans hw), fun u hw f hk => ?_⟩
  have hw : dumpWrite s c k a va = .ok u := hr.trans hw
  have hu : FormOk u := ((recordWriteAll_within ..).ok hw).formOk f
  obtain ⟨hfind, hkept⟩ := keepSeven_recordKept ((dumpTraced_reports u c k a).formOk hu) (c := c) hk (b := dumpedRest s a) rfl
  rw [dumpAct_ok h hw]
  refine ⟨?_, hkept⟩
  rw [hfind, dumpedRest, dueAtSave_eq]
  rfl

end Sys2Proof.Machine
end

section
/-!
Ageing, the end of a budget, and the limit of a save routine (03 R64 R70 R73, 21 R313-R319).
-/
namespace Sys2Proof.Machine

theorem modAct_eq {s : State} {c k : Nat} {a : Act} (h : s.findAct c k = some a) (f : Act → Act) :
    s.modAct c k f = s.putAct c k (f a) := by simp only [State.modAct, h]

/-- Selecting an occupied slot gives its activation the turn. -/
theorem select_of_findAct {s : State} (f : FormOk s) {c k : Nat} (hk : k < 64) {a : Act} (h : s.findAct c k = some a) :
    (s.select c k).live = true ∧ (s.select c k).act = a ∧ (s.select c k).core = c ∧ (s.select c k).slot = k := by
  have hslot := f.2.1
  unfold State.findAct at h
  unfold State.select
  by_cases hs : (s.live && decide (64 * c + k = 64 * s.core + s.slot)) = true
  · rw [if_pos hs] at h ⊢
    simp only [Bool.and_eq_true, decide_eq_true_eq] at hs
    refine ⟨hs.1, Option.some.inj h, ?_, ?_⟩ <;> omega
  · rw [if_neg hs] at h ⊢
    have hfind : tabFind (if s.live then tabPut s.acts (64 * s.core + s.slot) s.act else s.acts) (64 * c + k) = some a := by
      split
      · next hl =>
        have hne : ¬ 64 * s.core + s.slot = 64 * c + k := fun e => hs (by simp [hl, e])
        rw [tabFind_tabPut, if_neg hne, h]
      · exact h
    simp only [hfind]
    exact ⟨trivial, trivial, trivial, trivial⟩

/-! A parked activation's record. -/

/-- A tenant's trap message changes, of its activation, only what tells who may answer it (21 R310). -/
theorem sendTrap_findAct {s : State} {c k : Nat} {b : Act} (h : s.findAct c k = some b) (ht : isTenant b.dom = true) :
    ∃ n o, (sendTrap s c k b).findAct c k = some { b with trapKernel := n, trapOut := o } := by
  have sent : ∀ f : Act → Act, ∀ t, ReportsOnly (s.modAct c k f) t → t.findAct c k = some (f b) := fun f t hr => by
    rw [hr.findAct, modAct_eq h]; exact State.findAct_putAct ..
  unfold sendTrap
  split
  · exact ⟨b.trapKernel, b.trapOut, h⟩
  · split
    · exact ⟨_, _, sent _ _ ((trapRelease_reports ..).trans (deviceSend_reports ..))⟩
    · exact ⟨_, _, sent _ _ ((trapRelease_reports ..).trans (notice_reports ..))⟩

/-- A tenant's activation that no request waits for parks where it stands (21 R307). -/
theorem park_findAct {u : State} {a : Act} (hl : u.live = true) (hp : a.preempt = none) (ht : isTenant a.dom = true) :
    ∃ n o, (park u a).findAct u.core u.slot = some { a with
      status := .parked, wait := none, saving := none, halt := .none, noBreak := false, trapKernel := n, trapOut := o } := by
  have h : ({ u with act := { a with status := .parked, wait := none, saving := none, halt := .none, noBreak := false } } :
      State).findAct u.core u.slot = some { a with status := .parked, wait := none, saving := none, halt := .none, noBreak := false } := by
    simp [State.findAct, hl]
  obtain ⟨n, o, hs⟩ := sendTrap_findAct h ht
  refine ⟨n, o, ?_⟩
  unfold park
  dsimp only
  have hd : ∀ t : State, t.findAct u.core u.slot = some { a with
      status := .parked, wait := none, saving := none, halt := .none, noBreak := false, trapKernel := n, trapOut := o } →
      dumpParked t u.core u.slot = t := fun t e => by simp only [dumpParked, e, hp]
  rw [hd _ hs]
  split
  · rw [(stepReport_reports ..).findAct]; exact hs
  · exact hs

/-! The three device steps on an activation. -/

section
variable {s : State} {c k : Nat} {a : Act} (h : s.findAct c k = some a)
include h

theorem priorityAgeing_ready (hs : a.status = .running) (hw : a.wait = none) (hh : a.halt = .none)
    (hd : (s.getDie (dieOf c)).stopped = false) :
    Steps (.priorityAgeing c k) s (s.putAct c k { a with aged := agedClass s a }) := by
  simp only [Steps, exec, execPriorityAgeing, modAct_eq h, hs, hw, hh, hd]
  rfl

theorem priorityAgeing_still
    (hn : (s.getDie (dieOf c)).stopped = true ∨ a.status ≠ .running ∨ a.wait ≠ none ∨ a.halt ≠ .none) :
    Steps (.priorityAgeing c k) s (s.putAct c k a) := by
  have hf : ¬ (a.status = .running ∧ a.wait = none ∧ a.halt = .none ∧ (!(s.getDie (dieOf c)).stopped) = true) := by
    rintro ⟨hs, hw, hh, hd⟩
    rcases hn with hn | hn | hn | hn
    · simp [hn] at hd
    · exact hn hs
    · exact hn hw
    · exact hn hh
  simp only [Steps, exec, execPriorityAgeing, modAct_eq h, if_neg hf]

theorem pbudgetExpiry_over (hb : budgetOver s c a s.time = true) : Steps (.pbudgetExpiry c k) s (dumpAct s c k a) := by
  simp only [Steps, exec, execPbudgetExpiry, h, hb, if_true]

theorem pbudgetExpiry_not_over (hb : budgetOver s c a s.time = false) : Steps (.pbudgetExpiry c k) s s := by
  simp only [Steps, exec, execPbudgetExpiry, h, hb]
  rfl

theorem saveRoutineLimit_spent {run : SaveRun} (hr : a.saving = some run) (hs : a.status = .running)
    (hn : 4096 ≤ run.retired) (hd : (s.getDie (dieOf c)).stopped = false) :
    Steps (.saveRoutineLimit c k) s (saveEnd (s.select c k) run) := by
  simp only [Steps, exec, execSaveRoutineLimit, h, hr, hs, hn, hd]
  rfl

theorem saveRoutineLimit_still (hn : ∀ run, a.saving = some run → run.retired < 4096 ∨ (s.getDie (dieOf c)).stopped = true) :
    Steps (.saveRoutineLimit c k) s s := by
  simp only [Steps, exec, execSaveRoutineLimit, h]
  split
  · rfl
  · next run hr =>
    rw [if_neg]
    rintro ⟨-, hn', hd⟩
    rcases hn run hr with h1 | h1
    · omega
    · simp [h1] at hd

end

theorem budgetOver_eq {s : State} {c : Nat} {a : Act} {p : Preempt} (hp : a.preempt = some p) (now : Nat) :
    budgetOver s c a now = (reaches a p && a.saving.isNone && decide (p.at_ + p.budget ≤ now) && atBoundary a &&
      !(s.getDie (dieOf c)).stopped) := by
  simp only [budgetOver, hp]

theorem budgetOver_stopped {s : State} {c : Nat} (h : (s.getDie (dieOf c)).stopped = true) (a : Act) (now : Nat) :
    budgetOver s c a now = false := by
  unfold budgetOver
  split
  · rfl
  · simp [h]

theorem runnable_of_budgetOver {s : State} {c : Nat} {a : Act} (h : budgetOver s c a s.time = true) : runnable s c a = false := by
  simp [runnable, h]

/-- Settles O52: each of the three steps acts under its own test, and what a dump leaves and how a trap parks are said once
for every step that dumps or parks. -/
theorem preemption : Obligations.Preemption := by
  unfold Obligations.Preemption
  intro core slot a s h running
  refine ⟨fun hrun hw hh => ?_, fun hn => ?_, fun p hp hs hd hsave hb hover => ?_, fun p hp hlt => ?_, fun hd => ?_,
    fun run hrun f hk hsave hspent hp hlo hhi => ?_, fun run hsave hlt => ?_⟩
  · exact ⟨_, priorityAgeing_ready h hrun.1 hw hh hrun.2, State.findAct_putAct .., State.putAct_cores .., State.putAct_mem ..⟩
  · exact ⟨_, priorityAgeing_still h hn, State.findAct_putAct .., State.putAct_cores .., State.putAct_mem ..⟩
  · have hreach : reaches a p = true := by
      simpa [reaches] using hs
    have hbudget : budgetOver s core a s.time = true := by
      simp [budgetOver_eq hp, hreach, hsave, hb, hover, hd]
    exact ⟨⟨_, pbudgetExpiry_over h hbudget, dumpAct_leaves ..⟩, runnable_of_budgetOver hbudget⟩
  · have hbudget : budgetOver s core a s.time = false := by
      have hle : ¬ p.at_ + p.budget ≤ s.time := Nat.not_le.mpr hlt
      simp [budgetOver_eq hp, hle]
    exact pbudgetExpiry_not_over h hbudget
  · exact ⟨pbudgetExpiry_not_over h (budgetOver_stopped hd a s.time), saveRoutineLimit_still h fun _ _ => .inr hd⟩
  · obtain ⟨hl, hact, hcore, hslot⟩ := select_of_findAct f hk h
    have htenant : isTenant a.dom = true := by simp [isTenant, hlo, hhi]
    obtain ⟨n, o, hpark⟩ := park_findAct (a := { a with regs := saveFaultRegs a.regs run 0 a.pc, pc := run.addr, owed := 0, btarget := 0 })
      hl hp htenant
    rw [hcore, hslot, ← hact] at hpark
    refine ⟨_, _, saveRoutineLimit_spent h hsave hrun.1 hspent hrun.2, hpark, rfl, rfl, rfl, rfl, rfl, rfl, ?_, rfl, ?_⟩
    · simp [saveFaultRegs, hact]
    · rw [hact]; rfl
  · exact saveRoutineLimit_still h fun r hr => .inl (by rw [hsave] at hr; exact Option.some.inj hr ▸ hlt)

end Sys2Proof.Machine
end

section
/-!
A stolen record that its thief can neither start nor push on its deque goes to the ring (03 R62). A ring's slot has 64 bytes
(R57), so the write is of eight words, while O51 names all the words of the record, which it does not bound.
-/
namespace Sys2Proof.Machine

/-- An answer of nine words, the ninth of them not zero. -/
def nineWords : List Word := List.replicate 9 1

/-- A core that may start nothing, its deque full and its ring empty: the ring's only slot is at address 0, whose line L2
holds. An answer of nine words waits for it. -/
def nineWordAnswer : State :=
  { State.reset with
    cores := [(0, { Core.blank with
      deque := List.replicate 64 [],
      actors := [(15, { kernel := true, conc := true, spoff := 0, spsize := 0, mbase := 0, msize := 0, dqbase := 0, dqlog := 0,
                        steal := 1, savebase := 0, tags := [] })],
      steal := { slot := some 0, last := 0, left := [], active := true, retry := 0 } })],
    l2 := [(0, { dom := 0, vl := 0, data := 0, dirty := false, perms := { r := true, w := true, x := true, k := false },
                 keyid := 0, gen := 0, way := 0 })],
    steals := [{ thief := 0, victim := 1, answer := some nineWords }] }

/-- The first bit past the ring's slot in the line that holds it. -/
def pastSlot (s : State) : Bool := (tabFind s.l2 0).any fun l => l.data.getLsbD 512

/-- The same core with the answer taken off the network. -/
def nineWordsTaken : State :=
  ({ nineWordAnswer with steals := nineWordAnswer.steals.eraseIdx 0 } : State).modCore 0 fun x =>
    { x with steal := { x.steal with slot := none, left := [], active := false, retry := 0 } }

/-- A write of every word of the answer reaches past the slot. -/
theorem nineWords_written : ∃ u, devWrite nineWordsTaken 0 (clusterOf 0) 0 (ringSlotAddr nineWordAnswer 0 0)
    (wordBytes (nineWords ++ List.replicate (8 - nineWords.length) 0)) = .ok u ∧ pastSlot u = true := by
  have h : (match devWrite nineWordsTaken 0 (clusterOf 0) 0 (ringSlotAddr nineWordAnswer 0 0)
      (wordBytes (nineWords ++ List.replicate (8 - nineWords.length) 0)) with
    | .ok u => pastSlot u
    | .error _ => false) = true := by decide +kernel
  split at h
  · next u hu => exact ⟨u, hu, h⟩
  · simp at h

/-- The model's step writes the slot alone. -/
theorem nineWordAnswer_step {t : State} (h : Steps (.stealReply 0) nineWordAnswer t) : pastSlot t = false := by
  have hs : (match exec (.stealReply 0) nineWordAnswer with
    | .next t => pastSlot t
    | _ => true) = false := by decide +kernel
  unfold Steps at h
  rw [h] at hs
  exact hs

/-- Refutes O51: a ring slot holds eight words (03 R57), and the model writes no more of a record, where the statement has
the device write every word of a record of any length; a nine-word answer tells the two apart. -/
theorem not_stealing : ¬ Obligations.Stealing := by
  unfold Obligations.Stealing
  intro h
  obtain ⟨-, -, hreply⟩ := h nineWordAnswer
  obtain ⟨-, hreply⟩ := hreply 0 _ nineWords 0 rfl rfl rfl
  obtain ⟨-, hkept, -⟩ := hreply rfl
  obtain ⟨-, -, hring⟩ := hkept (by decide) (by decide)
  obtain ⟨u, hu, hpast⟩ := nineWords_written
  have hstep := hring (by decide) (by decide) u hu
  have hlow := nineWordAnswer_step hstep
  change pastSlot u = false at hlow
  rw [hpast] at hlow
  cases hlow

end Sys2Proof.Machine
end

section
/-!
Messages that reach their core (03 R43-R48, 21 R310 R327): where each goes.
-/
namespace Sys2Proof.Machine

section
variable {s : State} {i : Nat} {m : Msg}

/-- Nothing sent before through a message's entry to its tag is still on its way. -/
theorem overtakes_eq_false (h : ∀ o ∈ s.flight.take i, ¬ (o.reached = false ∧ o.src = m.src ∧ sameTag o m = true)) :
    overtakes (s.flight.take i) m = false := by
  have hn : ((s.flight.take i).any fun o => !o.reached && decide (o.src = m.src) && sameTag o m) = false := by
    simpa [List.any_eq_false, and_assoc] using h
  simp [overtakes, hn]

/-- Nothing that waits at a message's core, of its class or its tag, stands before it. -/
theorem mustWait_eq_false
    (h : ∀ o ∈ s.flight.take i, ¬ (o.reached = true ∧ o.core = m.core ∧ (msgClass s o = msgClass s m ∨ sameTag o m = true))) :
    mustWait s (s.flight.take i) m = false := by
  simpa [mustWait, List.any_eq_false, and_assoc] using h

/-- A message that is its tag's turn at its core is placed there. -/
structure Reaches (s : State) (i : Nat) (m : Msg) : Prop where
  here : s.flight[i]? = some m
  inOrder : overtakes (s.flight.take i) m = false
  first : mustWait s (s.flight.take i) m = false

/-- The state without a message in flight. -/
def landed (s : State) (i : Nat) : State := { s with flight := s.flight.eraseIdx i }

theorem Reaches.placed (h : Reaches s i m) {t : State} (hp : place (landed s i) m = .ok t) :
    Steps (.messageArrival i) s (trapPlaced t m) := by
  unfold landed at hp
  simp only [Steps, exec, execMessageArrival, arrive, h.here, h.inOrder, h.first, hp]
  rfl

theorem Reaches.noRoom (h : Reaches s i m) (hp : place (landed s i) m = .error none) :
    Steps (.messageArrival i) s (if isNotice m then s else waitHere s i m) := by
  unfold landed at hp
  simp only [Steps, exec, execMessageArrival, arrive, h.here, h.inOrder, h.first, hp]
  rfl

/-- A message through no trap endpoint lets no kernel answer. -/
theorem trapPlaced_of_plain (h : 256 * 1312 ≤ m.src ∨ m.src % 256 < 254) (t : State) : trapPlaced t m = t := if_pos h

theorem Reaches.placed_plain (h : Reaches s i m) (hplain : 256 * 1312 ≤ m.src ∨ m.src % 256 < 254) {t : State}
    (hp : place (landed s i) m = .ok t) : Steps (.messageArrival i) s t := by
  have := h.placed hp
  rwa [trapPlaced_of_plain hplain] at this

/-! A message for a loaded, present tag. -/

variable {e : TagEnt}

theorem place_loaded (hl : (s.getCore m.core).dom = some m.dom ∧ (findActor s m.core m.actor).isSome)
    (he : findTag s m.core m.actor m.tag = some e) : place s m = placeTag s m e := by
  simp [place, hl.1, hl.2, he]

/-- A message as it stands in a store or in the overflow buffer. -/
def arrivedMsg (s : State) (m : Msg) : Stored := { msg := { m with reached := true }, arrived := s.serial, slot := none }

/-- The arrival numbered. -/
def numbered (s : State) : State := { s with serial := s.serial + 1 }

variable (hovf : ∀ o ∈ (s.getCore m.core).ovf, sameTag o.msg m = false)
include hovf

theorem placeTag_store (hring : e.head = e.tail) (hroom : storeFull (s.getCore m.core) m.tag = false) :
    placeTag s m e = .ok (serveMpops ((numbered s).modCore m.core fun x => { x with store := x.store ++ [arrivedMsg s m] }) m.core) := by
  have hany : ((s.getCore m.core).ovf.any fun o => sameTag o.msg m) = false := by simpa [List.any_eq_false] using hovf
  simp only [placeTag, hany, hring, hroom]
  simp [numbered, arrivedMsg]

theorem placeTag_spill (hwait : e.head ≠ e.tail ∨ storeFull (s.getCore m.core) m.tag = true) (hfull : e.full = false)
    (hbroken : e.broken = false) {e' : TagEnt} {u : State} (hw : spillWrite (numbered s) m e s.serial = .ok (e', u)) :
    placeTag s m e = .ok (putTag u m.core m.actor m.tag e') := by
  have hany : ((s.getCore m.core).ovf.any fun o => sameTag o.msg m) = false := by simpa [List.any_eq_false] using hovf
  have hwait' : (decide (e.head ≠ e.tail) || storeFull (s.getCore m.core) m.tag) = true := by simpa using hwait
  unfold numbered at hw
  simp only [placeTag, hany, hwait', hfull, hbroken, hw]
  rfl

omit hovf

/-- With the tag's ring full the overflow buffer takes a message, if it has a place. -/
theorem placeTag_full (hfull : e.full = true) : placeTag s m e =
    if (s.getCore m.core).ovf.length < 8 then
      .ok ((numbered s).modCore m.core fun x => { x with ovf := x.ovf ++ [arrivedMsg s m] })
    else .error none := by
  have hwait : decide (e.head ≠ e.tail) = true := by
    have hpos : 0 < 2 ^ e.slog := Nat.two_pow_pos _
    simp only [TagEnt.full, decide_eq_true_eq] at hfull
    simp only [decide_eq_true_eq]
    omega
  simp only [placeTag, hwait, hfull, Bool.true_or, if_true, ite_self]
  rfl

theorem spillWrite_ends {n : Nat} {e' : TagEnt} {u : State} (h : spillWrite s m e n = .ok (e', u)) :
    e'.tail = e.tail + 1 ∧ e'.head = e.head := by
  unfold spillWrite at h
  dsimp only at h
  split at h
  · cases h
  · simp only [Except.ok.injEq, Prod.mk.injEq] at h
    rw [← h.1]
    exact ⟨rfl, rfl⟩

end

end Sys2Proof.Machine
end

section
/-!
Messages that reach their core, the clauses (03 R43-R48, 21 R310 R327), and the messages that move back (R46).
-/
namespace Sys2Proof.Machine

theorem getCore_modCore_self (s : State) (c : Nat) (f : Core → Core) : (s.modCore c f).getCore c = f (s.getCore c) := by simp

/-! Trap messages and homeless ones. -/

section
variable {s : State} {m : Msg}

/-- A trap message of an activation that waits for it lets the kernel it reached answer (21 R310). -/
theorem trapPlaced_act {c k : Nat} {y : Act} (hplain : ¬ (256 * 1312 ≤ m.src ∨ m.src % 256 < 254))
    (hw : (m.words.getD 4 0).toNat = 64 * c + k) (hc : c < 4096) (hk : k < 64) (hy : s.findAct c k = some y)
    (ho : y.trapOut = true) : trapPlaced s m = s.putAct c k { y with trapOut := false, trapKernel := m.dom } := by
  have hbit : (m.words.getD 4 0).getLsbD 63 = false := by
    rw [BitVec.getLsbD, hw]; exact Nat.testBit_lt_two_pow (by omega)
  have hcore : bitsOf (m.words.getD 4 0) 17 6 = c := by rw [bitsOf_eq, hw]; omega
  have hslot : bitsOf (m.words.getD 4 0) 5 0 = k := by rw [bitsOf_eq, hw]; omega
  simp only [trapPlaced, if_neg hplain, hbit, hcore, hslot, hy, ho]
  rfl

/-- A message for an actor that is neither loaded nor evicted is homeless (21 R325 R327). -/
theorem place_homeless (hl : ¬ ((s.getCore m.core).dom = some m.dom ∧ (findActor s m.core m.actor).isSome))
    (hr : ∀ r ∈ (s.getCore m.core).resident, ¬ (r.dom = m.dom ∧ r.index = m.actor)) :
    place s m = .ok (sendHomeless (numbered s) m) := by
  have hfind : ((s.getCore m.core).resident.reverse.find? fun r => decide (r.dom = m.dom) && decide (r.index = m.actor)) = none := by
    simpa [List.find?_eq_none] using hr
  have hload : ((s.getCore m.core).dom = some m.dom && (findActor s m.core m.actor).isSome) = false := by
    simpa using hl
  simp only [place, hload, placeAbsent, hfind]
  rfl

/-- A homeless message as it stands in its kernel's queue. -/
def homelessWait (m : Msg) : Waiting :=
  { kernel := kernelOf m.dom, homeless := true, score := 0, hdr := m.hdr, via := homelessVia m.core m.actor m.dom,
    words := m.words }

theorem sendHomeless_valid (h : (s.getDom (kernelOf m.dom)).homeless.getLsbD 63 = true) :
    sendHomeless s m = { s with flight := s.flight ++ [deviceMsg (s.getDom (kernelOf m.dom)).homeless (homelessWait m)] } := by
  simp only [sendHomeless, raise, deviceEndpoint, epValid, if_true, h]
  rfl

theorem sendHomeless_invalid (h : (s.getDom (kernelOf m.dom)).homeless.getLsbD 63 = false) :
    sendHomeless s m = { s with waiting := s.waiting ++ [homelessWait m] } := by
  simp only [sendHomeless, raise, deviceEndpoint, epValid, if_true, h]
  rfl

end

/-- s7 of a homeless message as one number (21 R327). -/
theorem homelessVia_eq {c a d : Nat} (hc : c < 2 ^ 12) (ha : a < 16) (hd : d < 256) :
    homelessVia c a d = BitVec.ofNat 64 (c + a * 2 ^ 12 + d * 2 ^ 16 + 2 ^ 24) := by
  have h1 : c ||| a <<< 12 = c + a * 2 ^ 12 := by
    rw [Nat.or_comm, ← Nat.shiftLeft_add_eq_or_of_lt hc, Nat.shiftLeft_eq]; omega
  have h2 : (c + a * 2 ^ 12) ||| d <<< 16 = c + a * 2 ^ 12 + d * 2 ^ 16 := by
    rw [Nat.or_comm, ← Nat.shiftLeft_add_eq_or_of_lt (show c + a * 2 ^ 12 < 2 ^ 16 by omega), Nat.shiftLeft_eq]; omega
  have h3 : (c + a * 2 ^ 12 + d * 2 ^ 16) ||| 1 <<< 24 = c + a * 2 ^ 12 + d * 2 ^ 16 + 2 ^ 24 := by
    rw [Nat.or_comm, ← Nat.shiftLeft_add_eq_or_of_lt (show c + a * 2 ^ 12 + d * 2 ^ 16 < 2 ^ 24 by omega), Nat.shiftLeft_eq]; omega
  rw [homelessVia, at_, at_, at_, at_, ← BitVec.ofNat_or, ← BitVec.ofNat_or, ← BitVec.ofNat_or, Nat.shiftLeft_zero, h1, h2, h3]

/-- Seven words of a message, cut to those it has. -/
theorem take_padTo {α : Type} (z : α) (n : Nat) (l : List α) : (padTo z n l).take l.length = l.take n := by
  rw [padTo, List.take_take, Nat.min_comm, ← List.take_take, List.take_left]

/-! What becomes of a message that reaches its core. -/

section
variable {s : State} {i : Nat} {m : Msg} (hr : Reaches s i m)
include hr

section
variable {e : TagEnt} (hl : (s.getCore m.core).dom = some m.dom ∧ (findActor s m.core m.actor).isSome)
  (he : findTag s m.core m.actor m.tag = some e)
include hl he

omit hr in
/-- The state with the message in its tag's queue. -/
theorem place_stored (ho : ∀ o ∈ (s.getCore m.core).ovf, sameTag o.msg m = false) (hring : e.head = e.tail)
    (hroom : storeFull (s.getCore m.core) m.tag = false) (hw : mpopWaiters s m.core = []) :
    place (landed s i) m = .ok ((numbered (landed s i)).modCore m.core fun x => { x with store := x.store ++ [arrivedMsg s m] }) := by
  have hserve := serveMpops_of_none (s := (numbered (landed s i)).modCore m.core fun x => { x with
    store := x.store ++ [arrivedMsg s m] }) (c := m.core) hw
  exact ((place_loaded (s := landed s i) hl he).trans (placeTag_store (s := landed s i) ho hring hroom)).trans
    (congrArg Except.ok hserve)

theorem arrival_spilled (hp : 256 * 1312 ≤ m.src ∨ m.src % 256 < 254)
    (ho : ∀ o ∈ (s.getCore m.core).ovf, sameTag o.msg m = false)
    (hwait : e.head ≠ e.tail ∨ storeFull (s.getCore m.core) m.tag = true) (hfull : e.full = false) (hbroken : e.broken = false)
    {e' : TagEnt} {u : State} (hw : spillWrite (numbered (landed s i)) m e s.serial = .ok (e', u)) :
    Steps (.messageArrival i) s (putTag u m.core m.actor m.tag e') :=
  hr.placed_plain hp ((place_loaded (s := landed s i) hl he).trans (placeTag_spill (s := landed s i) ho hwait hfull hbroken hw))

theorem arrival_overflow (hp : 256 * 1312 ≤ m.src ∨ m.src % 256 < 254) (hfull : e.full = true)
    (hroom : (s.getCore m.core).ovf.length < 8) : Steps (.messageArrival i) s
      ((numbered (landed s i)).modCore m.core fun x => { x with ovf := x.ovf ++ [arrivedMsg s m] }) :=
  hr.placed_plain hp (((place_loaded (s := landed s i) hl he).trans (placeTag_full hfull)).trans (if_pos hroom))

theorem arrival_waits (hfull : e.full = true) (hroom : 8 ≤ (s.getCore m.core).ovf.length) :
    Steps (.messageArrival i) s (if isNotice m then s else waitHere s i m) :=
  hr.noRoom (((place_loaded (s := landed s i) hl he).trans (placeTag_full hfull)).trans (if_neg (Nat.not_lt.mpr hroom)))

end

theorem arrival_homeless (hp : 256 * 1312 ≤ m.src ∨ m.src % 256 < 254)
    (hl : ¬ ((s.getCore m.core).dom = some m.dom ∧ (findActor s m.core m.actor).isSome))
    (hn : ∀ r ∈ (s.getCore m.core).resident, ¬ (r.dom = m.dom ∧ r.index = m.actor)) :
    Steps (.messageArrival i) s (sendHomeless (numbered (landed s i)) m) :=
  hr.placed_plain hp (place_homeless (s := landed s i) hl hn)

end

/-- A message that begins to wait at its core stands behind those that wait in the network (log 93). -/
theorem waitHere_eq (s : State) (i : Nat) {m : Msg} (h : m.reached = false) : waitHere s i m = { s with
    flight := (landed s i).flight.take (s.flight.countP fun o => o.reached) ++ { m with reached := true } ::
      (landed s i).flight.drop (s.flight.countP fun o => o.reached) } := by
  simp only [waitHere, h, List.countP_eq_length_filter]
  rfl

/-! The messages that move back. -/

/-- A tag's turn to move a message back has come where it has one, and the store has room (03 R46). -/
def canMove (s : State) (c n : Nat) : Bool :=
  match findTag s c (n / 16) (n % 16) with
  | some e => !storeFull (s.getCore c) (n % 16) && (decide (e.head ≠ e.tail) || !(ovfOf (s.getCore c) (n / 16) (n % 16)).isEmpty)
  | none => false

/-- The rotation after a tag's turn. -/
def turned (s : State) (c n : Nat) : State := s.modCore c fun x => { x with moved := some n }

/-- Where the rotation starts. -/
def moveStart (x : Core) : Nat := (x.moved.map fun n => n + 1).getD 0

/-- What a tag whose ring has nothing older moves back: its first message of the overflow buffer. -/
def moveOverflow (s : State) (c n : Nat) : State :=
  match takeFirst (fun (m : Stored) => decide (m.msg.actor = n / 16) && decide (m.msg.tag = n % 16)) (s.getCore c).ovf with
  | none => turned s c n
  | some (m, r) => serveMpops ((turned s c n).modCore c fun x => { x with ovf := r, store := x.store ++ [m] }) c

/-- The message at the head of a tag's spill ring, as it was spilled. -/
def ringHead (s : State) (c n : Nat) (e : TagEnt) : Stored :=
  e.ring.headD { msg := { dom := (s.getCore c).dom.getD 0, core := c, actor := n / 16, tag := n % 16, hdr := 0, words := [],
                          via := 0, src := 0, reached := true }, arrived := s.serial, slot := none }

/-- A spilled message with the header and the words that its slot's bytes hold. -/
def readBack (m : Stored) (bs : List Byte) : Stored :=
  { m with msg := { m.msg with hdr := (wordsOf 8 bs).headD 0, words := (wordsOf 8 bs).drop 1 } }

/-- What a tag moves back from its ring: the head, as its slot is read. -/
def moveRing (s : State) (c n : Nat) (e : TagEnt) : State :=
  let e' := { e with head := e.head + 1, ring := e.ring.drop 1 }
  match spillRead (turned s c n) ((s.getCore c).dom.getD 0) (clusterOf c) c
      (e.sbase + BitVec.ofNat 64 (64 * (e.head % 2 ^ e.slog))) 64 with
  | .error (.wait pl) => askBack (turned s c n) pl
  | .error (.fault _ _ _) => sendHomeless (putTag (turned s c n) c (n / 16) (n % 16) e') (ringHead s c n e).msg
  | .ok (bs, t) => serveMpops ((putTag t c (n / 16) (n % 16) e').modCore c fun x => { x with
      store := x.store ++ [readBack (ringHead s c n e) bs] }) c

section
variable {s : State} {c n : Nat} {e : TagEnt}

/-- A tag's turn: its ring, unless the overflow buffer holds an older message of it. -/
theorem moveBack_of_turn
    (hf : (((upto 256).map fun j => (moveStart (s.getCore c) + j) % 256).find? (canMove s c)) = some n)
    (he : findTag s c (n / 16) (n % 16) = some e) : moveBack s c =
      if e.head ≠ e.tail ∧ !ovfFirst (s.getCore c) (n / 16) (n % 16) e then moveRing s c n e else moveOverflow s c n := by
  have hmove : moveBack s c = match ((upto 256).map fun j => (moveStart (s.getCore c) + j) % 256).find? (canMove s c) with
      | none => s
      | some n => match findTag (turned s c n) c (n / 16) (n % 16) with
        | none => turned s c n
        | some e =>
          if e.head ≠ e.tail ∧ !ovfFirst (s.getCore c) (n / 16) (n % 16) e then moveRing s c n e else moveOverflow s c n := rfl
  have hturned : findTag (turned s c n) c (n / 16) (n % 16) = some e := by
    rw [← he]; simp [findTag, findActor, turned]
  rw [hmove, hf]
  simp only [hturned]

/-- The next tag in rotation that has a message to move and room for it has its turn. -/
theorem turn_found {start j : Nat} (hj : j < 256) (hc : canMove s c ((start + j) % 256) = true)
    (hn : ∀ k, k < j → canMove s c ((start + k) % 256) = false) :
    ((upto 256).map fun j => (start + j) % 256).find? (canMove s c) = some ((start + j) % 256) := by
  have hfind : (List.range 256).find? (canMove s c ∘ fun j => (start + j) % 256) = some j :=
    List.find?_range_eq_some.mpr ⟨hc, List.mem_range.mpr hj, fun k hk => by simp [hn k hk]⟩
  rw [List.find?_map, upto, hfind]
  rfl

/-- A tag can move a message where its ring or the overflow buffer has one, and the store has room. -/
theorem canMove_iff : canMove s c n = true ↔ ∃ e, findTag s c (n / 16) (n % 16) = some e ∧
    storeFull (s.getCore c) (n % 16) = false ∧
    (e.head ≠ e.tail ∨ ∃ o ∈ (s.getCore c).ovf, o.msg.actor = n / 16 ∧ o.msg.tag = n % 16) := by
  have hovf : (!(ovfOf (s.getCore c) (n / 16) (n % 16)).isEmpty) = true ↔
      ∃ o ∈ (s.getCore c).ovf, o.msg.actor = n / 16 ∧ o.msg.tag = n % 16 := by
    simp [ovfOf]
  unfold canMove
  split
  · next e he =>
    rw [Bool.and_eq_true, Bool.or_eq_true, hovf, Bool.not_eq_true', decide_eq_true_eq]
    exact ⟨fun h => ⟨e, he, h⟩, fun ⟨e', he', h⟩ => by rw [he, Option.some.injEq] at he'; exact he' ▸ h⟩
  · next he => simp [he]

theorem setCore_setCore (s : State) (c : Nat) (x y : Core) : (s.setCore c x).setCore c y = s.setCore c y := by
  have h : ∀ t : Tab Core, tabPut (tabPut t c x) c y = tabPut t c y := by
    intro t
    induction t with
    | nil => simp [tabPut]
    | cons z r ih =>
      simp only [tabPut]
      split
      · simp [tabPut]
      · split
        · simp [tabPut]
        · next h1 h2 => simp [tabPut, h1, h2, ih]
  simp only [State.setCore, h]

theorem moveOverflow_first {l1 l2 : List Stored} {m : Stored} (ho : (s.getCore c).ovf = l1 ++ m :: l2)
    (hm : m.msg.actor = n / 16 ∧ m.msg.tag = n % 16) (hn : ∀ o ∈ l1, ¬ (o.msg.actor = n / 16 ∧ o.msg.tag = n % 16))
    (hw : mpopWaiters s c = []) : moveOverflow s c n =
      s.modCore c fun x => { x with moved := some n, ovf := l1 ++ l2, store := x.store ++ [m] } := by
  have htake : takeFirst (fun (m : Stored) => decide (m.msg.actor = n / 16) && decide (m.msg.tag = n % 16)) (s.getCore c).ovf =
      some (m, l1 ++ l2) := by
    rw [ho]; exact takeFirst_append (by simpa using hn) (by simpa using hm)
  have hserve := serveMpops_of_none (s := (turned s c n).modCore c fun x => { x with ovf := l1 ++ l2, store := x.store ++ [m] })
    (c := c) hw
  unfold moveOverflow
  rw [htake]
  refine hserve.trans ?_
  simp only [turned, State.modCore_eq, State.getCore_setCore, setCore_setCore, if_true]

theorem mpopWaiters_access {t : State} (h : AccessOnly s t) (c : Nat) : mpopWaiters t c = mpopWaiters s c := by
  rw [h.rest]; rfl

theorem putTag_mpopWaiters (s : State) (c i t : Nat) (e : TagEnt) (b : Nat) : mpopWaiters (putTag s c i t e) b = mpopWaiters s b := by
  unfold putTag
  split <;> rfl

/-- A spill ring's slot that the device reads back. -/
theorem spillRead_within (s : State) (d m c : Nat) (va : Word) (n : Nat) : Within s Prod.snd (spillRead s d m c va n) := by
  have hplace := homePlace_within s d m true .load va false
  cases h : homePlace s d m true .load va false with
  | error e => rw [h] at hplace; simp only [spillRead, h]; exact hplace.fail _
  | ok a => simp only [spillRead, h]; exact (uncharged_access (hplace.ok h)).trans (homeServeAs_access ..)

theorem moveRing_ok {bs : List Byte} {u : State} (hw : mpopWaiters s c = [])
    (hr : spillRead (turned s c n) ((s.getCore c).dom.getD 0) (clusterOf c) c
      (e.sbase + BitVec.ofNat 64 (64 * (e.head % 2 ^ e.slog))) 64 = .ok (bs, u)) :
    moveRing s c n e = (putTag u c (n / 16) (n % 16) { e with head := e.head + 1, ring := e.ring.drop 1 }).modCore c fun x =>
      { x with store := x.store ++ [readBack (ringHead s c n e) bs] } := by
  have hu : mpopWaiters u c = [] := (mpopWaiters_access ((spillRead_within ..).ok hr) c).trans hw
  have hput := (putTag_mpopWaiters u c (n / 16) (n % 16) { e with head := e.head + 1, ring := e.ring.drop 1 } c).trans hu
  unfold moveRing
  simp only [hr]
  exact serveMpops_of_none hput

theorem moveRing_wait {pl : Nat}
    (hr : spillRead (turned s c n) ((s.getCore c).dom.getD 0) (clusterOf c) c
      (e.sbase + BitVec.ofNat 64 (64 * (e.head % 2 ^ e.slog))) 64 = .error (.wait pl)) :
    moveRing s c n e = askBack (turned s c n) pl := by
  simp only [moveRing, hr]

theorem ovfFirst_iff : ovfFirst (s.getCore c) (n / 16) (n % 16) e = true ↔
    ∃ o os r rs, ovfOf (s.getCore c) (n / 16) (n % 16) = o :: os ∧ e.ring = r :: rs ∧ o.arrived < r.arrived := by
  unfold ovfFirst
  split
  · next o os r rs ho hr => simp [ho, hr]
  · next h => 
    constructor
    · simp
    · rintro ⟨o, os, r, rs, ho, hr, -⟩
      exact absurd hr (h o os r rs ho)

end

/-- The words that bytes hold, by their place (00 R4). -/
theorem wordsOf_getD {n k : Nat} (h : k < n) (bs : List Byte) :
    (wordsOf n bs).getD k 0 = BitVec.ofNat 64 (leNat ((bs.drop (8 * k)).take 8)) := by
  induction n generalizing k bs with
  | zero => omega
  | succ n ih =>
    cases k with
    | zero => rfl
    | succ k =>
      rw [wordsOf, List.getD_cons_succ, ih (by omega), List.drop_drop, Nat.mul_succ, Nat.add_comm 8]

end Sys2Proof.Machine
end

section
/-!
The arrival of messages (03 R43-R48), clause by clause.
-/
namespace Sys2Proof.Machine

/-- The turn of a tag comes after those of the tags before it in rotation that can move nothing (03 R46). -/
theorem moveBack_turn {s : State} {core n j : Nat} {e : TagEnt} (hj : j < 256)
    (hn : n = (moveStart (s.getCore core) + j) % 256)
    (hbefore : ∀ k, k < j → canMove s core ((moveStart (s.getCore core) + k) % 256) = false)
    (he : findTag s core (n / 16) (n % 16) = some e) (hroom : storeFull (s.getCore core) (n % 16) = false)
    (hm : e.head ≠ e.tail ∨ ∃ o ∈ (s.getCore core).ovf, o.msg.actor = n / 16 ∧ o.msg.tag = n % 16) :
    Steps (.messageMoveBack core) s (if e.head ≠ e.tail ∧ !ovfFirst (s.getCore core) (n / 16) (n % 16) e then
      moveRing s core n e else moveOverflow s core n) := by
  have hcan : canMove s core n = true := canMove_iff.mpr ⟨e, he, hroom, hm⟩
  have hfind : (((upto 256).map fun j => (moveStart (s.getCore core) + j) % 256).find? (canMove s core)) = some n := by
    rw [hn] at hcan ⊢
    exact turn_found hj hcan hbefore
  rw [← moveBack_of_turn hfind he]
  rfl

/-- The overflow buffer's messages of a tag, where one of them is the first. -/
theorem ovfOf_append {x : Core} {l1 l2 : List Stored} {m : Stored} {i t : Nat} (ho : x.ovf = l1 ++ m :: l2)
    (hm : m.msg.actor = i ∧ m.msg.tag = t) (hn : ∀ o ∈ l1, ¬ (o.msg.actor = i ∧ o.msg.tag = t)) :
    ovfOf x i t = m :: ovfOf { x with ovf := l2 } i t := by
  have h1 : l1.filter (fun o => decide (o.msg.actor = i) && decide (o.msg.tag = t)) = [] := by
    simpa [List.filter_eq_nil_iff] using hn
  simp only [ovfOf, ho, List.filter_append, h1, List.nil_append, List.filter_cons, hm]
  simp

theorem readBack_word (r : Stored) (bs : List Byte) {k : Nat} (hk : k < 7) :
    (readBack r bs).msg.words.getD k 0 = BitVec.ofNat 64 (leNat ((bs.drop (8 * k + 8)).take 8)) := by
  have h := wordsOf_getD hk (bs.drop 8)
  rwa [List.drop_drop, Nat.add_comm 8] at h

/-- Where messages arrive and how they move back, each clause by the lemma on its case. -/
theorem messageArrivals : Clauses.MessageArrivals := by
  unfold Clauses.MessageArrivals
  refine ⟨fun i m s hm hov hwait => ?_, fun core n j e s => ?_⟩
  · have hr : Reaches s i m := ⟨hm, overtakes_eq_false hov, mustWait_eq_false hwait⟩
    intro x gone loaded plain
    refine ⟨fun e hp hl he ho hring hroom hw => ?_, fun e e' u hp hl he ho hw hfull hbroken hspill => ?_,
      fun e hl he hfull => ⟨fun hp hroom => ?_, fun hroom hn => ⟨fun hre => ?_, fun hre => ?_⟩, fun hroom hn => ?_⟩,
      fun e c k y hp hl he ho hring hroom hw hwords hc hk hy hout => ?_, fun hp hl hres => ?_⟩
    · exact ⟨_, arrivedMsg s m, hr.placed_plain hp (place_stored hl he ho hring hroom hw), rfl,
        congrArg Core.store (getCore_modCore_self ..), rfl, rfl, rfl⟩
    · exact ⟨arrival_spilled hr hl he hp ho hw hfull hbroken hspill, spillWrite_ends hspill⟩
    · have hcore := getCore_modCore_self (numbered (landed s i)) m.core fun x => { x with ovf := x.ovf ++ [arrivedMsg s m] }
      exact ⟨_, arrivedMsg s m, arrival_overflow hr hl he hp hfull hroom, rfl, congrArg Core.ovf hcore,
        (congrArg Core.store hcore).trans rfl, rfl⟩
    · have := arrival_waits hr hl he hfull hroom
      rwa [hn, if_neg Bool.false_ne_true, waitHere, if_pos hre] at this
    · have := arrival_waits hr hl he hfull hroom
      rwa [hn, if_neg Bool.false_ne_true, waitHere_eq s i hre] at this
    · have := arrival_waits hr hl he hfull hroom
      rwa [if_pos hn] at this
    · obtain ⟨t, hplace, hfind⟩ : ∃ t, place (landed s i) m = .ok t ∧ t.findAct c k = some y :=
        ⟨_, place_stored hl he ho hring hroom hw, hy⟩
      have hstep := hr.placed hplace
      rw [trapPlaced_act hp hwords hc hk hfind hout] at hstep
      exact ⟨_, hstep, State.findAct_putAct ..⟩
    · intro h via
      have hstep := arrival_homeless hr hp hl hres
      refine ⟨_, hstep, fun hv => ?_, fun hv => ?_⟩
      · rw [sendHomeless_valid (s := numbered (landed s i)) hv]
        exact ⟨rfl, _, rfl, rfl, rfl, rfl, rfl, rfl, homelessVia_eq, take_padTo 0 7 m.words⟩
      · rw [sendHomeless_invalid (s := numbered (landed s i)) hv]
        exact ⟨rfl, List.length_append⟩
  · intro x start ready hj hn hbefore he hroom hw of
    have hstart : start = moveStart x := by
      simp only [start, moveStart]; cases x.moved <;> rfl
    have hcan : ∀ k, k < j → canMove s core ((moveStart x + k) % 256) = false := fun k hk =>
      Bool.eq_false_iff.mpr fun h => hbefore k hk (hstart ▸ canMove_iff.mp h)
    have hturn := moveBack_turn (e := e) hj (hstart ▸ hn) hcan he hroom
    refine ⟨fun l1 l2 m ho hm hnone hring => ?_, fun r rest hne hring hage => ?_⟩
    · have hfirst : ¬ (e.head ≠ e.tail ∧ (!ovfFirst x (n / 16) (n % 16) e) = true) := by
        rintro ⟨hne, hov⟩
        obtain heq | ⟨r, rest, hr, hlt⟩ := hring
        · exact hne heq
        · rw [ovfFirst_iff.mpr ⟨m, _, r, rest, ovfOf_append ho hm hnone, hr, hlt⟩] at hov
          cases hov
      have := hturn (.inr ⟨m, by rw [ho]; simp, hm⟩)
      rwa [if_neg hfirst, moveOverflow_first ho hm hnone hw] at this
    · have hfirst : e.head ≠ e.tail ∧ (!ovfFirst x (n / 16) (n % 16) e) = true := by
        refine ⟨hne, ?_⟩
        rw [Bool.not_eq_true', Bool.eq_false_iff, Ne, ovfFirst_iff]
        rintro ⟨o, os, r', rs, ho, hr, hlt⟩
        have hmem : o ∈ ovfOf x (n / 16) (n % 16) := by rw [ho]; simp
        simp only [ovfOf, List.mem_filter, Bool.and_eq_true, decide_eq_true_eq] at hmem
        have hle := hage o hmem.1 hmem.2
        rw [hring] at hr
        cases hr
        omega
      have hstep := hturn (.inl hne)
      rw [if_pos hfirst] at hstep
      refine ⟨fun bs u hslot => ?_, fun line hslot => ?_⟩
      · rw [moveRing_ok hw hslot] at hstep
        have hhead : ringHead s core n e = r := by rw [ringHead, hring]; rfl
        have hdrop : e.ring.drop 1 = rest := by rw [hring]; rfl
        rw [hhead, hdrop] at hstep
        exact ⟨_, hstep, rfl, rfl, rfl, rfl, fun _ k hk => readBack_word r bs hk⟩
      · rwa [moveRing_wait hslot] at hstep

end Sys2Proof.Machine
end

section
/-!
What starts on a core (03 R49-R58 R71 R72, 21 R316): the start state's registers, and what a start leaves of its core.
-/
namespace Sys2Proof.Machine

/-! Lists. -/

/-- A change that undoes the test takes the first `n` from those that pass it. -/
theorem filter_mapFirst {α : Type} {p : α → Bool} {f : α → α} (h : ∀ a, p (f a) = false) (n : Nat) (l : List α) :
    (mapFirst p f n l).filter p = (l.filter p).drop n := by
  induction l generalizing n with
  | nil => cases n <;> simp [mapFirst]
  | cons a r ih =>
    cases n with
    | zero => simp [mapFirst]
    | succ n =>
      simp only [mapFirst]
      split
      · next ha => simp [h, ha, ih]
      · next ha => simp [ha, ih]

theorem filter_dropNth_zero {α : Type} (p : α → Bool) (l : List α) : (dropNth p 0 l).filter p = (l.filter p).drop 1 := by
  induction l with
  | nil => rfl
  | cons a r ih =>
    simp only [dropNth]
    split
    · next ha => simp only [Bool.not_eq_true'] at ha; simp [ha, ih]
    · next ha => simp only [Bool.not_eq_true', Bool.not_eq_false] at ha; simp [ha]

theorem minBy_mem {α : Type} {key : α → Nat} {l : List α} {a : α} (h : minBy key l = some a) : a ∈ l := by
  induction l generalizing a with
  | nil => simp [minBy] at h
  | cons b r ih =>
    simp only [minBy] at h
    split at h
    · simp_all
    · next c hc =>
      split at h
      · cases h; exact List.mem_cons_of_mem _ (ih hc)
      · cases h; exact List.mem_cons_self

/-! Registers written by a list. -/

/-- The value a list gives a register last. -/
def lastWritten (l : List (Nat × Word)) (i : Nat) : Option Word := (l.reverse.find? fun x => decide (x.1 = i)).map fun x => x.2

theorem withS_reg (r : Regs) (l : List (Nat × Word)) {i : Nat} (hi : i < 64) :
    (r.withS l).s.toArray.getD i 0 = (lastWritten l i).getD (r.s.toArray.getD i 0) := by
  have h : ∀ v : Vector Word 64, (l.foldl (fun (v : Vector Word 64) x => v.setIfInBounds x.1 x.2) v).toArray.getD i 0 =
      (lastWritten l i).getD (v.toArray.getD i 0) := by
    induction l with
    | nil => intro v; rfl
    | cons x l ih =>
      intro v
      rw [List.foldl_cons, ih]
      simp only [lastWritten, List.reverse_cons, List.find?_append]
      cases hl : l.reverse.find? fun x => decide (x.1 = i) with
      | some y => simp
      | none =>
        by_cases hx : x.1 = i
        · simp [hx, hi, Array.getD]
        · simp [hx, hi, Array.getD]
  exact h r.s

/-! Starts. -/

/-- Of the messages that wait at their cores, a notice or a homeless message changes none. -/
theorem raise_waits {p : Msg → Bool} (hp : ∀ m, p m = true → m.reached = true) (s : State) (w : Waiting) :
    (raise s w).flight.filter p = s.flight.filter p := by
  have hd : ∀ e, p (deviceMsg e w) = false := fun e => Bool.eq_false_iff.mpr fun h => by cases hp _ h
  unfold raise
  dsimp only
  split
  · have hf : (if w.homeless then s else chargeNotice s (epPlace (deviceEndpoint s w.kernel w.homeless))).flight = s.flight := by
      split
      · rfl
      · have := (chargeDevice_access s 160 [(1, 8), (hops hubPlace (epPlace (deviceEndpoint s w.kernel w.homeless)), 9)]).rest
        unfold chargeNotice
        rw [this]
    rw [List.filter_append, hf, List.filter_singleton, hd]
    simp
  · rfl

theorem traceRecord_waits {p : Msg → Bool} (hp : ∀ m, p m = true → m.reached = true) (s : State) (a : Act) (c k : Nat) (fin : Bool)
    (addr : Word) : (traceRecord s a c k fin addr).flight.filter p = s.flight.filter p := by
  unfold traceRecord
  split
  · rfl
  · split
    · rfl
    · dsimp only
      split
      · exact raise_waits hp ..
      · unfold physWrite
        split
        · rfl
        · rw [(physStore_access ..).rest]

/-- A new activation as it stands in its slot: numbered, charged, under its domain's modes. -/
def startedAct (s : State) (c : Nat) (a : Act) : Act :=
  { a.readied s with
    serial := s.serial, modes := (s.getDom a.dom).modes,
    eu := (chargeWith s ((s.getDom a.dom).modes.getLsbD 5) a.dom (clusterOf c) 1 1 [(1, 7)]).1 }

/-- One more activation numbered, and one more issue counted. -/
def countStart (s : State) : State := { s with serial := s.serial + 1, issues := s.issues + 1 }

@[simp] theorem countStart_getCore (s : State) (c : Nat) : (countStart s).getCore c = s.getCore c := rfl
@[simp] theorem countStart_flight (s : State) : (countStart s).flight = s.flight := rfl

/-- A start charges, numbers the activation and the issue, and puts it in its slot; its trace record follows. -/
theorem startAct_eq (s : State) (c k : Nat) (a : Act) : ∃ u, AccessOnly s u ∧
    startAct s c k a = traceRecord ((countStart u).putAct c k (startedAct s c a))
      (startedAct s c a) c k false (startedAct s c a).entry := by
  have h := chargeWith_access s ((s.getDom a.dom).modes.getLsbD 5) a.dom (clusterOf c) 1 1 [(1, 7)]
  refine ⟨_, h, ?_⟩
  have ha : startedAct s c a = { a.readied (chargeWith s ((s.getDom a.dom).modes.getLsbD 5) a.dom (clusterOf c) 1 1 [(1, 7)]).2 with
      serial := (chargeWith s ((s.getDom a.dom).modes.getLsbD 5) a.dom (clusterOf c) 1 1 [(1, 7)]).2.serial,
      modes := ((chargeWith s ((s.getDom a.dom).modes.getLsbD 5) a.dom (clusterOf c) 1 1 [(1, 7)]).2.getDom a.dom).modes,
      eu := (chargeWith s ((s.getDom a.dom).modes.getLsbD 5) a.dom (clusterOf c) 1 1 [(1, 7)]).1 } := by
    rw [h.rest]; rfl
  rw [ha]
  rfl

section
variable (s : State) (c k : Nat) (a : Act)

theorem startAct_findAct : (startAct s c k a).findAct c k = some (startedAct s c a) := by
  obtain ⟨u, -, he⟩ := startAct_eq s c k a
  rw [he, (traceRecord_reports ..).findAct]
  exact State.findAct_putAct ..

theorem startAct_getCore (e : Nat) : (startAct s c k a).getCore e = { s.getCore e with
    l1 := ((startAct s c k a).getCore e).l1, l1i := ((startAct s c k a).getCore e).l1i,
    pending := ((startAct s c k a).getCore e).pending, endpoints := ((startAct s c k a).getCore e).endpoints,
    inj := ((startAct s c k a).getCore e).inj } := by
  obtain ⟨u, hu, he⟩ := startAct_eq s c k a
  have h1 := hu.reports.core e
  have h2 := (traceRecord_reports ((countStart u).putAct c k (startedAct s c a))
    (startedAct s c a) c k false (startedAct s c a).entry).core e
  rw [← he, State.putAct_getCore, countStart_getCore, h1] at h2
  exact h2

theorem startAct_waits {p : Msg → Bool} (hp : ∀ m, p m = true → m.reached = true) :
    (startAct s c k a).flight.filter p = s.flight.filter p := by
  obtain ⟨u, hu, he⟩ := startAct_eq s c k a
  rw [he, traceRecord_waits hp, State.putAct_flight, countStart_flight, hu.rest]

end

end Sys2Proof.Machine
end

section
/-!
Firings and pops (03 R50 R51 R57): the activation each starts, and what it takes from its core.
-/
namespace Sys2Proof.Machine

/-- What every start leaves of its activation, whatever starts it (03 R58, 21 R316). -/
def FreshStart (s : State) (c k : Nat) (a : Act) : Prop :=
  a.dom = (s.getCore c).dom.getD 0 ∧ a.status = .running ∧ a.wait = none ∧ a.preempt = none ∧ a.owed = 0 ∧ a.aged = a.prio ∧
  a.serial = s.serial ∧ a.modes = (s.getDom ((s.getCore c).dom.getD 0)).modes ∧ a.halt = .none ∧ a.lastIssue = s.issues + 1 ∧
  a.ready = s.time ∧ a.regs.s.toArray.getD 2 0 = stackTop c k ∧ a.regs.s.toArray.getD 6 0 = identity c k ∧
  a.regs = { Regs.start with s := a.regs.s }

theorem startedAct_fresh {s u : State} {c k : Nat} {a : Act} {l : List (Nat × Word)}
    (hs : u.serial = s.serial ∧ u.issues = s.issues ∧ u.time = s.time ∧ ∀ d, u.getDom d = s.getDom d)
    (ha : a = { Act.blank with
      regs := Regs.start.withS l, pc := a.pc, dom := (s.getCore c).dom.getD 0, kernel := a.kernel, prio := a.prio,
      actor := a.actor, tag := a.tag, s5 := a.s5, entry := a.entry, route := a.route })
    (h2 : lastWritten l 2 = some (stackTop c k)) (h6 : lastWritten l 6 = some (identity c k)) :
    FreshStart s c k (startedAct u c a) := by
  obtain ⟨hserial, hissues, htime, hdom⟩ := hs
  have hreg : ∀ i w, i < 64 → lastWritten l i = some w → a.regs.s.toArray.getD i 0 = w := fun i w hi h => by
    rw [ha]; exact (withS_reg Regs.start l hi).trans (by rw [h]; rfl)
  have hr2 := hreg 2 _ (by decide) h2
  have hr6 := hreg 6 _ (by decide) h6
  unfold FreshStart startedAct Act.readied
  rw [hserial, hissues, htime, hdom]
  refine ⟨?_, ?_, ?_, ?_, ?_, rfl, rfl, ?_, ?_, rfl, rfl, hr2, hr6, ?_⟩ <;> rw [ha] <;> rfl

/-! Firings. -/

/-- A firing's claim: its first message has left the store, the next `fire - 1` are its slot's, and each message's sender is
acquired from. -/
def claimed (s : State) (c k d i t n : Nat) : State :=
  ((queueOf (s.getCore c) d i t).take n).foldl (fun s m => acquire s c d (claimScope c m.msg)) (claim s c k d i t n)

theorem claimed_access (s : State) (c k d i t n : Nat) : AccessOnly (claim s c k d i t n) (claimed s c k d i t n) :=
  AccessOnly.foldl (fun _ _ => acquire_access ..) _ _

theorem claimed_queueOf (s : State) (c k d i t : Nat) {n : Nat} (hn : 1 ≤ n) :
    queueOf ((claimed s c k d i t n).getCore c) d i t = (queueOf (s.getCore c) d i t).drop n := by
  have h : ∀ m : Stored, Stored.waits d i t { m with slot := some k } = false := fun m => by simp [Stored.waits]
  rw [queueOf, (claimed_access ..).reports.store, claim, getCore_modCore_self, filter_mapFirst h, filter_dropNth_zero,
    List.drop_drop, queueOf]
  congr 1
  omega

/-- S5 of a firing: the messages it claims, the messages that stay, and its tag (03 R51). -/
def firingWord (s : State) (c i t n : Nat) : Word := at_ n 12 ||| at_ (min 255 (pendingOf s c i t)) 4 ||| at_ t 0

/-- The registers that a firing sets (03 R51). -/
def firingRegs (s : State) (c k i t n : Nat) (x : Actor) (m : Stored) : List (Nat × Word) :=
  [(2, stackTop c k), (3, BitVec.ofNat 64 x.spoff), (4, m.msg.hdr), (5, firingWord s c i t n), (6, identity c k), (7, m.msg.via)] ++
    (upto 7).map fun i => (8 + i, m.msg.words.getD i 0)

/-- The activation that a firing starts, before its start numbers it. -/
def firedAct (s : State) (c k d i t : Nat) (x : Actor) (e : TagEnt) (m : Stored) : Act :=
  { Act.blank with
    regs := Regs.start.withS (firingRegs s c k i t e.fire x m), pc := e.entry, dom := d, kernel := x.kernel, prio := e.prio,
    actor := some i, tag := t, s5 := firingWord s c i t e.fire, entry := e.entry, route := m.msg.hdr }

theorem fire_eq {s : State} {c k : Nat} {f : Firing} {x : Actor} {e : TagEnt} {m : Stored}
    (hx : findActor s c f.actor = some x) (he : findTag s c f.actor f.tag = some e) (hn : 1 ≤ e.fire)
    (hm : (queueOf (s.getCore c) ((s.getCore c).dom.getD 0) f.actor f.tag).head? = some m) :
    let u := claimed s c k ((s.getCore c).dom.getD 0) f.actor f.tag e.fire
    fire s c k f = startAct u c k (firedAct u c k ((s.getCore c).dom.getD 0) f.actor f.tag x e m) := by
  obtain ⟨r, hq⟩ := List.head?_eq_some_iff.mp hm
  obtain ⟨n, hf⟩ : ∃ n, e.fire = n + 1 := ⟨e.fire - 1, by omega⟩
  unfold fire claimed
  simp only [hx, he, hq, hf, List.take_succ_cons]
  simp only [firedAct, firingRegs, firingWord, hf]

/-- What a start changes of its core is not what PEND counts. -/
theorem pendingOf_startAct (s : State) (c k : Nat) (a : Act) (i t : Nat) :
    pendingOf (startAct s c k a) c i t = pendingOf s c i t := by
  have hc := startAct_getCore s c k a c
  have hnet : netOf (startAct s c k a) c i t = netOf s c i t := by
    unfold netOf
    rw [hc]
    exact startAct_waits (p := fun m => m.reached && decide (m.core = c) && decide (some m.dom = (s.getCore c).dom) &&
      decide (m.actor = i) && decide (m.tag = t)) s c k a (by simp +contextual)
  unfold pendingOf findTag findActor queueOf ovfOf
  rw [hnet, hc]

theorem firings_tag_lt {s : State} {c : Nat} {f : Firing} (h : f ∈ firings s c) : f.tag < 16 := by
  obtain ⟨n, -, hn⟩ := List.mem_filterMap.mp h
  dsimp only at hn
  split at hn
  · split at hn
    · cases hn; exact Nat.mod_lt _ (by decide)
    · cases hn
  · cases hn

/-- The firing that a core chooses is one of its firings. -/
theorem mem_firings_of_chooseStart {s : State} {c : Nat} {f : Firing} (h : chooseStart s c = .fire f) : f ∈ firings s c := by
  have hmem : f ∈ if !(freeSlots s c).isEmpty then firings s c else [] := by
    unfold chooseStart at h
    dsimp only at h
    split at h
    · cases h
    · split at h
      · next g hg => cases h; exact List.mem_of_find?_eq_some hg
      · split at h
        · cases h
        · split at h
          · next g hg => cases h; exact (mem_sortBy ..).mp (minBy_mem hg)
          · split at h <;> cases h
  split at hmem
  · exact hmem
  · cases hmem

/-- The fields of S5 at a firing do not overlap. -/
theorem firingWord_fields (s : State) (c i : Nat) {t n : Nat} (ht : t < 16) (hn : n ≤ 8) :
    (firingWord s c i t n).extractLsb' 0 4 = BitVec.ofNat 4 t ∧
    (firingWord s c i t n).extractLsb' 4 8 = BitVec.ofNat 8 (min 255 (pendingOf s c i t)) ∧
    (firingWord s c i t n).extractLsb' 12 4 = BitVec.ofNat 4 n ∧ (firingWord s c i t n).extractLsb' 16 48 = 0 := by
  unfold firingWord
  have hp : min 255 (pendingOf s c i t) < 256 := by omega
  generalize min 255 (pendingOf s c i t) = p at hp ⊢
  have h12 : p <<< 4 ||| t = p * 16 + t := by
    rw [← Nat.shiftLeft_add_eq_or_of_lt (by omega), Nat.shiftLeft_eq]
  have h : (at_ n 12 ||| at_ p 4 ||| at_ t 0 : Word) = BitVec.ofNat 64 (n * 4096 + p * 16 + t) := by
    simp only [at_, ← BitVec.ofNat_or, Nat.shiftLeft_zero, Nat.or_assoc]
    rw [h12, ← Nat.shiftLeft_add_eq_or_of_lt (by omega), Nat.shiftLeft_eq, Nat.add_assoc]
  rw [h]
  refine ⟨?_, ?_, ?_, ?_⟩ <;> apply BitVec.eq_of_toNat_eq <;>
    simp only [BitVec.extractLsb'_toNat, BitVec.toNat_ofNat, BitVec.ofNat_eq_ofNat, Nat.shiftRight_eq_div_pow] <;> omega

theorem tagFire_step {s : State} {c k : Nat} {f : Firing} (hk : k ∈ freeSlots s c) (hf : chooseStart s c = .fire f) :
    Steps (.tagFire c k) s (fire s c k f) := by
  change Host.Outcome.next _ = _
  simp [hf, hk]

theorem firedAct_reg (s : State) (c k d i t : Nat) (x : Actor) (e : TagEnt) (m : Stored) {j : Nat} {w : Word} (hj : j < 64)
    (hw : lastWritten (firingRegs s c k i t e.fire x m) j = some w) :
    (firedAct s c k d i t x e m).regs.s.toArray.getD j 0 = w :=
  (withS_reg Regs.start _ hj).trans (by rw [hw]; rfl)

/-- The first clause of starts: a tag fires. -/
theorem tagFire_starts {s : State} {c k : Nat} {f : Firing} {x : Actor} {e : TagEnt} {m : Stored}
    (hk : k ∈ freeSlots s c) (hf : chooseStart s c = .fire f) (hx : findActor s c f.actor = some x)
    (he : findTag s c f.actor f.tag = some e) (hn : 1 ≤ e.fire)
    (hm : (queueOf (s.getCore c) ((s.getCore c).dom.getD 0) f.actor f.tag).head? = some m) :
    let d := (s.getCore c).dom.getD 0
    let reg := fun (a : Act) (i : Nat) => a.regs.s.toArray.getD i 0
    ∃ t a, Steps (.tagFire c k) s t ∧ t.findAct c k = some a ∧ FreshStart s c k a ∧ a.pc = e.entry ∧ a.kernel = x.kernel ∧
      a.prio = e.prio ∧ a.actor = some f.actor ∧ a.tag = f.tag ∧ reg a 3 = BitVec.ofNat 64 x.spoff ∧ reg a 4 = m.msg.hdr ∧
      reg a 7 = m.msg.via ∧ (∀ i, i < 7 → reg a (8 + i) = m.msg.words.getD i 0) ∧ a.s5 = reg a 5 ∧
      (e.fire ≤ 8 → (reg a 5).extractLsb' 0 4 = BitVec.ofNat 4 f.tag ∧
        (reg a 5).extractLsb' 4 8 = BitVec.ofNat 8 (min 255 (pendingOf t c f.actor f.tag)) ∧
        (reg a 5).extractLsb' 12 4 = BitVec.ofNat 4 e.fire ∧ (reg a 5).extractLsb' 16 48 = 0) ∧
      queueOf (t.getCore c) d f.actor f.tag = (queueOf (s.getCore c) d f.actor f.tag).drop e.fire := by
  intro d reg
  let u := claimed s c k d f.actor f.tag e.fire
  let a := firedAct u c k d f.actor f.tag x e m
  have hu : u.serial = s.serial ∧ u.issues = s.issues ∧ u.time = s.time ∧ ∀ d, u.getDom d = s.getDom d := by
    have h := (claimed_access s c k d f.actor f.tag e.fire).rest
    refine ⟨?_, ?_, ?_, fun d => ?_⟩ <;> simp only [u] <;> rw [h] <;> rfl
  have hreg : ∀ {j w}, j < 64 → lastWritten (firingRegs u c k f.actor f.tag e.fire x m) j = some w →
      reg (startedAct u c a) j = w := fun hj hw => firedAct_reg u c k d f.actor f.tag x e m hj hw
  have hfive : reg (startedAct u c a) 5 = firingWord u c f.actor f.tag e.fire := hreg (by decide) rfl
  refine ⟨startAct u c k a, startedAct u c a, ?_, startAct_findAct .., startedAct_fresh hu rfl rfl rfl, rfl, rfl, rfl, rfl, rfl,
    hreg (by decide) rfl, hreg (by decide) rfl,
    hreg (by decide) rfl, fun i hi => ?_, hfive.symm, fun hfire => ?_, ?_⟩
  · exact fire_eq hx he hn hm ▸ tagFire_step hk hf
  · refine hreg (by omega) ?_
    interval_cases i <;> rfl
  · rw [hfive, pendingOf_startAct]
    exact firingWord_fields u c f.actor (firings_tag_lt (mem_firings_of_chooseStart hf)) hfire
  · rw [← claimed_queueOf s c k d f.actor f.tag hn, queueOf, startAct_getCore]
    rfl

/-! Pops. -/

/-- The registers that a task record gives the activation it starts (03 R57). -/
def taskRegs (c k : Nat) (r : List Word) : List (Nat × Word) :=
  [(2, stackTop c k), (5, at_ 1 16), (6, identity c k), (14, memEval (r.getD 1 0))] ++
    (upto 6).map fun i => (8 + i, r.getD (2 + i) 0)

/-- The activation that a task record starts in domain `d`, before its start numbers it. -/
def taskAct (c k d : Nat) (r : List Word) : Act :=
  { Act.blank with
    regs := Regs.start.withS (taskRegs c k r), pc := pcBits (r.getD 0 0), dom := d,
    kernel := (r.getD 0 0).getLsbD 59 && !isTenant d, prio := bitsOf (r.getD 0 0) 58 57, s5 := at_ 1 16,
    entry := pcBits (r.getD 0 0), route := memEval (r.getD 1 0) }

theorem startTask_eq (s : State) (c k b : Nat) (r : List Word) : ∃ sc,
    startTask s c k b r = startAct (acquire s c ((s.getCore c).dom.getD 0) sc) c k (taskAct c k ((s.getCore c).dom.getD 0) r) :=
  ⟨_, rfl⟩

/-- A core without its newest record. -/
def poppedCore (s : State) (c : Nat) : State := s.modCore c fun x => { x with deque := x.deque.dropLast }

theorem popTask_of_getLast {s : State} {c : Nat} {r : List Word} (h : (s.getCore c).deque.getLast? = some r) (k : Nat) :
    popTask s c k = startTask (poppedCore s c) c k c r := by
  have hne : (s.getCore c).deque.isEmpty = false := by
    cases hd : (s.getCore c).deque with
    | nil => rw [hd] at h; cases h
    | cons y l => rfl
  unfold popTask
  simp only [hne, Bool.false_eq_true, if_false, h, poppedCore]

theorem dequePop_step {s : State} {c k : Nat} (hk : k ∈ freeSlots s c) (hp : chooseStart s c = .pop) :
    Steps (.dequePop c k) s (popTask s c k) := by
  change Host.Outcome.next _ = _
  simp [hp, hk]

/-- The second clause of starts: a core pops its newest record. -/
theorem dequePop_starts {s : State} {c k : Nat} {r : List Word} (hk : k ∈ freeSlots s c) (hp : chooseStart s c = .pop)
    (hr : (s.getCore c).deque.getLast? = some r) :
    let reg := fun (a : Act) (i : Nat) => a.regs.s.toArray.getD i 0
    let w := fun (i : Nat) => r.getD i 0
    ∃ t a, Steps (.dequePop c k) s t ∧ t.findAct c k = some a ∧ FreshStart s c k a ∧ a.pc = pcBits (w 0) ∧
      a.kernel = ((w 0).getLsbD 59 && !isTenant ((s.getCore c).dom.getD 0)) ∧ a.prio = bitsOf (w 0) 58 57 ∧ a.actor = none ∧
      reg a 5 = BitVec.ofNat 64 (2 ^ 16) ∧ reg a 14 = w 1 &&& 0x01FFFFFFFFFFFFFF ∧ (∀ i, i < 6 → reg a (8 + i) = w (2 + i)) ∧
      (t.getCore c).deque = (s.getCore c).deque.dropLast := by
  intro reg w
  let d := (s.getCore c).dom.getD 0
  have hcore : (poppedCore s c).getCore c = { s.getCore c with deque := (s.getCore c).deque.dropLast } := getCore_modCore_self ..
  obtain ⟨sc, hst⟩ := startTask_eq (poppedCore s c) c k c r
  rw [hcore] at hst
  let u := acquire (poppedCore s c) c d sc
  have hacc : AccessOnly (poppedCore s c) u := acquire_access ..
  have hu : u.serial = s.serial ∧ u.issues = s.issues ∧ u.time = s.time ∧ ∀ d, u.getDom d = s.getDom d := by
    refine ⟨?_, ?_, ?_, fun d => ?_⟩ <;> rw [hacc.rest] <;> rfl
  have hreg : ∀ {j x}, j < 64 → lastWritten (taskRegs c k r) j = some x → reg (startedAct u c (taskAct c k d r)) j = x :=
    fun hj hx => (withS_reg Regs.start _ hj).trans (by rw [hx]; rfl)
  refine ⟨startAct u c k (taskAct c k d r), startedAct u c (taskAct c k d r), ?_, startAct_findAct ..,
    startedAct_fresh hu rfl rfl rfl, rfl, rfl, rfl, rfl, hreg (by decide) rfl, hreg (by decide) rfl,
    fun i hi => hreg (by omega) ?_, ?_⟩
  · have hstep := dequePop_step hk hp
    rw [popTask_of_getLast hr, hst] at hstep
    exact hstep
  · interval_cases i <;> rfl
  · rw [startAct_getCore, hacc.reports.deque, hcore]

end Sys2Proof.Machine
end

section
/-!
Resumptions (03 R71 R72 R74, 05 R110, 27 R372): what a saved activation goes on with.
-/
namespace Sys2Proof.Machine

/-- Steps that change only how long lines have been asked for. -/
theorem foldl_ext {α : Type} {f : State → α → State} (h : ∀ s x, f s x = { s with ext := (f s x).ext }) (l : List α) (s : State) :
    l.foldl f s = { s with ext := (l.foldl f s).ext } := by
  induction l generalizing s with
  | nil => rfl
  | cons x l ih =>
    rw [List.foldl_cons]
    have h1 := h s x
    have h2 := ih (f s x)
    rw [h1] at h2 ⊢
    exact h2

theorem askDue_eq (s : State) (c : Nat) : askDue s c = { s with ext := (askDue s c).ext } := by
  refine foldl_ext (fun s x => ?_) (dueActs s c) s
  split <;> rfl

section
variable (s : State) (c : Nat)

theorem askDue_findAct (e k : Nat) : (askDue s c).findAct e k = s.findAct e k := by rw [askDue_eq]; rfl
theorem askDue_getDom (d : Nat) : (askDue s c).getDom d = s.getDom d := by rw [askDue_eq]; rfl
theorem askDue_recordAddr (e k : Nat) : recordAddr (askDue s c) e k = recordAddr s e k := by rw [askDue_eq]; rfl

end

/-- A saved activation as it runs again in its slot: due no more, charged, under its domain's modes (21 R316). -/
def restartedAct (s : State) (c : Nat) (a : Act) : Act :=
  { a.readied s with
    due := none, status := .running, modes := (s.getDom a.dom).modes, halt := .none,
    eu := (chargeWith s ((s.getDom a.dom).modes.getLsbD 5) a.dom (clusterOf c) 1 1 [(1, 7)]).1 }

theorem restart_findAct (s : State) (c k : Nat) (a : Act) (entry : Word) :
    (restart s c k a entry).findAct c k = some (restartedAct s c a) := by
  have h := chargeWith_access s ((s.getDom a.dom).modes.getLsbD 5) a.dom (clusterOf c) 1 1 [(1, 7)]
  have ha : restartedAct s c a = { a.readied (chargeWith s ((s.getDom a.dom).modes.getLsbD 5) a.dom (clusterOf c) 1 1 [(1, 7)]).2 with
      eu := (chargeWith s ((s.getDom a.dom).modes.getLsbD 5) a.dom (clusterOf c) 1 1 [(1, 7)]).1,
      due := none, status := .running, modes := (s.getDom a.dom).modes, halt := .none } := by
    rw [h.rest]; rfl
  unfold restart
  dsimp only
  rw [(traceRecord_reports ..).findAct, ha]
  exact State.findAct_putAct ..

/-! What a record gives back. -/

/-- Passing over a breakpoint moves an activation on, and clears the mark that asked for it. -/
theorem passSkipped_eq (a : Act) : passSkipped a = { a with
    regs := (passSkipped a).regs, pc := (passSkipped a).pc, owed := (passSkipped a).owed, btarget := (passSkipped a).btarget,
    skip := false } := by
  have hadv : ∀ x : Act, advance x .seq = { x with
      regs := (advance x .seq).regs, pc := (advance x .seq).pc, owed := (advance x .seq).owed,
      btarget := (advance x .seq).btarget } := fun x => by
    unfold advance
    dsimp only
    split
    · rfl
    · split <;> rfl
  have hcont : continueAfter a = { a with
      regs := (continueAfter a).regs, pc := (continueAfter a).pc, owed := (continueAfter a).owed,
      btarget := (continueAfter a).btarget } := by
    unfold continueAfter
    dsimp only
    split
    · unfold passOver; rw [hadv]
    · split <;> rfl
  unfold passSkipped
  split
  · rw [hcont]
  · next h => rw [Bool.not_eq_true] at h; rw [← h]

section
variable (a : Act)

theorem passSkipped_actor : (passSkipped a).actor = a.actor := by rw [passSkipped_eq]
theorem passSkipped_serial : (passSkipped a).serial = a.serial := by rw [passSkipped_eq]
theorem passSkipped_dom : (passSkipped a).dom = a.dom := by rw [passSkipped_eq]
theorem passSkipped_skip : (passSkipped a).skip = false := by rw [passSkipped_eq]

end

theorem passSkipped_of_not_skip {a : Act} (h : a.skip = false) : passSkipped a = a := by simp [passSkipped, h]

/-- Outside its loops' ends, an activation that no slot holds goes on at the next word. -/
theorem passOver_straight {a : Act} (h0 : a.regs.lc0 = 0) (h1 : a.regs.lc1 = 0) :
    (passOver a).pc = a.regs.epc + 4 ∧ (passOver a).owed = 0 := by
  simp [passOver, advance, loopCheck, h0, h1]

/-- A BKPT that stood outside a delay slot and outside loops is passed over to the word after it (27 R372). -/
theorem passSkipped_straight {a : Act} (hs : a.skip = true) (heds : a.regs.eds = 0) (h0 : a.regs.lc0 = 0) (h1 : a.regs.lc1 = 0) :
    (passSkipped a).pc = a.regs.epc + 4 ∧ (passSkipped a).owed = 0 := by
  have hk : bitsOf a.regs.eds 1 0 = 0 := by rw [heds]; rfl
  simp only [passSkipped, hs, if_true, continueAfter, hk]
  exact passOver_straight h0 h1

/-- EDS from a record word whose low two bits are 0. -/
theorem sysMask_eds_zero {w : Word} (h : w.extractLsb' 0 2 = 0) : sysMask .eds w = 0 := by
  have hw : w.toNat % 4 = 0 := by simpa [BitVec.extractLsb'_toNat] using congrArg BitVec.toNat h
  refine BitVec.eq_of_toNat_eq ?_
  rw [sysMask, BitVec.toNat_and]
  exact (Nat.and_two_pow_sub_one_eq_mod w.toNat 2).trans hw

section
variable (a : Act) (bs : List Byte)

theorem dumpedAct_skip : (dumpedAct a bs).skip = a.skip := by unfold dumpedAct; rfl
theorem dumpedAct_dom : (dumpedAct a bs).dom = a.dom := by unfold dumpedAct; rfl
theorem dumpedAct_actor : (dumpedAct a bs).actor = a.actor := by unfold dumpedAct; rfl
theorem dumpedAct_serial : (dumpedAct a bs).serial = a.serial := by unfold dumpedAct; rfl
theorem dumpedAct_regs : (dumpedAct a bs).regs = maskRegs (recordRegs a.regs bs) := by unfold dumpedAct; rfl

end

theorem dumpedAct_passed {a : Act} {bs : List Byte} (hs : a.skip = true) (heds : (recordWord bs 0x490).extractLsb' 0 2 = 0)
    (h0 : recordWord bs 0x430 = 0) (h1 : recordWord bs 0x448 = 0) :
    (passSkipped (dumpedAct a bs)).pc = pcBits (recordWord bs 0x470) + 4 ∧ (passSkipped (dumpedAct a bs)).owed = 0 := by
  have hpass := passSkipped_straight (a := dumpedAct a bs) ((dumpedAct_skip a bs).trans hs)
  rw [dumpedAct_regs] at hpass
  refine hpass ?_ ?_ ?_
  · simp [maskRegs, recordRegs, sysMask_eds_zero heds]
  · simp [maskRegs, recordRegs, h0, sysMask]
  · simp [maskRegs, recordRegs, h1, sysMask]

/-- An activation that its save routine left, as its restore routine finds it (03 R71). -/
def restoredAct (a : Act) (va : Word) (bs ws : List Byte) : Act :=
  { a with
    regs := restoreRegs va (pcBits (recordWord ws 0)) bs, pc := a.restore, owed := 0, btarget := 0, restored := true }

theorem restoredAct_reg (a : Act) (va : Word) (bs ws : List Byte) {j : Nat} {w : Word} (hj : j < 64)
    (hw : (lastWritten [(1, pcBits (recordWord ws 0) + 4), (3, recordWord bs 0x18), (4, recordWord bs 0x20), (5, at_ 2 16),
      (6, recordWord bs 0x30), (7, va)] j).getD (Regs.start.s.toArray.getD j 0) = w) :
    (restoredAct a va bs ws).regs.s.toArray.getD j 0 = w :=
  (withS_reg Regs.start _ hj).trans hw

section
variable {s : State} {c k : Nat} {a : Act} {va : Word} {bs : List Byte} {u : State}

theorem activationResume_step (h : chooseStart (askDue s c) c = .resume k) :
    Steps (.activationResume c) s (resumeSaved (askDue s c) c k) := by
  change Host.Outcome.next _ = _
  simp [h]

theorem resumeSaved_dumped (ha : s.findAct c k = some a) (hv : recordAddr s c k = some va) {p : Bool}
    (hs : a.status = .saved true p) (hr : recordReadAll s a.dom (clusterOf c) c va 32 = .ok (bs, u)) :
    resumeSaved s c k = restart u c k (passSkipped (dumpedAct a bs)) a.entry := by
  simp only [resumeSaved, ha, resumed, hv, hs, hr]

theorem resumeSaved_restored (ha : s.findAct c k = some a) (hv : recordAddr s c k = some va) {p : Bool}
    (hs : a.status = .saved false p) (hr : recordRead s a.dom (clusterOf c) c va 64 = .ok (bs, u)) {ws : List Byte} {w : State}
    (hw : recordRead u a.dom (clusterOf c) c (va + 0x498) 8 = .ok (ws, w)) :
    resumeSaved s c k = restart w c k (restoredAct a va bs ws) a.restore := by
  simp only [resumeSaved, ha, resumed, hv, hs, resumeParts, hr, hw]
  rfl

variable (hc : chooseStart (askDue s c) c = .resume k) (ha : s.findAct c k = some a) (hv : recordAddr s c k = some va)
include hc ha hv

/-- The third clause of starts, for a record that a hardware dump wrote. -/
theorem activationResume_dumped {p : Bool} (hs : a.status = .saved true p)
    (hr : recordReadAll (askDue s c) a.dom (clusterOf c) c va 32 = .ok (bs, u)) :
    ∃ t b, Steps (.activationResume c) s t ∧ t.findAct c k = some b ∧ b.status = .running ∧
      b.due = none ∧ b.actor = a.actor ∧ b.serial = a.serial ∧ b.skip = false ∧
      (a.skip = false → b.pc = pcBits (recordWord bs 0x498) ∧ b.owed = bitsOf (recordWord bs 0x4A0) 1 0 ∧
        b.btarget = pcBits (recordWord bs 0x4A8) ∧ b.regs = maskRegs (recordRegs a.regs bs)) ∧
      (a.skip = true → (recordWord bs 0x490).extractLsb' 0 2 = 0 → recordWord bs 0x430 = 0 → recordWord bs 0x448 = 0 →
        b.pc = pcBits (recordWord bs 0x470) + 4 ∧ b.owed = 0) ∧
      b.halt = .none ∧ b.modes = (s.getDom a.dom).modes := by
  have hstep := activationResume_step hc
  rw [resumeSaved_dumped ((askDue_findAct ..).trans ha) ((askDue_recordAddr ..).trans hv) hs hr] at hstep
  have hdom : (passSkipped (dumpedAct a bs)).dom = a.dom := (passSkipped_dom _).trans (dumpedAct_dom a bs)
  have hmodes : (u.getDom a.dom).modes = (s.getDom a.dom).modes := by
    rw [((recordReadAll_within ..).ok hr).reports.getDom, askDue_getDom]
  refine ⟨_, restartedAct u c (passSkipped (dumpedAct a bs)), hstep, restart_findAct .., rfl, rfl,
    (passSkipped_actor _).trans (dumpedAct_actor a bs), (passSkipped_serial _).trans (dumpedAct_serial a bs), passSkipped_skip _,
    fun h => ?_, dumpedAct_passed, rfl, (congrArg (fun d => (u.getDom d).modes) hdom).trans hmodes⟩
  rw [passSkipped_of_not_skip ((dumpedAct_skip a bs).trans h)]
  exact ⟨rfl, rfl, rfl, dumpedAct_regs a bs⟩

/-- The third clause of starts, for a record that a save routine left. -/
theorem activationResume_restored {p : Bool} (hs : a.status = .saved false p)
    (hr : recordRead (askDue s c) a.dom (clusterOf c) c va 64 = .ok (bs, u)) {ws : List Byte} {w : State}
    (hw : recordRead u a.dom (clusterOf c) c (va + 0x498) 8 = .ok (ws, w)) :
    let reg := fun (a : Act) (i : Nat) => a.regs.s.toArray.getD i 0
    ∃ t b, Steps (.activationResume c) s t ∧ t.findAct c k = some b ∧ b.status = .running ∧
      b.due = none ∧ b.pc = a.restore ∧ b.owed = 0 ∧ reg b 1 = pcBits (recordWord ws 0) + 4 ∧ reg b 3 = recordWord bs 0x18 ∧
      reg b 4 = recordWord bs 0x20 ∧ reg b 5 = BitVec.ofNat 64 (2 ^ 17) ∧ reg b 6 = recordWord bs 0x30 ∧ reg b 7 = va ∧
      reg b 8 = 0 := by
  have hstep := activationResume_step hc
  rw [resumeSaved_restored ((askDue_findAct ..).trans ha) ((askDue_recordAddr ..).trans hv) hs hr hw] at hstep
  have hreg := @restoredAct_reg a va bs ws
  exact ⟨_, restartedAct w c (restoredAct a va bs ws), hstep, restart_findAct .., rfl, rfl, rfl, rfl, hreg (by decide) rfl,
    hreg (by decide) rfl, hreg (by decide) rfl, hreg (by decide) rfl, hreg (by decide) rfl, hreg (by decide) rfl,
    hreg (by decide) rfl⟩

end

/-- What a core starts: its firings, its pops and its resumptions. -/
theorem activationStarts : Clauses.ActivationStarts :=
  fun _ _ _ => ⟨fun _ _ _ _ hk hf hx he hn hm => tagFire_starts hk hf hx he hn hm, fun _ hk hp hr => dequePop_starts hk hp hr,
    fun _ _ _ _ _ hc ha hv => ⟨fun _ hs hr => activationResume_dumped hc ha hv hs hr,
      fun _ _ _ hs hr hw => activationResume_restored hc ha hv hs hr hw⟩⟩

/-- Settles O50: messages by the case in which each arrives or moves back, starts by what starts them. -/
theorem starting : Obligations.Starting := ⟨messageArrivals, activationStarts⟩

end Sys2Proof.Machine
end

section
/-!
What leaves the caches and the translation units when a frame changes hands (05 R83 R95 R104): the updates that touch no L1
line and no translation entry, and the relation of a state to one in which lines and entries have only gone.
-/
namespace Sys2Proof.Machine

section
variable {s t u : State}

/-- A meter charged: its residue and sum, the charges under way, the device account (23 R333 R341). -/
def Metered (s t : State) : Prop := t = { s with clusters := t.clusters, charges := t.charges, device := t.device }

/-- What a home slice, a memory controller or the host link changes: neither a core nor a translation unit. -/
def SliceOnly (s t : State) : Prop :=
  t = { s with
    clusters := t.clusters, charges := t.charges, device := t.device, mem := t.mem, sealLine := t.sealLine, l2 := t.l2,
    stamps := t.stamps, waymask := t.waymask, free := t.free, hostOut := t.hostOut }

theorem Metered.refl (s : State) : Metered s s := rfl

theorem Metered.slice (h : Metered s t) : SliceOnly s t := by rw [SliceOnly, h]

namespace SliceOnly

theorem refl (s : State) : SliceOnly s s := rfl

theorem trans (a : SliceOnly s t) (b : SliceOnly t u) : SliceOnly s u := by
  rw [SliceOnly] at a b ⊢
  rw [a] at b
  exact b

theorem cores (h : SliceOnly s t) : t.cores = s.cores := by rw [h]
theorem tlb (h : SliceOnly s t) : t.tlb = s.tlb := by rw [h]

end SliceOnly

theorem chargeWith_metered (s : State) (b : Bool) (d m n e : Nat) (ts : List Term) : Metered s (chargeWith s b d m n e ts).2 := by
  unfold chargeWith
  split <;> rfl

theorem charge_metered (s : State) (d m : Nat) (ts : List Term) : Metered s (charge s d m ts) := chargeWith_metered ..
theorem chargeMove_metered (s : State) (d c h : Nat) : Metered s (chargeMove s d c h) := chargeWith_metered ..
theorem chargeNotice_metered (s : State) (p : Place) : Metered s (chargeNotice s p) := chargeWith_metered ..

theorem chargeDram_metered (s : State) (d m pa n : Nat) : Metered s (chargeDram s d m pa n) := by
  unfold chargeDram
  split
  · exact charge_metered ..
  · split
    · exact charge_metered ..
    · rfl

theorem controlWrite_slice (s : State) (w sl off : Nat) (d : LineBits) (m : BitVec 128) :
    SliceOnly s (controlWrite s w sl off d m) := by
  unfold controlWrite
  refine List.foldlRecOn (upto 16) _ (.refl s) fun u h i _ => h.trans ?_
  dsimp only
  split <;> rfl

theorem backWrite_slice (s : State) (w k pl : Nat) (d : LineBits) (m : BitVec 128) : SliceOnly s (backWrite s w k pl d m) := by
  unfold backWrite
  split
  case h_5 => exact controlWrite_slice ..
  all_goals rfl

theorem homeStore_slice (s : State) (w m k pl : Nat) (d : LineBits) (b : BitVec 128) (st : Nat → Option Stamp) :
    SliceOnly s (homeStore s w m k pl d b st) := by
  have stored (u : State) (hu : SliceOnly s u) : SliceOnly s (match tabFind u.l2 pl with
      | some l => { u with l2 := tabPut u.l2 pl { l with data := mergeLine (l2Data u pl l) d b, dirty := true,
                                                         gen := (u.getDom l.keyid).gen } }
      | none => chargeDram (backWrite u w k pl d b) w m (128 * pl) (maskHalves b)) := by
    split
    · exact hu.trans rfl
    · exact (hu.trans (backWrite_slice ..)).trans (chargeDram_metered ..).slice
  unfold homeStore
  apply stored
  split <;> rfl

theorem storeBack_slice (s : State) (c : Nat) (l : L1Line) : SliceOnly s (storeBack s c l) := by
  unfold storeBack
  split
  · rfl
  · exact (homeStore_slice ..).trans (chargeMove_metered ..).slice

/-- Lines of the L1 data caches and translation entries have only gone: every line left has the tag and the physical line of one
that was there, and every entry left was there. -/
structure Sheds (s t : State) : Prop where
  lines : ∀ c, ∀ l ∈ (t.getCore c).l1, ∃ k ∈ (s.getCore c).l1, k.dom = l.dom ∧ k.vl = l.vl ∧ k.pl = l.pl
  entries : ∀ e ∈ t.tlb, e ∈ s.tlb

namespace Sheds

theorem of_eq (hc : t.cores = s.cores) (ht : t.tlb = s.tlb) : Sheds s t :=
  ⟨fun c l hl => ⟨l, by rwa [State.getCore, hc] at hl, rfl, rfl, rfl⟩, fun _ he => ht ▸ he⟩

theorem refl (s : State) : Sheds s s := of_eq rfl rfl

theorem trans (a : Sheds s t) (b : Sheds t u) : Sheds s u := by
  refine ⟨fun c l hl => ?_, fun e he => a.entries e (b.entries e he)⟩
  obtain ⟨k, hk, hd, hv, hp⟩ := b.lines c l hl
  obtain ⟨j, hj, hd', hv', hp'⟩ := a.lines c k hk
  exact ⟨j, hj, hd'.trans hd, hv'.trans hv, hp'.trans hp⟩

/-- A fold of operations under each of which lines and entries only go. -/
theorem foldl {α : Type} {f : State → α → State} (h : ∀ u x, Sheds u (f u x)) (l : List α) (s : State) : Sheds s (l.foldl f s) :=
  List.foldlRecOn l f (.refl s) fun u hu x _ => hu.trans (h u x)

end Sheds

theorem SliceOnly.sheds (h : SliceOnly s t) : Sheds s t := .of_eq h.cores h.tlb

theorem dropL1_sheds (s : State) (c d vl : Nat) : Sheds s (dropL1 s c d vl) := by
  refine ⟨fun e l hl => ⟨l, ?_, rfl, rfl, rfl⟩, fun _ he => he⟩
  rw [dropL1, State.modCore_eq, State.getCore_setCore] at hl
  split at hl
  · next h => exact h ▸ (List.mem_filter.mp hl).1
  · exact hl

theorem flushL1_sheds (s : State) (c : Nat) (l : L1Line) : Sheds s (flushL1 s c l) :=
  (storeBack_slice ..).sheds.trans (dropL1_sheds ..)

/-- A line flushed is gone, and every line of its tag with it. -/
theorem flushL1_gone (s : State) (c : Nat) (l : L1Line) : ∀ k ∈ ((flushL1 s c l).getCore c).l1, ¬ (k.dom = l.dom ∧ k.vl = l.vl) := by
  intro k hk
  rw [flushL1, dropL1, State.modCore_eq, State.getCore_setCore, if_pos rfl] at hk
  simpa only [Bool.not_eq_true', Bool.and_eq_false_iff, decide_eq_false_iff_not, not_and_or] using (List.mem_filter.mp hk).2

/-- Each step of a fold makes its element's property true and no later step breaks it. -/
theorem foldl_establishes {σ α : Type} {f : σ → α → σ} {P : α → σ → Prop} (make : ∀ u x, P x (f u x))
    (keep : ∀ u x y, P y u → P y (f u x)) (l : List α) (u : σ) : ∀ x ∈ l, P x (l.foldl f u) := by
  induction l generalizing u with
  | nil => exact fun _ h => nomatch h
  | cons y r ih =>
    intro x hx
    rcases List.mem_cons.mp hx with rfl | hx
    · exact List.foldlRecOn r f (make u x) fun v hv z _ => keep v z x hv
    · exact ih (f u y) x hx

theorem mem_of_tabFind {α : Type} {t : Tab α} {k : Nat} {a : α} (h : tabFind t k = some a) : (k, a) ∈ t := by
  induction t with
  | nil => cases h
  | cons x r ih =>
    rw [tabFind] at h
    split at h
    · next hk => cases h; exact hk ▸ List.mem_cons_self
    · exact List.mem_cons_of_mem _ (ih h)

/-- The line found is one of the core's, with the tag sought. -/
theorem findL1_tag {c d vl : Nat} {k : L1Line} (h : findL1 s c d vl = some k) : k.dom = d ∧ k.vl = vl := by
  simpa using List.find?_some h

theorem findL1_mem {c d vl : Nat} {k : L1Line} (h : findL1 s c d vl = some k) : k ∈ (s.getCore c).l1 := List.mem_of_find?_eq_some h

/-- A core that holds a line is listed. -/
theorem mem_cores_of_mem_l1 {c : Nat} {l : L1Line} (h : l ∈ (s.getCore c).l1) : (c, s.getCore c) ∈ s.cores := by
  rw [State.getCore, tabGet] at h ⊢
  cases hf : tabFind s.cores c with
  | none => rw [hf] at h; cases h
  | some x => exact mem_of_tabFind hf

/-- The lines of a list that a test selects written back and dropped from a core's L1. -/
def flushIn (f : L1Line → Bool) (c : Nat) (l : List L1Line) (s : State) : State :=
  l.foldl (fun s l => if f l then flushL1 s c l else s) s

/-- Every L1 line that a test on core and line selects is written back and dropped. -/
def flushWhere (s : State) (f : Nat → L1Line → Bool) : State := s.cores.foldl (fun s x => flushIn (f x.1) x.1 x.2.l1 s) s

theorem dropCopies_eq (s : State) (pl : Nat) : dropCopies s pl = flushWhere s fun _ l => decide (l.pl = pl) := by
  simp only [dropCopies, flushWhere, flushIn, decide_eq_true_eq]

/-- No line of a core has the tag. -/
def NoTag (c : Nat) (l : L1Line) (s : State) : Prop := ∀ k ∈ (s.getCore c).l1, ¬ (k.dom = l.dom ∧ k.vl = l.vl)

theorem Sheds.noTag (h : Sheds s t) {c : Nat} {l : L1Line} (hs : NoTag c l s) : NoTag c l t := by
  rintro k hk ⟨hd, hv⟩
  obtain ⟨j, hj, hd', hv', _⟩ := h.lines c k hk
  exact hs j hj ⟨hd'.trans hd, hv'.trans hv⟩

theorem flushIf_sheds (p : Prop) [Decidable p] (s : State) (c : Nat) (l : L1Line) : Sheds s (if p then flushL1 s c l else s) := by
  split
  · exact flushL1_sheds ..
  · exact .refl s

theorem flushIn_sheds (f : L1Line → Bool) (c : Nat) (l : List L1Line) (s : State) : Sheds s (flushIn f c l s) :=
  .foldl (fun _ _ => flushIf_sheds ..) l s

theorem flushIn_access (f : L1Line → Bool) (c : Nat) (l : List L1Line) (s : State) : AccessOnly s (flushIn f c l s) :=
  .foldl (fun u k => if_access (flushL1_access u c k) (.refl u)) l s

theorem flushIn_noTag (f : L1Line → Bool) (c : Nat) (l : List L1Line) (s : State) :
    ∀ k ∈ l, f k = true → NoTag c k (flushIn f c l s) :=
  foldl_establishes (P := fun k u => f k = true → NoTag c k u) (fun u k hk => by rw [if_pos hk]; exact flushL1_gone u c k)
    (fun _ _ _ hn hk => (flushIf_sheds ..).noTag (hn hk)) l s

section
variable (f : Nat → L1Line → Bool)

theorem flushWhere_sheds (s : State) : Sheds s (flushWhere s f) := .foldl (fun _ _ => flushIn_sheds ..) s.cores s

theorem flushWhere_access (s : State) : AccessOnly s (flushWhere s f) := .foldl (fun _ _ => flushIn_access ..) s.cores s

/-- A line left has the tag and physical line of one that was there and that the test does not select. -/
theorem flushWhere_lines {s : State} {c : Nat} {l : L1Line} (h : l ∈ ((flushWhere s f).getCore c).l1) :
    ∃ k ∈ (s.getCore c).l1, k.dom = l.dom ∧ k.vl = l.vl ∧ k.pl = l.pl ∧ f c k = false := by
  obtain ⟨k, hk, hd, hv, hp⟩ := (flushWhere_sheds f s).lines c l h
  refine ⟨k, hk, hd, hv, hp, Bool.eq_false_iff.mpr fun hf => ?_⟩
  have gone : ∀ x ∈ s.cores, ∀ k ∈ x.2.l1, f x.1 k = true → NoTag x.1 k (flushWhere s f) :=
    foldl_establishes (P := fun (x : Nat × Core) u => ∀ k ∈ x.2.l1, f x.1 k = true → NoTag x.1 k u)
      (fun u x => flushIn_noTag (f x.1) x.1 x.2.l1 u) (fun _ _ _ hn k hk hf => (flushIn_sheds ..).noTag (hn k hk hf)) s.cores s
  exact gone _ (mem_cores_of_mem_l1 hk) k hk hf l h ⟨hd.symm, hv.symm⟩

end

theorem dropL1Where_access (s : State) (f : L1Line → Bool) : AccessOnly s (dropL1Where s f) := flushWhere_access (fun _ => f) s
theorem dropL1Where_sheds (s : State) (f : L1Line → Bool) : Sheds s (dropL1Where s f) := flushWhere_sheds (fun _ => f) s

theorem dropL2_sheds (s : State) (pl : Nat) : Sheds s (dropL2 s pl) := by
  have hc : Sheds s (dropCopies s pl) := dropCopies_eq s pl ▸ flushWhere_sheds _ s
  refine hc.trans ?_
  unfold dropL2
  dsimp only
  split
  · exact .refl _
  · split
    · refine .trans ?_ (chargeDram_metered ..).slice.sheds
      exact .of_eq rfl rfl
    · exact .of_eq rfl rfl

theorem dropL2Where_sheds (s : State) (f : Nat → L2Line → Bool) : Sheds s (dropL2Where s f) := by
  refine .foldl (fun u x => ?_) s.l2 s
  split
  · exact dropL2_sheds ..
  · exact .refl u

theorem dropL2Where_access (s : State) (f : Nat → L2Line → Bool) : AccessOnly s (dropL2Where s f) :=
  .foldl (fun u _ => if_access (dropL2_access u _) (.refl u)) s.l2 s

theorem mem_replaceOrAdd {α : Type} {f : α → Bool} {b x : α} {l : List α} (h : x ∈ replaceOrAdd f b l) : x = b ∨ x ∈ l := by
  induction l with
  | nil => simpa [replaceOrAdd] using h
  | cons a r ih =>
    rw [replaceOrAdd] at h
    split at h <;> simp only [List.mem_cons] at h ⊢
    · tauto
    · tauto

/-- A release cleans lines of the core and drops none. -/
theorem release_sheds (s : State) (c d : Nat) (sc : Scope) : Sheds s (release s c d sc) := by
  unfold release
  split
  · exact .refl s
  · refine List.foldlRecOn (s.getCore c).l1 _ (.refl s) fun u hu l hl => ?_
    have cleaned : Sheds s (putL1 (storeBack u c l) c { l with dirty := 0 }) := by
      have hb := hu.trans (storeBack_slice u c l).sheds
      refine ⟨fun e k hk => ?_, hb.entries⟩
      rw [putL1, State.modCore_eq, State.getCore_setCore] at hk
      split at hk
      · next h =>
        rcases mem_replaceOrAdd hk with rfl | hk
        · exact ⟨l, h ▸ hl, rfl, rfl, rfl⟩
        · exact hb.lines e k (h ▸ hk)
      · exact hb.lines e k hk
    split
    · rw [cleanL1]
      split
      · exact hu
      · exact cleaned
    · exact hu

theorem notice_sheds (s : State) (k sc : Nat) (ws : List Word) : Sheds s (notice s k sc ws) := by
  unfold notice raise
  dsimp only
  split
  · have hn : SliceOnly s (chargeNotice s (epPlace (deviceEndpoint s k false))) := (chargeNotice_metered ..).slice
    exact .of_eq hn.cores hn.tlb
  · exact .of_eq rfl rfl

end

end Sys2Proof.Machine
end

section
/-!
Frame entries as they change (05 R101-R106): what a frame's entry reads after each update, and what a change of it removes.
-/
namespace Sys2Proof.Machine

section
variable {s t u : State}

@[simp] theorem getFrame_setFrame (s : State) (f g : Nat) (x : Frame) :
    getFrame (setFrame s f x) g = if f = g then x else getFrame s g := by
  unfold getFrame setFrame
  rw [tabFind_tabPut]
  split <;> rfl

theorem getFrame_congr (hf : t.frames = s.frames) (hs : t.stage = s.stage) (hd : t.diemask = s.diemask) (f : Nat) :
    getFrame t f = getFrame s f := by
  unfold getFrame frameAtReset dieInService
  rw [hf, hs, hd]

theorem ReportsOnly.getFrame (h : ReportsOnly s t) (f : Nat) : getFrame t f = getFrame s f :=
  getFrame_congr (by rw [h.rest]) (by rw [h.rest]) (by rw [h.rest]) f

theorem AccessOnly.getFrame (h : AccessOnly s t) (f : Nat) : Machine.getFrame t f = Machine.getFrame s f := h.reports.getFrame f

/-- A walk's right to a table frame rests on the frame's entry and the time. -/
theorem tableFrameOk_congr {f : Nat} (hf : getFrame t f = getFrame s f) (ht : t.time = s.time) (d : Nat) :
    tableFrameOk t d f = tableFrameOk s d f := by
  unfold tableFrameOk
  rw [hf, ht]

theorem dropFrameLines_access (s : State) (f : Nat) (lose : Nat → Bool) : AccessOnly s (dropFrameLines s f lose) := by
  unfold dropFrameLines
  exact (dropL1Where_access ..).trans (dropL2Where_access ..)

theorem dropFrameLines_sheds (s : State) (f : Nat) (lose : Nat → Bool) : Sheds s (dropFrameLines s f lose) := by
  unfold dropFrameLines
  exact (dropL1Where_sheds ..).trans (dropL2Where_sheds ..)

/-- No L1 keeps a line of the frame for a domain that loses it. -/
theorem dropFrameLines_lines {f : Nat} {lose : Nat → Bool} {c : Nat} {l : L1Line}
    (h : l ∈ ((dropFrameLines s f lose).getCore c).l1) (hf : l.pl / 32 = f) : lose l.dom = false := by
  obtain ⟨j, hj, hd, _, hp⟩ := (dropL2Where_sheds (dropL1Where s fun l => decide (l.pl / 32 = f) && lose l.dom) _).lines c l h
  obtain ⟨k, _, hd', _, hp', hk⟩ := flushWhere_lines (fun _ l => decide (l.pl / 32 = f) && lose l.dom) hj
  rw [hd', hd, hp', hp, hf, decide_eq_true rfl, Bool.true_and] at hk
  exact hk

/-- What a frame's loss leaves in the translation units. -/
theorem mem_dropEntries {f : Nat} {lose : Nat → Bool} {e : TEntry} (h : e ∈ (dropEntries s f lose).tlb) :
    e ∈ s.tlb ∧ (lose e.dom = true → e.coversFrame f = false) ∧ (f ∈ e.tables → tableFrameOk s e.dom f = true) := by
  obtain ⟨he, hk⟩ := List.mem_filter.mp h
  simp only [Bool.and_eq_true, Bool.not_eq_true', Bool.and_eq_false_iff, tableLost, Bool.not_eq_false', List.contains_eq_mem,
    decide_eq_false_iff_not] at hk
  obtain ⟨hcovers, htable⟩ := hk
  exact ⟨he, fun hl => hcovers.resolve_right (by simp [hl]), fun hf => htable.resolve_left (not_not_intro hf)⟩

/-- A frame's entry changes in a state that an access may leave. -/
theorem changeFrame_eq (s : State) (f : Nat) (new : Frame) : ∃ u, AccessOnly s u ∧ changeFrame s f new = setFrame u f new := by
  let lose : Nat → Bool := fun d => (frameDenies new d s.time).isSome
  let w := dropEntries (setFrame (dropFrameLines s f lose) f new) f lose
  refine ⟨{ dropFrameLines s f lose with tlb := w.tlb, walk := w.walk }, (dropFrameLines_access s f lose).trans ?_, rfl⟩
  exact (tlb_access (dropFrameLines s f lose) w.tlb).trans (walk_access _ w.walk)

/-- What a frame's change keeps, by the state that an access may leave. -/
theorem changeFrame_sheds (s : State) (f : Nat) (new : Frame) : Sheds s (changeFrame s f new) :=
  (dropFrameLines_sheds s f _).trans ⟨fun _ l hl => ⟨l, hl, rfl, rfl, rfl⟩, fun _ he => (mem_dropEntries he).1⟩

theorem getFrame_changeFrame (s : State) (f : Nat) (new : Frame) (g : Nat) :
    getFrame (changeFrame s f new) g = if f = g then new else getFrame s g := by
  obtain ⟨u, hu, he⟩ := changeFrame_eq s f new
  rw [he, getFrame_setFrame, hu.getFrame]

theorem changeFrame_act (s : State) (f : Nat) (new : Frame) : (changeFrame s f new).act = s.act := by
  obtain ⟨u, hu, he⟩ := changeFrame_eq s f new
  exact (congrArg State.act he).trans hu.act

theorem changeFrame_core (s : State) (f : Nat) (new : Frame) : (changeFrame s f new).core = s.core := by
  obtain ⟨u, hu, he⟩ := changeFrame_eq s f new
  exact (congrArg State.core he).trans (by rw [hu.rest]; rfl)

theorem changeFrame_time (s : State) (f : Nat) (new : Frame) : (changeFrame s f new).time = s.time := by
  obtain ⟨u, hu, he⟩ := changeFrame_eq s f new
  exact (congrArg State.time he).trans (by rw [hu.rest]; rfl)

/-- Nothing of a frame is left to a domain that its entry denies: no line in an L1, no translation entry, and no translation entry
read through it as a table that the walk of its domain may not read. -/
structure Cleared (t : State) (f : Nat) (new : Frame) : Prop where
  leaf : ∀ e ∈ t.tlb, (frameDenies new e.dom t.time).isSome = true → e.coversFrame f = false
  table : ∀ e ∈ t.tlb, f ∈ e.tables → tableFrameOk t e.dom f = true
  line : ∀ c, ∀ l ∈ (t.getCore c).l1, l.pl / 32 = f → frameDenies new l.dom t.time = none

/-- What is gone stays gone while lines and entries only go and the frame keeps its entry. -/
theorem Cleared.later {f : Nat} {new : Frame} (h : Cleared t f new) (hs : Sheds t u) (ht : u.time = t.time)
    (hf : getFrame u f = getFrame t f) : Cleared u f new := by
  refine ⟨fun e he hd => h.leaf e (hs.entries e he) (ht ▸ hd),
    fun e he hm => tableFrameOk_congr hf ht e.dom ▸ h.table e (hs.entries e he) hm, fun c l hl hp => ?_⟩
  obtain ⟨k, hk, hd, _, hpl⟩ := hs.lines c l hl
  rw [ht, ← hd]
  exact h.line c k hk (hpl ▸ hp)

theorem changeFrame_cleared (s : State) (f : Nat) (new : Frame) : Cleared (changeFrame s f new) f new := by
  have ht := changeFrame_time s f new
  refine ⟨fun e he hd => (mem_dropEntries he).2.1 (ht ▸ hd), fun e he => (mem_dropEntries he).2.2, fun c l hl hp => ?_⟩
  have hlose := dropFrameLines_lines (s := s) (lose := fun d => (frameDenies new d s.time).isSome) hl hp
  rw [ht]
  exact Option.not_isSome_iff_eq_none.mp (Bool.eq_false_iff.mp hlose)

end

end Sys2Proof.Machine
end

section
/-!
A recall closes (05 R105 R106, 26 R365): its device steps, each on the entry that it works on.
-/
namespace Sys2Proof.Machine

section
variable {s : State} {frame : Nat}

/-- The lines of a frame that a cluster holds dirty for a domain, by their place in the frame. -/
def dirtyLines (s : State) (frame g d : Nat) : List Nat :=
  (upto 32).filter fun i => s.cores.any fun x => x.2.l1.any fun l =>
    decide (clusterOf x.1 = g) && decide (l.pl / 32 = frame) && decide (l.dom = d) && decide (l.dirty ≠ 0) && decide (l.pl % 32 = i)

theorem dirtyLines_nodup (s : State) (frame g d : Nat) : (dirtyLines s frame g d).Nodup := List.nodup_range.filter _

theorem mem_dirtyLines (s : State) (frame g d i : Nat) : i ∈ dirtyLines s frame g d ↔ i < 32 ∧ ∃ x ∈ s.cores, clusterOf x.1 = g ∧
    ∃ l ∈ x.2.l1, l.pl = 32 * frame + i ∧ l.dom = d ∧ l.dirty ≠ 0 := by
  simp only [dirtyLines, upto, List.mem_filter, List.mem_range, List.any_eq_true, Bool.and_eq_true, decide_eq_true_eq]
  refine and_congr_right fun hi => exists_congr fun x => and_congr_right fun _ => ⟨?_, ?_⟩
  · rintro ⟨l, hl, ⟨⟨⟨hg, hf⟩, hd⟩, hdirty⟩, hm⟩
    exact ⟨hg, l, hl, by omega, hd, hdirty⟩
  · rintro ⟨hg, l, hl, hp, hd, hdirty⟩
    exact ⟨l, hl, ⟨⟨⟨hg, by omega⟩, hd⟩, hdirty⟩, by omega⟩

theorem recallDeadline_due (hs : (getFrame s frame).state = .recalling) (hc : (getFrame s frame).closing = false)
    (ht : (getFrame s frame).deadline ≤ s.time) :
    let f := getFrame s frame
    ∃ t, Steps (.recallDeadline frame) s t ∧
      (getFrame t frame).closing = true ∧ (getFrame t frame).state = .recalling ∧
      (∀ e ∈ t.tlb, e.dom = f.peer → e.coversFrame frame = false) ∧ (∀ e ∈ t.tlb, frame ∈ e.tables → tableFrameOk t e.dom frame = true) ∧
      (∀ g, g ∈ (getFrame t frame).pending ↔ g < 164 ∧ clusterHolds s g frame f.peer = true) ∧
      (∀ g, g ≠ frame → getFrame t g = getFrame s g) := by
  intro f
  let closed : Frame := { f with closing := true, pending := (upto 164).filter fun g => clusterHolds s g frame f.peer,
                                 dirtied := [], lateLines := [] }
  let t := dropEntries (setFrame s frame closed) frame fun d => decide (d = f.peer)
  have read (g : Nat) : getFrame t g = if frame = g then closed else getFrame s g := getFrame_setFrame ..
  have step : Steps (.recallDeadline frame) s t := by
    have hdue : ¬ (f.state ≠ .recalling ∨ f.closing = true ∨ s.time < f.deadline) := by
      rintro (h | h | h)
      · exact h hs
      · exact absurd (hc.symm.trans h) (by decide)
      · exact absurd ht (Nat.not_le.mpr h)
    exact congrArg Host.Outcome.next (if_neg hdue)
  refine ⟨t, step, ?_, ?_, fun e he hp => (mem_dropEntries he).2.1 (decide_eq_true hp), fun e he => (mem_dropEntries he).2.2,
    fun g => ?_, fun g hg => ?_⟩
  · rw [read, if_pos rfl]
  · rw [read, if_pos rfl]; exact hs
  · rw [read, if_pos rfl]
    simp only [closed, upto, List.mem_filter, List.mem_range]
  · rw [read, if_neg (Ne.symm hg)]

theorem recallDeadline_not_due (h : (getFrame s frame).state ≠ .recalling ∨ s.time < (getFrame s frame).deadline) :
    Steps (.recallDeadline frame) s s :=
  congrArg Host.Outcome.next (if_pos (h.imp_right .inr))

/-- A cluster's part of a closing: its lines go, and its dirty ones are counted. -/
theorem recallClusterInvalidate_step {g : Nat} (hc : (getFrame s frame).closing = true) (hg : g ∈ (getFrame s frame).pending) :
    let f := getFrame s frame
    let n := (dirtyLines s frame g f.peer).length
    Steps (.recallClusterInvalidate frame g) s
      (setFrame (flushWhere s fun c l => decide (clusterOf c = g) && decide (l.pl / 32 = frame) && decide (l.dom = f.peer)) frame
        { f with
          pending := f.pending.filter fun h => decide (h ≠ g),
          dirtied := if n = 0 then f.dirtied else f.dirtied ++ [g],
          lateLines := if n = 0 then f.lateLines else f.lateLines ++ [(g, n)] }) := by
  have hp : ¬ ((!(getFrame s frame).closing || !((getFrame s frame).pending.contains g)) = true) := by
    simp [hc, hg]
  exact congrArg Host.Outcome.next (if_neg hp)

theorem lateWrite_step {g n : Nat}
    (h : ((getFrame s frame).lateLines.find? fun x => decide (x.1 = g)) = some (g, n)) :
    let f := getFrame s frame
    let w := dropL2Where s fun pl l => decide (pl / 32 = frame) && l.dirty
    Steps (.lateWrite frame g) s (notice
      (setFrame w frame { getFrame w frame with lateLines := f.lateLines.filter fun x => decide (x.1 ≠ g) }) (kernelOf f.owner) 4093
      ([7, 4096 * frame, f.owner, f.peer, if g < 160 then g else 240 + (g - 160), n].map (BitVec.ofNat 64))) := by
  refine congrArg Host.Outcome.next ?_
  simp only [h]
  rfl

theorem recallClosingComplete_step (hc : (getFrame s frame).closing = true) (hs : (getFrame s frame).state = .recalling)
    (hp : (getFrame s frame).pending = []) (hl : (getFrame s frame).lateLines = []) :
    let f := getFrame s frame
    let words := [4, 4096 * frame, f.owner, f.peer, f.dirtied.length, min 3 (f.late + 1)].map (BitVec.ofNat 64)
    let told := notice (changeFrame (dropL2Where s fun pl l => decide (pl / 32 = frame) && decide (l.dom = f.peer)) frame
      { f with state := .owned, late := min 3 (f.late + 1), closing := false, dirtied := [] }) (kernelOf f.owner) 4093 words
    Steps (.recallClosingComplete frame) s
      (if kernelOf f.owner = kernelOf f.peer then told else notice told (kernelOf f.peer) 4093 words) := by
  have hn : ¬ ((!(getFrame s frame).closing || decide ((getFrame s frame).state ≠ .recalling) || !(getFrame s frame).pending.isEmpty ||
      !(getFrame s frame).lateLines.isEmpty) = true) := by simp [hc, hs, hp, hl]
  exact congrArg Host.Outcome.next (if_neg hn)

end

/-- Settles O46: the device steps of a closing in turn, each by the entry that it leaves. -/
theorem recallClosing : Obligations.RecallClosing := by
  unfold Obligations.RecallClosing
  intro frame s f
  refine ⟨recallDeadline_due, recallDeadline_not_due, fun g hc hg => ?_, fun g n h => ?_, fun hc hs hp hl => ?_⟩
  · refine ⟨_, dirtyLines s frame g f.peer, recallClusterInvalidate_step hc hg, ?_, fun c vl l hcl hf hpl => ?_, dirtyLines_nodup ..,
      mem_dirtyLines s frame g f.peer, fun h => ?_, fun h => ?_⟩
    · simp
    · obtain ⟨k, _, hd, _, hp, hk⟩ := flushWhere_lines _ (findL1_mem hf)
      simp [hcl, hp, hpl, hd, (findL1_tag hf).1, f] at hk
    · rw [getFrame_setFrame, if_pos rfl]
      exact ⟨if_pos (congrArg List.length h), if_pos (congrArg List.length h)⟩
    · have hn : (dirtyLines s frame g f.peer).length ≠ 0 := fun h0 => h (List.eq_nil_of_length_eq_zero h0)
      rw [getFrame_setFrame, if_pos rfl]
      exact ⟨if_neg hn, if_neg hn⟩
  · have hw := dropL2Where_access s fun pl l => decide (pl / 32 = frame) && l.dirty
    refine ⟨_, lateWrite_step h, hw.doms, ?_, ?_, by rw [getFrame_setFrame, if_pos rfl], fun k hk => ?_⟩
    · exact show _ = _ by rw [hw.rest]; rfl
    · exact show _ = _ by rw [hw.rest]; rfl
    · rw [getFrame_setFrame, if_neg (Ne.symm hk), hw.getFrame]
  · have hw := dropL2Where_access s fun pl l => decide (pl / 32 = frame) && decide (l.dom = f.peer)
    obtain ⟨u, hu, he⟩ := changeFrame_eq (dropL2Where s fun pl l => decide (pl / 32 = frame) && decide (l.dom = f.peer)) frame
      { f with state := .owned, late := min 3 (f.late + 1), closing := false, dirtied := [] }
    have hsu := hw.trans hu
    refine ⟨_, recallClosingComplete_step hc hs hp hl, (congrArg State.doms he).trans hsu.doms,
      (congrArg State.flight he).trans (by rw [hsu.rest]; rfl), (congrArg State.waiting he).trans (by rw [hsu.rest]; rfl), ?_⟩
    simp only [getFrame_changeFrame, if_pos]
    exact ⟨trivial, trivial, rfl, rfl, rfl, fun g hg => by rw [if_neg (Ne.symm hg), hw.getFrame]⟩

end Sys2Proof.Machine
end

section
/-!
The frame transactions (05 R103 R104, 19 R296-R298): the entry that each leaves, and a transaction of several frames as it commits
them one by one.
-/
namespace Sys2Proof.Machine

/-! The table of R103. -/

section
variable {s t : State} {q : FrameReq} {f : Frame}

/-- What the offers, the lends and the answers to them do in R103's order: the party, then the state. -/
theorem frameNext_accept (h : q.op = .accept) : frameNext s q f =
    if f.state = .free then .ok { f with state := .owned, owner := q.for_, peer := q.for_, keyid := q.for_, late := 0 }
    else if f.peer ≠ q.for_ then .error .authority
    else if f.state ≠ .offered then .error .state else .ok { f with state := .owned, owner := f.peer } := by
  simp only [frameNext, h]

theorem frameNext_offer (h : q.op = .offer) : frameNext s q f =
    if f.owner ≠ q.for_ then .error .authority
    else if ¬ (f.state = .owned ∧ f.peer = f.owner) then .error .state
    else if q.peer = 255 then .ok { f with state := .free, owner := 255, peer := 255 }
    else .ok { f with state := .offered, peer := q.peer } := by
  simp only [frameNext, h, Bool.not_eq_true', Bool.and_eq_false_iff, decide_eq_false_iff_not, not_and_or]

theorem frameNext_decline (h : q.op = .decline) : frameNext s q f =
    if f.peer ≠ q.for_ then .error .authority
    else if f.state ≠ .offered then .error .state else .ok { f with state := .owned, peer := f.owner } := by
  simp only [frameNext, h]

theorem frameNext_withdraw (h : q.op = .withdraw) : frameNext s q f =
    if f.owner ≠ q.for_ then .error .authority
    else if f.state ≠ .offered then .error .state else .ok { f with state := .owned, peer := f.owner } := by
  simp only [frameNext, h]

theorem frameNext_lend (h : q.op = .lend) : frameNext s q f =
    if f.owner ≠ q.for_ then .error .authority
    else if ¬ (f.state = .owned ∧ f.peer = f.owner) then .error .state
    else if unacknowledged s q.peer then .error .busy
    else .ok { f with state := .lent, peer := q.peer, dclass := q.dclass } := by
  simp only [frameNext, h, Bool.not_eq_true', Bool.and_eq_false_iff, decide_eq_false_iff_not, not_and_or]

theorem frameNext_recall (h : q.op = .recall) : frameNext s q f =
    if f.owner ≠ q.for_ then .error .authority
    else if f.state ≠ .lent then .error .state
    else .ok { f with state := .recalling, deadline := s.time + deadlineOf f.dclass, closing := false, pending := [], dirtied := [],
                      lateLines := [] } := by
  simp only [frameNext, h]

theorem frameNext_release (h : q.op = .release) : frameNext s q f =
    if f.peer ≠ q.for_ then .error .authority
    else if f.state = .lent ∨ (f.state = .recalling ∧ s.time < f.deadline ∧ f.closing = false) ∨ (f.state = .owned ∧ f.peer ≠ f.owner) then
      .ok { f with state := .owned, peer := f.owner }
    else .error .state := by
  simp only [frameNext, h, Bool.not_eq_true', decide_eq_false_iff_not]

theorem unacknowledged_iff (e : Nat) : unacknowledged s e = true ↔
    ∃ x ∈ s.frames, x.2.state = .owned ∧ x.2.peer = e ∧ x.2.peer ≠ x.2.owner := by
  simp only [unacknowledged, List.any_eq_true, Bool.and_eq_true, decide_eq_true_eq, and_assoc]

/-- R105's table, the first five classes a power of 4 each. -/
theorem deadlineOf_eq {k : Nat} (h : k < 8) : deadlineOf k =
    if k = 5 then 1000000 else if k = 6 then 4000000 else if k = 7 then 16000000 else 1000 * 4 ^ k := by
  revert k
  decide

end

theorem frameTable : Clauses.FrameTable := by
  intro s q f
  dsimp only
  refine ⟨fun h => ?accept, fun h => ?offer, fun h => ?decline, fun h => ?withdraw, fun h => ?lend, fun h => ?recalled,
    fun h => ?release⟩
  case accept =>
    rw [frameNext_accept h]
    exact ⟨fun hf => if_pos hf, fun ho hp => by simp [ho, hp], fun hf hp => by simp [hf, hp], fun hp hf ho => by simp [hf, hp, ho]⟩
  case offer =>
    rw [frameNext_offer h]
    exact ⟨fun hp => if_pos hp, fun hp => ⟨fun hh h5 => by simp [hp, hh, h5], fun hh h5 => by simp [hp, hh, h5],
      fun hh => by rw [if_neg (not_not_intro hp), if_pos hh]⟩⟩
  case decline =>
    rw [frameNext_decline h]
    exact ⟨fun hp => if_pos hp, fun hp => ⟨fun ho => by simp [hp, ho], fun ho => by simp [hp, ho]⟩⟩
  case withdraw =>
    rw [frameNext_withdraw h]
    exact ⟨fun hp => if_pos hp, fun hp => ⟨fun ho => by simp [hp, ho], fun ho => by simp [hp, ho]⟩⟩
  case lend =>
    rw [frameNext_lend h]
    refine ⟨fun hp => if_pos hp, fun hp => ⟨fun hh => ?_, fun hh hn => ?_, fun hh hn => ?_⟩⟩ <;> rw [if_neg (not_not_intro hp)]
    · exact if_pos hh
    · rw [if_neg (not_not_intro hh), if_neg (mt (unacknowledged_iff q.peer).mp fun ⟨x, hx, hu⟩ => hn x hx hu)]
    · rw [if_neg (not_not_intro hh), if_pos ((unacknowledged_iff q.peer).mpr hn)]
  case recalled =>
    rw [frameNext_recall h]
    exact ⟨fun hp => if_pos hp, fun hp => ⟨fun hl => by simp [hp, hl], fun hl hk => by simp [hp, hl, deadlineOf_eq hk]⟩⟩
  case release =>
    rw [frameNext_release h]
    refine ⟨fun hp => if_pos hp, fun hp => ⟨fun hr => ?_, fun ho hh => ?_⟩⟩ <;> rw [if_neg (not_not_intro hp)]
    · exact if_pos hr
    · exact if_neg (by simp [ho, hh])

/-! Frames that commit one by one. -/

section
variable {s t u : State} {q : FrameReq}

/-- A test on the entries of a table that neither the old nor the new entry of a key meets. -/
theorem any_tabPut {α : Type} {p : Nat × α → Bool} {t : Tab α} {k : Nat} {a : α} (hnew : p (k, a) = false)
    (hold : ∀ b, tabFind t k = some b → p (k, b) = false) : (tabPut t k a).any p = t.any p := by
  induction t with
  | nil => simp [tabPut, hnew]
  | cons x r ih =>
    obtain ⟨j, b⟩ := x
    rw [tabPut]
    split
    · rw [List.any_cons, hnew, Bool.false_or]
    · split
      · next hj =>
        subst hj
        rw [List.any_cons, List.any_cons, hnew, hold b (if_pos rfl)]
      · next hj => rw [List.any_cons, List.any_cons, ih fun c hc => hold c ((if_neg hj).trans hc)]

/-- What a transaction reads beyond the frame's own entry. -/
theorem frameNext_congr (ht : t.time = s.time) (hu : q.op = .lend → unacknowledged t q.peer = unacknowledged s q.peer) (f : Frame) :
    frameNext t q f = frameNext s q f := by
  cases h : q.op with
  | lend => rw [frameNext_lend h, frameNext_lend h, hu h]
  | _ => simp only [frameNext, h, ht]

/-- A frame lent is none that its borrower has yet to acknowledge, before and after. -/
theorem unacknowledged_lent {fr : Nat} {new : Frame} (h : q.op = .lend) (hn : frameNext s q (getFrame s fr) = .ok new)
    (hf : t.frames = tabPut s.frames fr new) (e : Nat) : unacknowledged t e = unacknowledged s e := by
  rw [frameNext_lend h] at hn
  repeat' split at hn
  all_goals cases hn
  next hhome _ =>
  rw [unacknowledged, hf]
  refine any_tabPut rfl fun b hb => ?_
  have hfr : getFrame s fr = b := by rw [getFrame, hb]; rfl
  rw [← hfr]
  simp [(not_not.mp hhome).2]

/-- The state after one frame has committed: its entry changed, and for a recall the borrower's kernel told. -/
def frameCommit (q : FrameReq) (s : State) (fr : Nat) (new : Frame) : State :=
  if q.op = .recall then recallNotice (changeFrame s fr new) fr new else changeFrame s fr new

/-- A recall's notice: messages and their charges, and the issuer's lines cleaned. -/
theorem recallNotice_reports (s : State) (fr : Nat) (f : Frame) : ReportsOnly s (recallNotice s fr f) :=
  (release_access ..).reports.trans (notice_reports ..)

theorem recallNotice_sheds (s : State) (fr : Nat) (f : Frame) : Sheds s (recallNotice s fr f) :=
  (release_sheds ..).trans (notice_sheds ..)

theorem frameCommit_reports (q : FrameReq) (s : State) (fr : Nat) (new : Frame) :
    ReportsOnly (changeFrame s fr new) (frameCommit q s fr new) := by
  rw [frameCommit]
  split
  · exact recallNotice_reports ..
  · exact .refl _

theorem frameCommit_sheds (q : FrameReq) (s : State) (fr : Nat) (new : Frame) :
    Sheds (changeFrame s fr new) (frameCommit q s fr new) := by
  rw [frameCommit]
  split
  · exact recallNotice_sheds ..
  · exact .refl _

theorem getFrame_frameCommit (q : FrameReq) (s : State) (fr : Nat) (new : Frame) (g : Nat) :
    getFrame (frameCommit q s fr new) g = if fr = g then new else getFrame s g :=
  ((frameCommit_reports ..).getFrame g).trans (getFrame_changeFrame ..)

theorem frameCommit_time (q : FrameReq) (s : State) (fr : Nat) (new : Frame) : (frameCommit q s fr new).time = s.time := by
  have h : (frameCommit q s fr new).time = (changeFrame s fr new).time := by rw [(frameCommit_reports ..).rest]
  exact h.trans (changeFrame_time ..)

theorem frameCommit_core (q : FrameReq) (s : State) (fr : Nat) (new : Frame) : (frameCommit q s fr new).core = s.core := by
  have h : (frameCommit q s fr new).core = (changeFrame s fr new).core := by rw [(frameCommit_reports ..).rest]
  exact h.trans (changeFrame_core ..)

theorem frameCommit_frames (q : FrameReq) (s : State) (fr : Nat) (new : Frame) :
    (frameCommit q s fr new).frames = tabPut s.frames fr new := by
  have h : (frameCommit q s fr new).frames = (changeFrame s fr new).frames := by rw [(frameCommit_reports ..).rest]
  obtain ⟨u, hu, he⟩ := changeFrame_eq s fr new
  rw [h, he, setFrame, hu.frames]

/-- The answer of R103 on a frame is the same after another has committed. -/
theorem frameNext_frameCommit {fr : Nat} {new : Frame} (hn : frameNext s q (getFrame s fr) = .ok new) (f : Frame) :
    frameNext (frameCommit q s fr new) q f = frameNext s q f :=
  frameNext_congr (frameCommit_time ..) (fun h => unacknowledged_lent h hn (frameCommit_frames ..) _) f

/-- What `m` frames from `first` that have committed leave: their entries, every other entry, the activation, and nothing of a
committed frame with a domain that its new entry denies. -/
structure Committed (s u : State) (first m : Nat) (new : Nat → Frame) : Prop where
  act : u.act = s.act
  core : u.core = s.core
  time : u.time = s.time
  sheds : Sheds s u
  entry : ∀ n, n < m → getFrame u (first + n) = new n
  other : ∀ f, f < first ∨ first + m ≤ f → getFrame u f = getFrame s f
  cleared : ∀ n, n < m → Cleared u (first + n) (new n)

theorem Committed.none (s : State) (first : Nat) (new : Nat → Frame) : Committed s s first 0 new :=
  ⟨rfl, rfl, rfl, .refl s, fun _ h => absurd h (Nat.not_lt_zero _), fun _ _ => rfl, fun _ h => absurd h (Nat.not_lt_zero _)⟩

/-- One frame commits, then those above it. -/
theorem Committed.cons {first m : Nat} {new : Nat → Frame}
    (h : Committed (frameCommit q s first (new 0)) u (first + 1) m fun n => new (n + 1)) : Committed s u first (m + 1) new := by
  have hfirst : getFrame u first = new 0 := by
    rw [h.other first (.inl (Nat.lt_succ_self _)), getFrame_frameCommit, if_pos rfl]
  refine ⟨?_, h.core.trans (frameCommit_core ..), h.time.trans (frameCommit_time ..),
    ((changeFrame_sheds ..).trans (frameCommit_sheds ..)).trans h.sheds, fun n hn => ?_, fun f hf => ?_, fun n hn => ?_⟩
  · exact h.act.trans ((frameCommit_reports ..).act.trans (changeFrame_act ..))
  · cases n with
    | zero => exact hfirst
    | succ n => rw [← h.entry n (by omega), Nat.add_right_comm, Nat.add_assoc]
  · rw [h.other f (by omega), getFrame_frameCommit, if_neg (by omega)]
  · cases n with
    | zero =>
      refine (changeFrame_cleared s first (new 0)).later ((frameCommit_sheds ..).trans h.sheds)
        (h.time.trans ((frameCommit_time ..).trans (changeFrame_time ..).symm)) ?_
      exact hfirst.trans ((getFrame_changeFrame ..).trans (if_pos rfl)).symm
    | succ n =>
      have hc := h.cleared n (by omega)
      rwa [Nat.add_right_comm, Nat.add_assoc] at hc

/-- Frames commit up to the first that R103 refuses. -/
theorem commitFrames_committed {m n first done : Nat} {r : Result} {new : Nat → Frame} (hm : m ≤ n)
    (hnew : ∀ i, i < m → frameNext s q (getFrame s (first + i)) = .ok (new i))
    (hstop : m = n ∧ r = .ok ∨ m < n ∧ frameNext s q (getFrame s (first + m)) = .error r) :
    ∃ u, commitFrames q n first done s = (done + m, r, u) ∧ Committed s u first m new := by
  induction m generalizing n first done s new with
  | zero =>
    refine ⟨s, ?_, .none s first new⟩
    cases n with
    | zero => rw [commitFrames, (hstop.resolve_right fun h => absurd h.1 (Nat.lt_irrefl 0)).2]; rfl
    | succ n =>
      have he : frameNext s q (getFrame s first) = .error r := (hstop.resolve_left fun h => absurd h.1 (by omega)).2
      simp only [commitFrames, he]
      rfl
  | succ m ih =>
    obtain ⟨n, rfl⟩ : ∃ k, n = k + 1 := ⟨n - 1, by omega⟩
    have h0 : frameNext s q (getFrame s first) = .ok (new 0) := hnew 0 (by omega)
    have next (i : Nat) : frameNext (frameCommit q s first (new 0)) q (getFrame (frameCommit q s first (new 0)) (first + 1 + i)) =
        frameNext s q (getFrame s (first + (i + 1))) := by
      rw [frameNext_frameCommit h0, getFrame_frameCommit, if_neg (by omega), Nat.add_right_comm, Nat.add_assoc]
    obtain ⟨u, he, hu⟩ := ih (n := n) (first := first + 1) (done := done + 1) (s := frameCommit q s first (new 0))
      (new := fun i => new (i + 1)) (by omega) (fun i hi => (next i).trans (hnew (i + 1) (by omega)))
      (hstop.imp (fun h => ⟨by omega, h.2⟩) fun h => ⟨by omega, (next m).trans h.2⟩)
    refine ⟨u, ?_, hu.cons⟩
    simp only [commitFrames, h0]
    rw [show done + (m + 1) = done + 1 + m by omega]
    exact he

end

/-! The word of a transaction. -/

section
variable {s : State} {op : FrameOp} {d a b : SReg}

theorem at_eq (x lo : Nat) : at_ x lo = BitVec.ofNat 64 x <<< lo := by
  rw [at_]
  refine BitVec.eq_of_toNat_eq ?_
  simp [Nat.shiftLeft_eq, BitVec.toNat_shiftLeft, Nat.mod_mul_mod]

theorem chargeFrames_metered (s : State) (k m n : Nat) : Metered s (chargeFrames s k m n) := charge_metered ..

/-- The frames of a transaction that R297 does not refuse are all memory. -/
theorem isDram_of_not_refused {q : FrameReq} {k : Nat} {pa w : Word} (h : frameRefused s q k pa w = none) {i : Nat} (hi : i < q.count) :
    isDram (4096 * (pa.toNat / 4096 + i)) = true := by
  unfold frameRefused at h
  dsimp only at h
  repeat' split at h
  any_goals contradiction
  next hall =>
  simp only [Bool.not_eq_true', Bool.not_eq_false, List.all_eq_true, upto, List.mem_range] at hall
  exact hall i hi

/-- A charge and a scalar result: what the word of a transaction leaves beyond its frames. -/
theorem charged_setS_rest (t : State) (k m n : Nat) (d : SReg) (w : Word) :
    let u := (chargeFrames t k m n).setS d w
    (d ≠ 0 → u.getS d = w) ∧ (∀ f, getFrame u f = getFrame t f) ∧ (∀ x, x ≠ d → u.getS x = t.getS x) ∧ Sheds t u ∧
      u.time = t.time := by
  have h := chargeFrames_metered t k m n
  refine ⟨fun hd => ?_, fun f => ?_, fun x hx => ?_, ?_, ?_⟩
  · rw [State.getS_setS_self, if_neg hd]
  · refine getFrame_congr ?_ ?_ ?_ f <;> simp only [State.setS_frames, State.setS_stage, State.setS_diemask] <;> rw [h]
  · rw [State.getS_setS_of_ne _ _ hx, State.getS, State.getS, h]
  · exact .of_eq ((State.setS_cores ..).trans h.slice.cores) ((State.setS_tlb ..).trans h.slice.tlb)
  · rw [State.setS_time, h]

/-- A transaction that R297 refuses. -/
theorem frameEff_refused {r : Result} (h : frameRefused s (frameReq op (s.getS b)) s.act.dom (s.getS a) (s.getS b) = some r) :
    let first := (s.getS a).toNat / 4096
    let t := chargeFrames s s.act.dom (clusterOf s.core) 0
    frameEff s op d a b = plain (t.setS d (frameStatus s r 0 (shownFrame first (frameReq op (s.getS b)).count 0))) := by
  simp only [frameEff, h]

/-- A transaction whose frames commit. -/
theorem frameEff_committed (h : frameRefused s (frameReq op (s.getS b)) s.act.dom (s.getS a) (s.getS b) = none) {m : Nat} {r : Result}
    {t : State} (hc : commitFrames (frameReq op (s.getS b)) (frameReq op (s.getS b)).count ((s.getS a).toNat / 4096) 0 s = (m, r, t)) :
    let first := (s.getS a).toNat / 4096
    let u := chargeFrames t s.act.dom (clusterOf t.core) m
    frameEff s op d a b = plain (u.setS d (frameStatus t r m (shownFrame first (frameReq op (s.getS b)).count m))) := by
  simp only [frameEff, h, hc]

theorem frameStatus_eq (s : State) (r : Result) (n first asked : Nat) : frameStatus s r n (shownFrame first asked n) =
    (BitVec.ofNat 64 r.code <<< 56) ||| (BitVec.ofNat 64 n <<< 32) |||
      (if isDram (4096 * (first + min n (asked - 1))) then (getFrame s (first + min n (asked - 1))).word else 0) := by
  unfold frameStatus shownFrame
  rw [at_eq, at_eq]
  by_cases h : isDram (4096 * (first + min n (asked - 1))) = true
  · rw [if_pos h, if_pos h]
  · rw [if_neg h, if_neg h]

theorem frameWord_completes {i : Instr} {u : State} (he : exec i s = frameWord i.word s fun s => frameEff s op d a b)
    (hw : s.act.wait ≠ some .frameOp) (hi : Issues i s) (hf : frameEff s op d a b = plain u) : Completes i s u .seq [] :=
  he.trans (issueWord_done hi ((if_neg hw).trans hf))

/-- A frame transaction, by what R297 and then R103 answer. -/
theorem frameTransaction {i : Instr} (he : exec i s = frameWord i.word s fun s => frameEff s op d a b)
    (hw : s.act.wait ≠ some .frameOp) (hi : Issues i s) :
    let w := s.getS b
    let first := (s.getS a).toNat / 4096
    let q := frameReq op w
    (∀ r, frameRefused s q s.act.dom (s.getS a) w = some r → ∃ u, Completes i s u .seq [] ∧
      (d ≠ 0 → u.getS d = (BitVec.ofNat 64 r.code <<< 56) ||| (BitVec.ofNat 64 0 <<< 32) |||
        (if isDram (4096 * first) then (getFrame u first).word else 0)) ∧
      (∀ f, getFrame u f = getFrame s f) ∧ (∀ x, x ≠ d → u.getS x = s.getS x)) ∧
    (frameRefused s q s.act.dom (s.getS a) w = none → ∀ (m r : Nat) (new : Nat → Frame), m ≤ q.count →
      (∀ n, n < m → frameNext s q (getFrame s (first + n)) = .ok (new n)) →
      (m = q.count ∧ r = 0 ∨ m < q.count ∧ ∃ e, frameNext s q (getFrame s (first + m)) = .error e ∧ r = e.code) →
      ∃ u, Completes i s u .seq [] ∧ (∀ n, n < m → getFrame u (first + n) = new n) ∧
        (∀ f, f < first ∨ first + m ≤ f → getFrame u f = getFrame s f) ∧ (∀ x, x ≠ d → u.getS x = s.getS x) ∧
        (d ≠ 0 → u.getS d = (BitVec.ofNat 64 r <<< 56) ||| (BitVec.ofNat 64 m <<< 32) |||
          (getFrame u (first + min m (q.count - 1))).word) ∧
        (∀ n, n < m → (∀ t ∈ u.tlb, (frameDenies (new n) t.dom s.time).isSome = true → t.coversFrame (first + n) = false) ∧
          (∀ t ∈ u.tlb, first + n ∈ t.tables → tableFrameOk u t.dom (first + n) = true) ∧
          ∀ c e vl l, findL1 u c e vl = some l → l.pl / 32 = first + n → frameDenies (new n) e s.time = none)) := by
  intro w first q
  refine ⟨fun r hr => ?_, fun hr m r new hm hnew hstop => ?_⟩
  · obtain ⟨hd, hf, hx, -, -⟩ := charged_setS_rest s s.act.dom (clusterOf s.core) 0 d (frameStatus s r 0 (shownFrame first q.count 0))
    refine ⟨_, frameWord_completes he hw hi (frameEff_refused hr), fun h => ?_, hf, hx⟩
    rw [hf]
    refine (hd h).trans ((frameStatus_eq ..).trans ?_)
    rw [Nat.zero_min, Nat.add_zero]
  · obtain ⟨e, hend, rfl⟩ : ∃ e, (m = q.count ∧ e = .ok ∨ m < q.count ∧ frameNext s q (getFrame s (first + m)) = .error e) ∧
        r = e.code := by
      rcases hstop with ⟨h, rfl⟩ | ⟨h, e, he, rfl⟩
      · exact ⟨.ok, .inl ⟨h, rfl⟩, rfl⟩
      · exact ⟨e, .inr ⟨h, he⟩, rfl⟩
    obtain ⟨t, hc, ht⟩ := commitFrames_committed (done := 0) hm hnew hend
    rw [Nat.zero_add] at hc
    obtain ⟨hd, hf, hx, hsheds, htime⟩ :=
      charged_setS_rest t s.act.dom (clusterOf t.core) m d (frameStatus t e m (shownFrame first q.count m))
    refine ⟨_, frameWord_completes he hw hi (frameEff_committed hr hc), fun n hn => (hf _).trans (ht.entry n hn),
      fun f h => (hf f).trans (ht.other f h), fun x h => (hx x h).trans ?_, fun h => ?_, fun n hn => ?_⟩
    · rw [State.getS, State.getS, ht.act]
    · have hcount : 0 < q.count := Nat.succ_pos _
      rw [hf]
      refine (hd h).trans ((frameStatus_eq ..).trans ?_)
      rw [if_pos (isDram_of_not_refused hr (by omega))]
    · have cleared := (ht.cleared n hn).later hsheds htime (hf _)
      have hs := htime.trans ht.time
      refine ⟨fun e he h => cleared.leaf e he (hs ▸ h), cleared.table, fun c e vl l hl hp => ?_⟩
      rw [← (findL1_tag hl).1, ← hs]
      exact cleared.line c l (findL1_mem hl) hp

end

theorem frameTransactions : Clauses.FrameTransactions := fun _ _ _ _ hw =>
  ⟨frameTransaction rfl hw, frameTransaction rfl hw, frameTransaction rfl hw, frameTransaction rfl hw, frameTransaction rfl hw,
    frameTransaction rfl hw, frameTransaction rfl hw⟩

/-- Settles O44: the table of R103 by its rows, and the transactions by their frames, committed one by one. -/
theorem frames : Obligations.Frames := ⟨frameTable, frameTransactions⟩

end Sys2Proof.Machine
end

section
/-!
What an access faults on before its line is read (05 R94 R100 R102, 13 R208): the fields of an address, the leaf bits, a frame's
answer to a domain, and the checks through an L1.
-/
namespace Sys2Proof.Machine

/-! Fields of a word. -/

theorem bitsOf_eq_extract (w : Word) (hi lo : Nat) : bitsOf w hi lo = (w.extractLsb' lo (hi + 1 - lo)).toNat := by
  rw [bitsOf, BitVec.extractLsb'_toNat]

theorem bitsOf_eq_zero_iff (w : Word) (hi lo : Nat) : bitsOf w hi lo = 0 ↔ w.extractLsb' lo (hi + 1 - lo) = 0 := by
  rw [bitsOf_eq_extract, BitVec.toNat_eq]
  rfl

theorem high_zero_iff (va : Word) : bitsOf va 63 57 = 0 ↔ va.toNat < 2 ^ 57 := by
  rw [bitsOf_eq]
  omega

theorem memEval_mask (va : Word) : memEval va = va &&& 0x01FFFFFFFFFFFFFF := rfl

theorem memEval_of_lt {va : Word} (h : va.toNat < 2 ^ 57) : memEval va = va := by
  refine BitVec.eq_of_toNat_eq ?_
  rw [memEval_mask, BitVec.toNat_and, show (0x01FFFFFFFFFFFFFF : Word).toNat = 2 ^ 57 - 1 from rfl, Nat.and_two_pow_sub_one_eq_mod,
    Nat.mod_eq_of_lt h]

/-! The leaf bits of R94. -/

section
variable (p : Perms) (k : Bool)

/-- The bits that an access needs (05 R94). -/
def Perms.has (p : Perms) : Need → Prop
  | .load => p.r = true
  | .store => p.w = true
  | .both => p.r = true ∧ p.w = true
  | .fetch => p.x = true

theorem Perms.allow_iff (need : Need) : p.allow need k = true ↔ p.has need ∧ (p.k = false ∨ k = true) := by
  cases need <;> simp [Perms.allow, Perms.has, or_comm]

theorem Perms.allow_eq_false_iff (need : Need) : p.allow need k = false ↔ ¬ (p.has need ∧ (p.k = false ∨ k = true)) := by
  rw [← allow_iff, Bool.not_eq_true]

end

/-! A frame's answer to a domain (05 R102). -/

section
variable {f : Frame} {d now : Nat}

/-- A loan that its borrower may still use (05 R102 R105). -/
def Frame.isOpen (f : Frame) (now : Nat) : Prop :=
  f.state = .lent ∨ (f.state = .recalling ∧ f.closing = false ∧ now < f.deadline)

theorem frameDenies_eq_none_iff : frameDenies f d now = none ↔
    (f.owner = d ∧ f.state ∈ [FrameState.owned, .lent, .recalling]) ∨ ((f.peer = d ∧ f.peer ≠ f.owner) ∧ f.isOpen now) := by
  unfold frameDenies Frame.isOpen
  by_cases ho : f.owner = d
  · cases f.state <;> simp [ho, Ne.symm]
  · have hne : ¬ d = f.owner := Ne.symm ho
    by_cases hp : f.peer = d <;> cases f.state <;> simp [ho, hp, hne]

theorem frameDenies_revoked (hp : f.peer = d ∧ f.peer ≠ f.owner) (hs : f.state ∈ [FrameState.owned, .recalling])
    (hn : ¬ f.isOpen now) : frameDenies f d now = some .frameRevoked := by
  obtain ⟨rfl, hne⟩ := hp
  rcases List.mem_pair.mp hs with h | h
  · simp [frameDenies, h, hne, Ne.symm hne]
  · simp only [Frame.isOpen, h, true_and, not_or] at hn
    have hover : f.closing = true ∨ f.deadline ≤ now := by
      cases hc : f.closing with
      | true => exact .inl rfl
      | false => exact .inr (Nat.not_lt.mp fun hlt => hn.2 ⟨hc, hlt⟩)
    simp [frameDenies, h, hne, Ne.symm hne, hover]

theorem frameDenies_notOwned (hy : ¬ ((f.owner = d ∧ f.state ∈ [FrameState.owned, .lent, .recalling]) ∨
      ((f.peer = d ∧ f.peer ≠ f.owner) ∧ f.isOpen now)))
    (hr : ¬ ((f.peer = d ∧ f.peer ≠ f.owner) ∧ f.state ∈ [FrameState.owned, .recalling] ∧ ¬ f.isOpen now)) :
    frameDenies f d now = some .frameNotOwned := by
  unfold Frame.isOpen at hy hr
  unfold frameDenies
  by_cases ho : f.owner = d
  · cases hs : f.state <;> simp [ho, hs] at hy ⊢
  · have hne : ¬ d = f.owner := Ne.symm ho
    by_cases hp : f.peer = d <;> cases hs : f.state <;> simp [ho, hp, hne, hs] at hy hr ⊢
    exact absurd hr.2 (Nat.not_lt.mpr (hy hr.1))

end

/-! Through an L1. -/

section
variable {s : State} {va : Word} {n x : Nat} {st : Option Stamp}

theorem addrFault_high (h : 2 ^ 57 ≤ va.toNat) : addrFault va n = some (.pageAbsent, va &&& 0x01FFFFFFFFFFFFFF) :=
  if_pos (mt (high_zero_iff va).mp (Nat.not_lt.mpr h))

theorem addrFault_misaligned (h : va.toNat < 2 ^ 57) (ha : va.toNat % n ≠ 0) : addrFault va n = some (.misaligned, va) := by
  rw [addrFault, if_neg (not_not_intro ((high_zero_iff va).mpr h)), if_pos ha, memEval_of_lt h]

theorem addrFault_none (h : va.toNat < 2 ^ 57) (ha : va.toNat % n = 0) : addrFault va n = none := by
  rw [addrFault, if_neg (not_not_intro ((high_zero_iff va).mpr h)), if_neg (not_not_intro ha)]

/-- An access faults by its address alone. -/
theorem access_addrFault {c : Cause} {v : Word} (h : addrFault va n = some (c, v)) :
    loadBytes s va n = .error (.fault c v s) ∧ storeBytes s va n x st = .error (.fault c v s) := by
  simp only [loadBytes, storeBytes, h, and_self]

section
variable {c d : Nat} {k : Bool} {need : Need} {l : L1Line} (hva : va.toNat < 2 ^ 57) (hl : findL1 s c d (vlineOf va) = some l)
  (hv : l.valid &&& byteMask (va.toNat % 128) n = byteMask (va.toNat % 128) n)
include hva hl hv

/-- A hit is checked by the bits that its line records. -/
theorem lineFor_hit : lineFor s c d k need va n = if l.perms.allow need k then .ok (l, s) else .error (.fault .pagePerm va s) := by
  simp only [lineFor, (high_zero_iff va).mpr hva, hl, hv, memEval_of_lt hva, ne_eq, not_true_eq_false, if_false, if_true]

theorem lineCheck_hit : lineCheck s c d k need va n = if l.perms.allow need k then .ok s else .error (.fault .pagePerm va s) := by
  simp only [lineCheck, hl, Option.filter_some, hv, (high_zero_iff va).mpr hva, decide_true, Bool.and_self, if_true, memEval_of_lt hva]

end

section
variable {l : L1Line} (hva : va.toNat < 2 ^ 57) (ha : va.toNat % n = 0) (hl : findL1 s s.core s.act.dom (vlineOf va) = some l)
  (hv : l.valid &&& byteMask (va.toNat % 128) n = byteMask (va.toNat % 128) n)
include hva ha hl hv

theorem loadBytes_hit_denied (hp : l.perms.allow .load s.act.kernel = false) : loadBytes s va n = .error (.fault .pagePerm va s) := by
  simp [loadBytes, addrFault_none hva ha, loadLine, lineFor_hit hva hl hv, lineCheck_hit hva hl hv, hp, watchStop]

theorem storeBytes_hit_denied (hp : l.perms.allow .store s.act.kernel = false) :
    storeBytes s va n x st = .error (.fault .pagePerm va s) := by
  simp [storeBytes, addrFault_none hva ha, storeLine, lineFor_hit hva hl hv, lineCheck_hit hva hl hv, hp, watchStop]

theorem loadBytes_watched (hp : l.perms.allow .load s.act.kernel = true) (hw : watchHit s .load va n = true) :
    loadBytes s va n = .error (.fault .watchpoint va s) := by
  simp [loadBytes, addrFault_none hva ha, hw, lineCheck_hit hva hl hv, hp, watchStop]

theorem storeBytes_watched (hp : l.perms.allow .store s.act.kernel = true) (hw : watchHit s .store va n = true) :
    storeBytes s va n x st = .error (.fault .watchpoint va s) := by
  simp [storeBytes, addrFault_none hva ha, hw, lineCheck_hit hva hl hv, hp, watchStop]

end

end

/-- The faults of an access that its L1 serves, by the first check that fails. -/
theorem hitFaults : Clauses.HitFaults := by
  intro s va n x st _
  refine ⟨fun h => access_addrFault (addrFault_high h), fun h ha => access_addrFault (addrFault_misaligned h ha),
    fun l h ha hl hv => ?_⟩
  have denied {need : Need} (hn : ¬ l.perms.has need ∨ (l.perms.k = true ∧ s.act.kernel = false)) :
      l.perms.allow need s.act.kernel = false := by
    rw [Perms.allow_eq_false_iff]
    rcases hn with hn | ⟨hk, hm⟩
    · exact fun hp => hn hp.1
    · exact fun hp => by simp [hk, hm] at hp
  refine ⟨fun hp => loadBytes_hit_denied h ha hl hv (denied (hp.imp_left fun hr => by simp [Perms.has, hr])),
    fun hp => storeBytes_hit_denied h ha hl hv (denied (hp.imp_left fun hr => by simp [Perms.has, hr])),
    fun hr hk hw => loadBytes_watched h ha hl hv ((Perms.allow_iff ..).mpr ⟨hr, hk⟩) hw,
    fun hr hk hw => storeBytes_watched h ha hl hv ((Perms.allow_iff ..).mpr ⟨hr, hk⟩) hw⟩

end Sys2Proof.Machine
end

section
/-!
One level of a walk (05 R90-R96 R100 R110): the table entry and its checks, the group of 64 KiB, and what the walk answers.
-/
namespace Sys2Proof.Machine

/-! Lines and the numbers in them. -/

theorem getLsbD_lineByte (d : LineBits) (i j : Nat) : (lineByte d i).getLsbD j = (decide (j < 8) && d.getLsbD (8 * i + j)) := by
  rw [lineByte, BitVec.getLsbD_setWidth, BitVec.getLsbD_ushiftRight]

theorem testBit_lineNat (d : LineBits) (off n j : Nat) : (lineNat d off n).testBit j = (decide (j < 8 * n) && d.getLsbD (8 * off + j)) := by
  rw [lineNat, Nat.testBit_mod_two_pow, Nat.testBit_shiftRight]
  rfl

/-- A byte of the number in a line's bytes is the line's byte. -/
theorem extract_lineNat (d : LineBits) (off i : Nat) (hi : i < 8) :
    (BitVec.ofNat 64 (lineNat d off 8)).extractLsb' (8 * i) 8 = lineByte d (off + i) := by
  refine BitVec.eq_of_getLsbD_eq fun j hj => ?_
  rw [BitVec.getLsbD_extractLsb', BitVec.getLsbD_ofNat, testBit_lineNat, getLsbD_lineByte, Nat.mul_add, Nat.add_assoc]
  simp only [show 8 * i + j < 64 by omega, hj, decide_true, Bool.true_and]

/-! Table entries (05 R91 R92). -/

section
variable {e : Word} {level : Nat}

theorem pteFrame_eq (e : Word) : pteFrame e = (e.extractLsb' 12 40).toNat := bitsOf_eq_extract e 51 12

theorem pteLeaf_iff (hl : 1 ≤ level) : pteLeaf e level = true ↔ level = 1 ∨ (level ≤ 3 ∧ e.getLsbD 7 = true) := by
  simp only [pteLeaf, Bool.or_eq_true, Bool.and_eq_true, decide_eq_true_eq]
  refine ⟨fun h => h.imp_right fun h => ⟨by omega, h.2⟩, fun h => ?_⟩
  by_cases h1 : level = 1
  · exact .inl h1
  · exact .inr ((h.resolve_left h1).imp_left fun h => by omega)

/-- An entry whose form R92 does not allow at a level, its reserved bits apart. -/
def Malformed (e : Word) (level : Nat) : Prop :=
  let leaf : Prop := level = 1 ∨ (level ≤ 3 ∧ e.getLsbD 7 = true)
  (4 ≤ level ∧ e.getLsbD 7 = true) ∨ (¬ leaf ∧ e.extractLsb' 1 6 ≠ 0) ∨
    (leaf ∧ level ≠ 1 ∧ e.getLsbD 6 = true) ∨ (level = 3 ∧ leaf ∧ e.extractLsb' 12 18 ≠ 0) ∨
    (level = 2 ∧ leaf ∧ e.extractLsb' 12 9 ≠ 0) ∨ (leaf ∧ e.getLsbD 2 = true ∧ e.getLsbD 1 = false)

/-- R92's checks in order: the reserved bits, V, the form. -/
theorem pteFault_reserved (h : e.extractLsb' 52 12 ≠ 0) : pteFault e level = some .pteReserved :=
  if_pos (mt (bitsOf_eq_zero_iff e 63 52).mp h)

theorem pteFault_absent (h : e.extractLsb' 52 12 = 0) (hv : e.getLsbD 0 = false) : pteFault e level = some .pageAbsent := by
  rw [pteFault, if_neg (not_not_intro ((bitsOf_eq_zero_iff e 63 52).mpr h)), if_pos (by rw [hv]; rfl)]

/-- The tests of an entry's form, as R92's order has them. -/
theorem malformed_iff (hl : 1 ≤ level) : Malformed e level ↔
    (4 ≤ level ∧ e.getLsbD 7 = true) ∨ (!pteLeaf e level && decide (bitsOf e 6 1 ≠ 0)) = true ∨
      (pteLeaf e level && decide (level ≠ 1) && e.getLsbD 6) = true ∨
      (pteLeaf e level && decide (level = 3) && decide (bitsOf e 29 12 ≠ 0)) = true ∨
      (pteLeaf e level && decide (level = 2) && decide (bitsOf e 20 12 ≠ 0)) = true ∨
      (pteLeaf e level && e.getLsbD 2 && !e.getLsbD 1) = true := by
  simp only [Malformed, ← pteLeaf_iff (e := e) hl, Bool.and_eq_true, Bool.not_eq_true', Bool.not_eq_true, decide_eq_true_eq, ne_eq,
    bitsOf_eq_zero_iff, and_assoc, and_left_comm]

theorem pteFault_form (hl : 1 ≤ level) (h : e.extractLsb' 52 12 = 0) (hv : e.getLsbD 0 = true) :
    (Malformed e level → pteFault e level = some .pteReserved) ∧ (¬ Malformed e level → pteFault e level = none) := by
  rw [pteFault, if_neg (not_not_intro ((bitsOf_eq_zero_iff e 63 52).mpr h)), if_neg (by rw [hv]; decide), malformed_iff hl]
  simp only [← ite_or]
  exact ⟨fun hm => if_pos hm, fun hm => if_neg hm⟩

end

/-! The group of sixteen that may form one entry (05 R96). -/

section
variable {s t : State} {d frame idx : Nat}

theorem Metered.readPte (h : Metered s t) (frame idx : Nat) : readPte t frame idx = readPte s frame idx := by
  rw [h]; rfl

theorem Metered.contiguous (h : Metered s t) (d frame idx : Nat) : contiguous t d frame idx = contiguous s d frame idx := by
  rw [h]; rfl

/-- An entry of the group, by its place in it. -/
def groupEntry (s : State) (frame idx i : Nat) : Word := readPte s frame (idx / 16 * 16 + i)

/-- R96's conditions on a group for a domain, as against the entry `e` that was read. -/
def Joined (s : State) (d frame idx : Nat) (e : Word) : Prop :=
  pteFrame (groupEntry s frame idx 0) % 16 = 0 ∧ ∀ i, i < 16 → (groupEntry s frame idx i).extractLsb' 52 12 = 0 ∧
    (groupEntry s frame idx i).getLsbD 0 = true ∧ (groupEntry s frame idx i).getLsbD 6 = true ∧
    (groupEntry s frame idx i).extractLsb' 1 5 = e.extractLsb' 1 5 ∧
    pteFrame (groupEntry s frame idx i) = pteFrame (groupEntry s frame idx 0) + i ∧
    leafDenies s d ((groupEntry s frame idx i).getLsbD 4) (4096 * pteFrame (groupEntry s frame idx i)) = none

theorem groupEntry_self (s : State) (frame idx : Nat) : groupEntry s frame idx (idx % 16) = readPte s frame idx := by
  rw [groupEntry, Nat.div_add_mod']

theorem contiguous_iff : contiguous s d frame idx = true ↔ pteFrame (groupEntry s frame idx 0) % 16 = 0 ∧ ∀ i, i < 16 →
    pteFault (groupEntry s frame idx i) 1 = none ∧ (groupEntry s frame idx i).getLsbD 6 = true ∧
      bitsOf (groupEntry s frame idx i) 5 1 = bitsOf (groupEntry s frame idx 0) 5 1 ∧
      pteFrame (groupEntry s frame idx i) = pteFrame (groupEntry s frame idx 0) + i ∧
      leafDenies s d ((groupEntry s frame idx i).getLsbD 4) (4096 * pteFrame (groupEntry s frame idx i)) = none := by
  have h0 : (((upto 16).map fun i => readPte s frame (idx / 16 * 16 + i)).headD 0) = groupEntry s frame idx 0 := rfl
  have hi (i : Nat) (h : i < 16) : ((upto 16).map fun i => readPte s frame (idx / 16 * 16 + i)).getD i 0 = groupEntry s frame idx i := by
    simp [upto, List.getD_eq_getElem?_getD, h, groupEntry]
  have hm (i : Nat) : i ∈ upto 16 ↔ i < 16 := List.mem_range
  simp only [contiguous, Bool.and_eq_true, decide_eq_true_eq, List.all_eq_true, hm, Option.isNone_iff_eq_none, and_assoc]
  rw [h0]
  exact and_congr_right fun _ => forall_congr' fun i => imp_congr_right fun h => by rw [hi i h]

/-- A level-1 entry that passes R92. -/
theorem pteFault_one (e : Word) : pteFault e 1 = none ↔
    e.extractLsb' 52 12 = 0 ∧ e.getLsbD 0 = true ∧ ¬ (e.getLsbD 2 = true ∧ e.getLsbD 1 = false) := by
  have hm : Malformed e 1 ↔ e.getLsbD 2 = true ∧ e.getLsbD 1 = false := by simp [Malformed]
  by_cases h : e.extractLsb' 52 12 = 0
  · cases hv : e.getLsbD 0 with
    | false => simp [pteFault_absent h hv]
    | true =>
      obtain ⟨hbad, hgood⟩ := pteFault_form (Nat.le_refl 1) h hv
      rw [hm] at hbad hgood
      exact ⟨fun hn => ⟨h, rfl, fun hb => by simp [hbad hb] at hn⟩, fun hn => hgood hn.2.2⟩
  · rw [pteFault_reserved h]
    exact ⟨nofun, fun hn => absurd hn.1 h⟩

theorem extract_getLsbD {a b : Word} (h : a.extractLsb' 1 5 = b.extractLsb' 1 5) {i : Nat} (hi : i < 5) :
    a.getLsbD (1 + i) = b.getLsbD (1 + i) := by
  simpa [hi] using congrArg (fun x : BitVec 5 => x.getLsbD i) h

/-- The walk's test of a group is R96's: an entry that passes R92 lets its group join exactly where the group's conditions hold. -/
theorem contiguous_iff_joined {e : Word} (he : readPte s frame idx = e) (hf : pteFault e 1 = none) :
    (e.getLsbD 6 = true ∧ contiguous s d frame idx = true) ↔ Joined s d frame idx e := by
  have hself : groupEntry s frame idx (idx % 16) = e := (groupEntry_self ..).trans he
  have hlt : idx % 16 < 16 := Nat.mod_lt _ (by decide)
  rw [contiguous_iff, Joined]
  refine ⟨fun ⟨_, h0, hall⟩ => ⟨h0, fun i hi => ?_⟩, fun ⟨h0, hall⟩ => ⟨?_, h0, fun i hi => ?_⟩⟩
  · obtain ⟨hp, h6, hb, hn, hd⟩ := hall i hi
    obtain ⟨-, -, hbe, -⟩ := hall _ hlt
    obtain ⟨h52, hv, -⟩ := (pteFault_one _).mp hp
    refine ⟨h52, hv, h6, BitVec.eq_of_toNat_eq ?_, hn, hd⟩
    rw [hself] at hbe
    exact (bitsOf_eq_extract _ 5 1).symm.trans ((hb.trans hbe.symm).trans (bitsOf_eq_extract _ 5 1))
  · obtain ⟨-, -, h6, -⟩ := hall _ hlt
    exact hself ▸ h6
  · obtain ⟨h52, hv, h6, hb, hn, hd⟩ := hall i hi
    obtain ⟨-, -, -, hb0, -⟩ := hall 0 (by decide)
    obtain ⟨-, -, hrw⟩ := (pteFault_one e).mp hf
    have h1 := extract_getLsbD hb (i := 0) (by decide)
    have h2 := extract_getLsbD hb (i := 1) (by decide)
    refine ⟨(pteFault_one _).mpr ⟨h52, hv, fun hw => hrw ⟨h2 ▸ hw.1, h1 ▸ hw.2⟩⟩, h6, ?_, hn, hd⟩
    exact (bitsOf_eq_extract _ 5 1).trans ((congrArg BitVec.toNat (hb.trans hb0.symm)).trans (bitsOf_eq_extract _ 5 1).symm)

end

/-! A level of the walk. -/

section
variable {s : State} {d meter n frame : Nat} {above : List Nat} {va : Word}

/-- A table frame that a domain's walk may read (05 R93). -/
theorem tableFrameOk_iff : tableFrameOk s d frame = true ↔ isDram (4096 * frame) = true ∧
    ((((getFrame s frame).owner = d ∨ (getFrame s frame).owner = kernelOf d) ∧
        (getFrame s frame).state ∈ [FrameState.owned, .lent, .recalling]) ∨
      ((getFrame s frame).peer = d ∧ (getFrame s frame).peer ≠ (getFrame s frame).owner ∧ (getFrame s frame).isOpen s.time)) := by
  simp only [tableFrameOk, Bool.and_eq_true, Bool.or_eq_true, decide_eq_true_eq, Option.isNone_iff_eq_none, frameDenies_eq_none_iff,
    true_and, and_assoc]
  refine and_congr_right fun _ => or_congr (and_congr_right fun _ => ?_) (and_congr_right fun hp => and_congr_right fun hne => ?_)
  · exact or_iff_left fun h => h.2.1 h.1
  · exact ⟨fun h => h.elim (fun h => absurd (hp.trans h.1.symm) hne) fun h => h.2.2, fun h => .inr ⟨hp, hne, h⟩⟩

/-- The doubleword that a walk reads at a level, and its line. -/
def walkIndex (va : Word) (n : Nat) : Nat := va.toNat / 2 ^ (12 + 9 * n) % 512
def walkLine (frame : Nat) (va : Word) (n : Nat) : Nat := (4096 * frame + 8 * walkIndex va n) / 128

theorem levelIndex_succ (va : Word) (n : Nat) : levelIndex va (n + 1) = walkIndex va n := by
  rw [levelIndex, levelLog, Nat.shiftRight_eq_div_pow]; rfl

theorem walkFrom_denied (h : ¬ tableFrameOk s d frame = true) : walkFrom s d meter va above (n + 1) frame =
    .error (.fault .frameNotOwned (walkEval .frameNotOwned va (n + 1)) s) := by
  rw [walkFrom, if_pos (by simpa using h)]

section
variable (hok : tableFrameOk s d frame = true)
include hok

theorem walkFrom_held (h : tabFind s.ext (walkLine frame va n) ≠ none) :
    walkFrom s d meter va above (n + 1) frame = .error (.wait (walkLine frame va n)) := by
  rw [walkFrom, if_neg (by simp [hok])]
  simp only [levelIndex_succ]
  exact if_pos (Option.isSome_iff_ne_none.mpr h)

variable (hx : tabFind s.ext (walkLine frame va n) = none)
include hx

theorem walkFrom_lost (h : tabFind s.lost (walkLine frame va n) ≠ none) :
    walkFrom s d meter va above (n + 1) frame = .error (.fault .dataLost (memEval va) s) := by
  rw [walkFrom, if_neg (by simp [hok])]
  simp only [levelIndex_succ]
  rw [walkLine] at hx h
  rw [hx, if_neg (by decide), if_pos (Option.isSome_iff_ne_none.mpr h)]

/-- The state once the entry of a level is read: a read that L2 does not serve is charged (05 R408, 23 R334). -/
def walkRead (s : State) (d meter frame : Nat) (va : Word) (n : Nat) : State :=
  if (tabFind s.l2 (walkLine frame va n)).isSome then s else chargeDram s d meter (4096 * frame) (if n + 1 = 1 then 2 else 1)

omit hok hx in
theorem walkRead_metered : Metered s (walkRead s d meter frame va n) := by
  unfold walkRead
  split
  · exact .refl s
  · exact chargeDram_metered ..

/-- The translation entry that a leaf of a level is kept as (05 R95 R96). -/
def leafEntry (s : State) (d : Nat) (va : Word) (above : List Nat) (n frame : Nat) : TEntry :=
  let e := readPte s frame (walkIndex va n)
  let base := 4096 * pteFrame e
  if decide (n + 1 = 1) && e.getLsbD 6 && contiguous s d frame (walkIndex va n) then
    { unit := unitOf d va, dom := d, log := 16, vpn := bitsOf va 56 16, ppn := (base + va.toNat % 2 ^ levelLog (n + 1)) / 2 ^ 16,
      perms := pteLeafPerms e, g := e.getLsbD 5, tables := frame :: above }
  else
    { unit := unitOf d va, dom := d, log := levelLog (n + 1), vpn := va.toNat / 2 ^ levelLog (n + 1), ppn := base / 2 ^ levelLog (n + 1),
      perms := pteLeafPerms e, g := e.getLsbD 5, tables := frame :: above }

/-- What the walk answers once a level's entry is read, by R92's checks. -/
theorem walkFrom_read (hl : tabFind s.lost (walkLine frame va n) = none) :
    walkFrom s d meter va above (n + 1) frame =
      let e := readPte s frame (walkIndex va n)
      let u := walkRead s d meter frame va n
      match pteFault e (n + 1) with
      | some c => .error (.fault c (walkEval c va (n + 1)) u)
      | none =>
        if pteLeaf e (n + 1) then
          .ok ({ pa := 4096 * pteFrame e + va.toNat % 2 ^ levelLog (n + 1), perms := pteLeafPerms e }, putT u (leafEntry s d va above n frame))
        else walkFrom (putW u { unit := unitOf d va, dom := d, level := n, prefix_ := va.toNat / 2 ^ levelLog (n + 1),
                                frame := pteFrame e, tables := frame :: above }) d meter va (frame :: above) n (pteFrame e) := by
  have hu : Metered s (walkRead s d meter frame va n) := walkRead_metered
  have hread := hu.readPte frame (walkIndex va n)
  have hgroup := hu.contiguous d frame (walkIndex va n)
  rw [walkFrom, if_neg (by simp [hok])]
  simp only [levelIndex_succ]
  rw [if_neg (by rw [walkLine] at hx; simp [hx]), if_neg (by rw [walkLine] at hl; simp [hl])]
  rw [walkRead, walkLine] at hread hgroup
  rw [hread, hgroup]
  rfl

end

end

/-! What the units keep of a walk. -/

/-- What a translation changes: the units' entries and the charges of its table reads (05 R95, 23 R334). -/
def TrafficOnly (s t : State) : Prop := t = { keepTraffic s t with free := t.free }

section
variable {s t u : State}

theorem TrafficOnly.refl (s : State) : TrafficOnly s s := rfl

theorem TrafficOnly.trans (a : TrafficOnly s t) (b : TrafficOnly t u) : TrafficOnly s u := by
  rw [TrafficOnly, keepTraffic] at a b ⊢
  rw [a] at b
  exact b

theorem Metered.keepTraffic (h : Metered s t) : t = keepTraffic s t := by
  rw [Machine.keepTraffic, h]

theorem Metered.traffic (h : Metered s t) : TrafficOnly s t := by
  rw [TrafficOnly, Machine.keepTraffic, h]

theorem putT_traffic (s : State) (e : TEntry) : TrafficOnly s (putT s e) := by
  unfold putT
  dsimp only
  split <;> rfl

theorem putT_walk (s : State) (e : TEntry) : (putT s e).walk = s.walk := by
  unfold putT
  dsimp only
  split <;> rfl

theorem mem_putT (s : State) (e : TEntry) : e ∈ (putT s e).tlb := by
  unfold putT
  dsimp only
  split <;> exact List.mem_cons_self

theorem putW_kept (s : State) (w : WEntry) : putW s w = { s with walk := (putW s w).walk } := by
  unfold putW
  split <;> rfl

end

/-! The entry of a leaf. -/

section
variable {s : State} {d n frame : Nat} {above : List Nat} {va : Word}

theorem levelLog_succ (n : Nat) : levelLog (n + 1) = 12 + 9 * n := rfl

/-- The low bits of FRAME. -/
theorem pteFrame_mod (e : Word) {k : Nat} (hk : k ≤ 40) : pteFrame e % 2 ^ k = (e.extractLsb' 12 k).toNat := by
  rw [pteFrame_eq, BitVec.extractLsb'_toNat, BitVec.extractLsb'_toNat, Nat.mod_mod_of_dvd _ (Nat.pow_dvd_pow 2 hk)]

/-- A leaf that passes R92 maps an aligned page. -/
theorem leaf_aligned {e : Word} (hl : n + 1 = 1 ∨ (n + 1 ≤ 3 ∧ e.getLsbD 7 = true)) (hm : ¬ Malformed e (n + 1)) :
    2 ^ (12 + 9 * n) ∣ 4096 * pteFrame e := by
  have aligned (hk : 9 * n ≤ 40) (h : e.extractLsb' 12 (9 * n) = 0) : 2 ^ (12 + 9 * n) ∣ 4096 * pteFrame e := by
    rw [Nat.pow_add]
    refine Nat.mul_dvd_mul_left _ (Nat.dvd_of_mod_eq_zero ?_)
    rw [pteFrame_mod e hk, h]
    rfl
  simp only [Malformed, not_or] at hm
  obtain ⟨-, -, -, h3, h2, -⟩ := hm
  match n, hl with
  | 0, _ => exact aligned (by decide) (BitVec.eq_of_toNat_eq (by simp))
  | 1, hl => exact aligned (by decide) (not_not.mp fun h => h2 ⟨rfl, hl, h⟩)
  | 2, hl => exact aligned (by decide) (not_not.mp fun h => h3 ⟨rfl, hl, h⟩)
  | n + 3, hl => exact absurd hl (by omega)

/-- The test by which a leaf is kept as an entry of 64 KiB. -/
def joinsGroup (s : State) (d : Nat) (va : Word) (n frame : Nat) : Bool :=
  decide (n + 1 = 1) && (readPte s frame (walkIndex va n)).getLsbD 6 && contiguous s d frame (walkIndex va n)

theorem leafEntry_big (h : joinsGroup s d va n frame = true) : leafEntry s d va above n frame =
    let e := readPte s frame (walkIndex va n)
    { unit := unitOf d va, dom := d, log := 16, vpn := bitsOf va 56 16,
      ppn := (4096 * pteFrame e + va.toNat % 2 ^ (12 + 9 * n)) / 2 ^ 16,
      perms := pteLeafPerms e, g := e.getLsbD 5, tables := frame :: above } := if_pos h

theorem leafEntry_small (h : joinsGroup s d va n frame = false) : leafEntry s d va above n frame =
    let e := readPte s frame (walkIndex va n)
    { unit := unitOf d va, dom := d, log := 12 + 9 * n, vpn := va.toNat / 2 ^ (12 + 9 * n),
      ppn := 4096 * pteFrame e / 2 ^ (12 + 9 * n), perms := pteLeafPerms e, g := e.getLsbD 5, tables := frame :: above } :=
  if_neg (Bool.eq_false_iff.mp h)

theorem leafEntry_fields : (leafEntry s d va above n frame).unit = unitOf d va ∧ (leafEntry s d va above n frame).dom = d ∧
    (leafEntry s d va above n frame).perms = pteLeafPerms (readPte s frame (walkIndex va n)) ∧
    (leafEntry s d va above n frame).g = (readPte s frame (walkIndex va n)).getLsbD 5 ∧
    (leafEntry s d va above n frame).tables = frame :: above := by
  cases hj : joinsGroup s d va n frame with
  | false => rw [leafEntry_small hj]; exact ⟨rfl, rfl, rfl, rfl, rfl⟩
  | true => rw [leafEntry_big hj]; exact ⟨rfl, rfl, rfl, rfl, rfl⟩

/-- An entry that passes R92 is kept with its group exactly where R96's conditions hold. -/
theorem joinsGroup_iff (hf : pteFault (readPte s frame (walkIndex va n)) (n + 1) = none) :
    joinsGroup s d va n frame = true ↔ n + 1 = 1 ∧ Joined s d frame (walkIndex va n) (readPte s frame (walkIndex va n)) := by
  simp only [joinsGroup, Bool.and_eq_true, decide_eq_true_eq, and_assoc]
  exact and_congr_right fun h => contiguous_iff_joined rfl (h ▸ hf)

theorem leafEntry_log (hf : pteFault (readPte s frame (walkIndex va n)) (n + 1) = none) :
    let joined := n + 1 = 1 ∧ Joined s d frame (walkIndex va n) (readPte s frame (walkIndex va n))
    (joined → (leafEntry s d va above n frame).log = 16) ∧ (¬ joined → (leafEntry s d va above n frame).log = 12 + 9 * n) := by
  refine ⟨fun h => ?_, fun h => ?_⟩
  · rw [leafEntry_big ((joinsGroup_iff hf).mpr h)]
  · rw [leafEntry_small (Bool.eq_false_iff.mpr (mt (joinsGroup_iff hf).mp h))]

/-- The pages of a group lie in their order in an aligned 64 KiB. -/
theorem joined_page (hj : Joined s d frame (walkIndex va 0) (readPte s frame (walkIndex va 0))) :
    (4096 * pteFrame (readPte s frame (walkIndex va 0)) + va.toNat % 2 ^ 12) % 2 ^ 16 = va.toNat % 2 ^ 16 := by
  obtain ⟨h0, hall⟩ := hj
  obtain ⟨-, -, -, -, hn, -⟩ := hall (walkIndex va 0 % 16) (Nat.mod_lt _ (by decide))
  rw [groupEntry_self] at hn
  rw [hn]
  simp only [walkIndex] at *
  omega

/-- What the kept entry maps: the address's page, to the leaf's. -/
theorem leafEntry_maps (hva : va.toNat < 2 ^ 57) (hf : pteFault (readPte s frame (walkIndex va n)) (n + 1) = none)
    (hl : n + 1 = 1 ∨ (n + 1 ≤ 3 ∧ (readPte s frame (walkIndex va n)).getLsbD 7 = true))
    (hm : ¬ Malformed (readPte s frame (walkIndex va n)) (n + 1)) :
    let t := leafEntry s d va above n frame
    t.vpn = va.toNat / 2 ^ t.log ∧
      t.ppn * 2 ^ t.log + va.toNat % 2 ^ t.log = 4096 * pteFrame (readPte s frame (walkIndex va n)) + va.toNat % 2 ^ (12 + 9 * n) := by
  cases hj : joinsGroup s d va n frame with
  | false =>
    rw [leafEntry_small hj]
    exact ⟨rfl, by rw [Nat.div_mul_cancel (leaf_aligned hl hm)]⟩
  | true =>
    rw [leafEntry_big hj]
    simp only [joinsGroup, Bool.and_eq_true, decide_eq_true_eq, Nat.add_eq_right] at hj
    obtain ⟨⟨rfl, h6⟩, hc⟩ := hj
    have hp := joined_page ((contiguous_iff_joined rfl hf).mp ⟨h6, hc⟩)
    refine ⟨?_, ?_⟩
    · exact (bitsOf_eq va 56 16).trans (Nat.mod_eq_of_lt (by omega))
    · rw [← hp]; exact Nat.div_add_mod' _ _

end

/-! The level's clauses. -/

section
variable {s : State} {d meter n frame : Nat} {above : List Nat} {va : Word}

/-- The entry that a walk reads, as its home slice or its memory controller gives it. -/
theorem readPte_byte_held {idx i : Nat} {l : L2Line} (hl : tabFind s.l2 ((4096 * frame + 8 * idx) / 128) = some l) (hi : i < 8) :
    (readPte s frame idx).extractLsb' (8 * i) 8 = homeByte s ((4096 * frame + 8 * idx) / 128) (8 * idx % 128 + i) := by
  simp only [readPte, homeByte, hl]
  rw [extract_lineNat _ _ _ hi, show (4096 * frame + 8 * idx) % 128 = 8 * idx % 128 by omega]

theorem readPte_byte_stored {idx i : Nat} (hl : tabFind s.l2 ((4096 * frame + 8 * idx) / 128) = none) (hi : i < 8) :
    (readPte s frame idx).extractLsb' (8 * i) 8 =
      lineByte (readSealed s (getFrame s frame).keyid ((4096 * frame + 8 * idx) / 128)) (8 * idx % 128 + i) := by
  simp only [readPte, hl]
  rw [extract_lineNat _ _ _ hi, show (4096 * frame + 8 * idx) % 128 = 8 * idx % 128 by omega]

theorem walkEval_frameNotOwned (hn : n < 5) (hva : va.toNat < 2 ^ 57) :
    walkEval .frameNotOwned va (n + 1) = va ||| BitVec.ofNat 64 (2 ^ 63 + (n + 1) * 2 ^ 60) := by
  have place : ∀ n < 5, at_ 1 63 ||| at_ (n + 1) 60 = BitVec.ofNat 64 (2 ^ 63 + (n + 1) * 2 ^ 60) := by decide
  rw [walkEval, memEval_of_lt hva, BitVec.or_assoc, place n hn]

theorem walkEval_pteReserved (va : Word) (level : Nat) :
    walkEval .pteReserved va level = (va &&& 0x01FFFFFFFFFFFFF8) ||| BitVec.ofNat 64 level := rfl

section
variable (hok : tableFrameOk s d frame = true) (hx : tabFind s.ext (walkLine frame va n) = none)
  (hl : tabFind s.lost (walkLine frame va n) = none)
include hok hx hl

theorem walkFrom_faults {c : Cause} {v : Word} (hc : pteFault (readPte s frame (walkIndex va n)) (n + 1) = some c)
    (hv : walkEval c va (n + 1) = v) :
    ∃ t, walkFrom s d meter va above (n + 1) frame = .error (.fault c v t) ∧ t = keepTraffic s t := by
  refine ⟨walkRead s d meter frame va n, ?_, walkRead_metered.keepTraffic⟩
  rw [walkFrom_read hok hx hl]
  simp only [hc, hv]

variable (hf : pteFault (readPte s frame (walkIndex va n)) (n + 1) = none)
include hf

theorem walkFrom_leaf (hleaf : n + 1 = 1 ∨ (n + 1 ≤ 3 ∧ (readPte s frame (walkIndex va n)).getLsbD 7 = true)) :
    let e := readPte s frame (walkIndex va n)
    let t := leafEntry s d va above n frame
    ∃ u, walkFrom s d meter va above (n + 1) frame =
        .ok ({ pa := 4096 * pteFrame e + va.toNat % 2 ^ (12 + 9 * n), perms := pteLeafPerms e }, u) ∧
      TrafficOnly s u ∧ u.walk = s.walk ∧ t ∈ u.tlb := by
  have hu : Metered s (walkRead s d meter frame va n) := walkRead_metered
  refine ⟨putT (walkRead s d meter frame va n) (leafEntry s d va above n frame), ?_, hu.traffic.trans (putT_traffic ..),
    (putT_walk ..).trans (by rw [hu]), mem_putT ..⟩
  rw [walkFrom_read hok hx hl]
  simp only [hf, if_pos ((pteLeaf_iff (Nat.succ_le_succ (Nat.zero_le n))).mpr hleaf), levelLog_succ]

theorem walkFrom_next (hleaf : ¬ (n + 1 = 1 ∨ (n + 1 ≤ 3 ∧ (readPte s frame (walkIndex va n)).getLsbD 7 = true))) :
    ∃ u, walkFrom s d meter va above (n + 1) frame =
        walkFrom u d meter va (frame :: above) n (pteFrame (readPte s frame (walkIndex va n))) ∧
      u = keepTraffic s u ∧ u.tlb = s.tlb := by
  have hu : Metered s (walkRead s d meter frame va n) := walkRead_metered
  let w : WEntry := { unit := unitOf d va, dom := d, level := n, prefix_ := va.toNat / 2 ^ levelLog (n + 1),
                      frame := pteFrame (readPte s frame (walkIndex va n)), tables := frame :: above }
  refine ⟨putW (walkRead s d meter frame va n) w, ?_, ?_, ?_⟩
  · rw [walkFrom_read hok hx hl]
    simp only [hf]
    exact if_neg (mt (pteLeaf_iff (Nat.succ_le_succ (Nat.zero_le n))).mp hleaf)
  · rw [putW_kept, keepTraffic, hu]
  · rw [putW_kept, hu]

end

end

/-- One level of a walk, by the first check that stops it. -/
theorem walkLevels : Clauses.WalkLevels := by
  intro s d meter n frame above va hn hva level idx pl e f next walk faults mayRead leaf malformed reserved perms pa ent joined
  have hread : mayRead → tableFrameOk s d frame = true := tableFrameOk_iff.mpr
  refine ⟨fun l hl i hi => readPte_byte_held hl hi, fun hl i hi => readPte_byte_stored hl hi, fun h => ?_,
    fun h hx => walkFrom_held (hread h) hx, fun h hx hl => ?_, fun h hx hl => ?_⟩
  · exact (walkFrom_denied (mt tableFrameOk_iff.mp h)).trans (by rw [walkEval_frameNotOwned hn hva])
  · exact (walkFrom_lost (hread h) hx hl).trans (by rw [memEval_of_lt hva])
  have form (h52 : e.extractLsb' 52 12 = 0) (h0 : e.getLsbD 0 = true) := pteFault_form (level := level) (Nat.succ_le_succ (Nat.zero_le n)) h52 h0
  have absentEval : walkEval .pageAbsent va (n + 1) = va := memEval_of_lt hva
  refine ⟨fun h52 => walkFrom_faults (hread h) hx hl (pteFault_reserved h52) (walkEval_pteReserved ..),
    fun h52 h0 => walkFrom_faults (hread h) hx hl (pteFault_absent h52 h0) absentEval,
    fun h52 h0 hm => walkFrom_faults (hread h) hx hl ((form h52 h0).1 hm) (walkEval_pteReserved ..),
    fun h52 h0 hm hleaf => ?_, fun h52 h0 hm hleaf => ?_⟩
  · have hf := (form h52 h0).2 hm
    obtain ⟨u, hw, hu, hwalk, ht⟩ := walkFrom_leaf (meter := meter) (above := above) (hread h) hx hl hf hleaf
    obtain ⟨hvpn, hmaps⟩ := leafEntry_maps (d := d) (above := above) hva hf hleaf hm
    obtain ⟨hunit, hdom, hperms, hg, htables⟩ := leafEntry_fields (s := s) (d := d) (va := va) (above := above) (n := n) (frame := frame)
    obtain ⟨hbig, hsmall⟩ := leafEntry_log (d := d) (above := above) hf
    exact ⟨u, leafEntry s d va above n frame, hw, hu, hwalk, ht, hunit, hdom, hperms, hg, hvpn, hmaps, htables, hbig, hsmall⟩
  · obtain ⟨u, hw, hu, htlb⟩ := walkFrom_next (meter := meter) (above := above) (hread h) hx hl ((form h52 h0).2 hm) hleaf
    exact ⟨u, hw, hu, htlb⟩

end Sys2Proof.Machine
end

section
/-!
A translation (05 R78 R94 R95 R102 R110, R100 steps 4 to 7): where it begins, and the checks of the leaf that it finds.
-/
namespace Sys2Proof.Machine

section
variable {s : State} {d meter : Nat} {kernel heal : Bool} {need : Need} {va : Word}

/-- A translation entry covers an address for a domain at its unit (05 R95). -/
def TEntry.Covers (t : TEntry) (d : Nat) (va : Word) : Prop := t.unit = unitOf d va ∧ t.dom = d ∧ t.vpn = va.toNat / 2 ^ t.log

theorem findT_of_head {t : TEntry} {r : List TEntry} (h : s.tlb = t :: r) (hc : t.Covers d va) : findT s d va = some t := by
  obtain ⟨hu, hd, hv⟩ := hc
  rw [findT, h]
  exact List.find?_cons_of_pos (by simp only [hu, hd, ← hv, decide_true, Bool.and_self])

theorem findT_eq_none (h : ∀ t ∈ s.tlb, ¬ t.Covers d va) : findT s d va = none :=
  List.find?_eq_none.mpr fun t ht hc => h t ht <| by
    simp only [Bool.and_eq_true, decide_eq_true_eq, and_assoc] at hc
    exact hc

theorem findLeaf_covered {t : TEntry} (h : findT s d va = some t) :
    findLeaf s d meter va = .ok ({ pa := t.ppn * 2 ^ t.log + va.toNat % 2 ^ t.log, perms := t.perms }, s) := by
  simp only [findLeaf, h]

theorem findLeaf_disabled (h : findT s d va = none) (hen : (s.getDom d).troot.getLsbD 0 = false) :
    findLeaf s d meter va = .error (.fault .pageAbsent (memEval va) s) := by
  simp only [findLeaf, h, hen]
  rfl

theorem findLeaf_enabled (h : findT s d va = none) (hen : (s.getDom d).troot.getLsbD 0 = true) :
    findLeaf s d meter va = match findW s d va with
      | some w => walkFrom s d meter va w.tables w.level w.frame
      | none => walkFrom s d meter va [] 5 ((s.getDom d).troot.extractLsb' 12 40).toNat := by
  simp only [findLeaf, h, hen]
  rfl

theorem findW_eq_none (h : ∀ w ∈ s.walk, w.dom ≠ d) : findW s d va = none := by
  refine List.findSome?_eq_none_iff.mpr fun level _ => List.find?_eq_none.mpr fun w hw hc => ?_
  simp only [Bool.and_eq_true, decide_eq_true_eq] at hc
  exact h w hw hc.1.1.2

theorem findW_single {w : WEntry} (hw : s.walk = [w]) (hd : w.dom = d) (hu : w.unit = unitOf d va) (h1 : 1 ≤ w.level) (h4 : w.level ≤ 4)
    (hp : w.prefix_ = va.toNat / 2 ^ (12 + 9 * w.level)) : findW s d va = some w := by
  have at_level (k : Nat) : ([w].find? fun w => decide (w.unit = unitOf d va) && decide (w.dom = d) && decide (w.level = k)
      && decide (w.prefix_ = va.toNat / 2 ^ levelLog (k + 1))) = if w.level = k then some w else none := by
    by_cases hk : w.level = k
    · subst hk
      rw [if_pos rfl]
      exact List.find?_cons_of_pos (by simp only [hu, hd, hp, levelLog_succ, decide_true, Bool.and_self])
    · rw [if_neg hk]
      exact List.find?_cons_of_neg (by simp only [hk, decide_false, Bool.and_false, Bool.false_and, Bool.false_eq_true, not_false_eq_true])
  have hlevel : w.level = 1 ∨ w.level = 2 ∨ w.level = 3 ∨ w.level = 4 := by omega
  rw [findW, hw]
  simp only [at_level, List.findSome?]
  rcases hlevel with h | h | h | h <;> simp [h]

theorem translate_error {e : AccErr} (h : findLeaf s d meter va = .error e) : translate s d meter kernel need va heal = .error e := by
  simp only [translate, leafCheck, h]

section
variable {l : Leaf} {u : State} (h : findLeaf s d meter va = .ok (l, u))
include h

theorem translate_denied (hp : l.perms.allow need kernel = false) :
    translate s d meter kernel need va heal = .error (.fault .pagePerm (memEval va) u) := by
  simp only [translate, leafCheck, h, hp]
  rfl

variable (hp : l.perms.allow need kernel = true)
include hp

theorem translate_stopped {c : Cause} (hd : leafDenies u d l.perms.k l.pa = some c) :
    translate s d meter kernel need va heal = .error (.fault c (memEval va) u) := by
  simp only [translate, leafCheck, h, hp, hd]
  rfl

/-- A leaf that the domain may use is answered unless its line is lost or held outside (05 R110). -/
theorem translate_passes (hd : leafDenies u d l.perms.k l.pa = none) :
    translate s d meter kernel need va heal =
      if tabFind u.lost (l.pa / 128) ≠ none ∧ heal = false then .error (.fault .dataLost (memEval va) u)
      else if tabFind u.ext (l.pa / 128) ≠ none then .error (.wait (l.pa / 128)) else .ok (l, u) := by
  simp only [translate, leafCheck, h, hp, hd, Bool.not_true, Bool.false_eq_true, if_false, Bool.and_eq_true, Bool.not_eq_true',
    Option.isSome_iff_ne_none]

end

/-- Memory's range leaves the answer to the frame's entry (05 R102). -/
theorem leafDenies_dram {k : Bool} {pa : Nat} (h : regionOf pa = .bonded ∨ regionOf pa = .second) :
    leafDenies s d k pa = frameDenies (getFrame s (pa / 4096)) d s.time := by
  rcases h with h | h <;> simp only [leafDenies, h]

end

/-- A translation, by where it begins and by the first check of its leaf that fails. -/
theorem leafChecks : Clauses.LeafChecks := by
  intro s d meter kernel heal need va hva root covers cold found answer
  have hev : memEval va = va := memEval_of_lt hva
  have hnone : cold → findT s d va = none := findT_eq_none
  refine ⟨fun t r h hc => findLeaf_covered (findT_of_head h hc), fun hc hen => ?_, fun hc hen hw => ?_,
    fun w hc hen hw hd hu h1 h4 hp => ?_, fun c v t => translate_error, fun l u hf => ?_⟩
  · exact translate_error ((findLeaf_disabled (hnone hc) hen).trans (by rw [hev]))
  · exact (findLeaf_enabled (hnone hc) hen).trans (by rw [findW_eq_none hw])
  · exact (findLeaf_enabled (hnone hc) hen).trans (by rw [findW_single hw hd hu h1 h4 hp])
  intro bits allowed stops lost passes f peer open_ yes revoked only
  have hbits : l.perms.has need = bits := by cases need <;> rfl
  have hallow : l.perms.allow need kernel = true ↔ allowed := by rw [Perms.allow_iff, hbits]
  have hpass (ha : allowed) (hd : leafDenies u d l.perms.k l.pa = none) : passes := by
    have hans := translate_passes (heal := heal) hf (hallow.mpr ha) hd
    rw [hev] at hans
    exact ⟨fun hl => hans.trans (if_pos hl), fun hl hx => hans.trans ((if_neg hl).trans (if_pos hx)),
      fun hl hx => hans.trans ((if_neg hl).trans (if_neg (not_not_intro hx)))⟩
  have hstop (ha : allowed) {c : Cause} (hd : leafDenies u d l.perms.k l.pa = some c) : stops c :=
    (translate_stopped hf (hallow.mpr ha) hd).trans (by rw [hev])
  have hframe (ha : allowed) (hr : regionOf l.pa = .bonded ∨ regionOf l.pa = .second) :
      (yes → passes) ∧ (revoked → stops .frameRevoked) ∧ (¬ yes → ¬ revoked → stops .frameNotOwned) :=
    have hd := leafDenies_dram (s := u) (d := d) (k := l.perms.k) hr
    ⟨fun hy => hpass ha (hd.trans (frameDenies_eq_none_iff.mpr hy)),
      fun hv => hstop ha (hd.trans (frameDenies_revoked hv.1 hv.2.1 hv.2.2)),
      fun hy hv => hstop ha (hd.trans (frameDenies_notOwned hy hv))⟩
  have honly (ha : allowed) {may : Prop} [Decidable may] (hd : leafDenies u d l.perms.k l.pa = if may then none else some .frameNotOwned) :
      only may :=
    ⟨fun hm => hpass ha (hd.trans (if_pos hm)), fun hm => hstop ha (hd.trans (if_neg hm))⟩
  refine ⟨fun ha => (translate_denied hf (Bool.eq_false_iff.mpr (mt hallow.mp ha))).trans (by rw [hev]), fun ha => ?_⟩
  split
  next hr => exact hframe ha (.inl hr)
  next hr => exact hframe ha (.inr hr)
  next n hr => exact honly ha (by simp only [leafDenies, hr, fnDomain, eq_comm])
  next hr => exact honly ha (by simp only [leafDenies, hr])
  next n hr => exact honly ha (by simp only [leafDenies, hr, Bool.and_eq_true, Bool.or_eq_true, decide_eq_true_eq])
  all_goals next hr => exact hstop ha (by simp only [leafDenies, hr])

/-- Settles O16: the checks through the L1, of a level of a walk, and of the leaf found, each in its order. -/
theorem accessFaults : Obligations.AccessFaults := ⟨hitFaults, walkLevels, leafChecks⟩

end Sys2Proof.Machine
end

section
/-!
Bytes of a line (05 R81): the masks that select them, a line merged under a mask, and a number's bytes in a line.
-/
namespace Sys2Proof.Machine

/-- A byte mask spread to the bits of its bytes. -/
theorem getLsbD_spreadMask (m : BitVec 128) (k : Nat) : (spreadMask m).getLsbD k = (decide (k < 1024) && m.getLsbD (k / 8)) := by
  have upTo (n : Nat) : ((upto n).foldl (fun acc i => if m.getLsbD i then acc ||| ((255 : LineBits) <<< (8 * i)) else acc)
      (0 : LineBits)).getLsbD k = (decide (k < 1024) && decide (k / 8 < n) && m.getLsbD (k / 8)) := by
    induction n with
    | zero => rw [decide_eq_false (Nat.not_lt_zero _), Bool.and_false, Bool.false_and]; exact BitVec.getLsbD_zero
    | succ n ih =>
      rw [upto, List.range_succ, List.foldl_append, ← upto]
      simp only [List.foldl_cons, List.foldl_nil]
      have hbyte : ((255 : LineBits) <<< (8 * n)).getLsbD k = (decide (k < 1024) && decide (k / 8 = n)) := by
        rw [BitVec.getLsbD_shiftLeft, show (255 : LineBits) = BitVec.ofNat 1024 255 from rfl, BitVec.getLsbD_ofNat,
          show 255 = 2 ^ 8 - 1 from rfl, Nat.testBit_two_pow_sub_one, Bool.eq_iff_iff]
        simp only [Bool.and_eq_true, decide_eq_true_eq, Bool.not_eq_true', decide_eq_false_iff_not]
        omega
      have hlt : decide (k / 8 < n + 1) = (decide (k / 8 < n) || decide (k / 8 = n)) := by
        rw [Bool.eq_iff_iff]
        simp only [Bool.or_eq_true, decide_eq_true_eq]
        omega
      rw [hlt]
      by_cases hk : k / 8 = n
      · subst hk
        split <;> simp only [BitVec.getLsbD_or, ih, hbyte] <;> simp [*]
      · split <;> simp only [BitVec.getLsbD_or, ih, hbyte] <;> simp [hk]
  by_cases hk : k < 1024
  · rw [spreadMask, upTo, decide_eq_true (show k / 8 < 128 by omega), Bool.and_true]
  · rw [spreadMask, upTo, decide_eq_false hk]
    rfl

theorem getLsbD_mergeLine (old new : LineBits) (m : BitVec 128) (k : Nat) :
    (mergeLine old new m).getLsbD k = if m.getLsbD (k / 8) then new.getLsbD k else old.getLsbD k := by
  simp only [mergeLine, BitVec.getLsbD_or, BitVec.getLsbD_and, BitVec.getLsbD_not, getLsbD_spreadMask]
  by_cases hk : k < 1024
  · cases m.getLsbD (k / 8) <;> simp [hk]
  · rw [BitVec.getLsbD_of_ge new k (by omega), BitVec.getLsbD_of_ge old k (by omega)]
    simp

/-- A byte of a merged line is the new line's under the mask, else the old one's. -/
theorem lineByte_mergeLine (old new : LineBits) (m : BitVec 128) (i : Nat) :
    lineByte (mergeLine old new m) i = if m.getLsbD i then lineByte new i else lineByte old i := by
  refine BitVec.eq_of_getLsbD_eq fun j hj => ?_
  have hi : (8 * i + j) / 8 = i := by omega
  rw [getLsbD_lineByte, getLsbD_mergeLine, hi]
  split <;> rw [getLsbD_lineByte]

theorem getLsbD_byteMask (off n i : Nat) : (byteMask off n).getLsbD i = decide (i < 128 ∧ off ≤ i ∧ i < off + n) := by
  rw [byteMask, BitVec.getLsbD_ofNat, Nat.testBit_shiftLeft, Nat.testBit_two_pow_sub_one, Bool.eq_iff_iff]
  simp only [Bool.and_eq_true, decide_eq_true_eq]
  omega

/-- A byte of the number in a line's bytes. -/
theorem ofNat_lineNat (d : LineBits) (off n i : Nat) (hi : i < n) :
    BitVec.ofNat 8 (lineNat d off n / 2 ^ (8 * i)) = lineByte d (off + i) := by
  refine BitVec.eq_of_getLsbD_eq fun j hj => ?_
  rw [BitVec.getLsbD_ofNat, Nat.testBit_div_two_pow, testBit_lineNat, getLsbD_lineByte, Nat.mul_add]
  simp only [hj, show j + 8 * i < 8 * n by omega, decide_true, Bool.true_and]
  congr 1
  omega

/-- A byte of a number laid in a line. -/
theorem lineByte_lineOf (off n x i : Nat) (hi : i < n) (ho : off + i < 128) :
    lineByte (lineOf off n x) (off + i) = BitVec.ofNat 8 (x / 2 ^ (8 * i)) := by
  refine BitVec.eq_of_getLsbD_eq fun j hj => ?_
  rw [getLsbD_lineByte, lineOf, BitVec.getLsbD_ofNat, Nat.testBit_shiftLeft, Nat.testBit_mod_two_pow, BitVec.getLsbD_ofNat,
    Nat.testBit_div_two_pow]
  simp only [hj, show 8 * (off + i) + j < 1024 by omega, show 8 * off ≤ 8 * (off + i) + j by omega,
    show 8 * (off + i) + j - 8 * off = j + 8 * i by omega, show j + 8 * i < 8 * n by omega, decide_true, Bool.true_and]

/-- An aligned access of a width lies within its line. -/
theorem aligned_within {a n : Nat} (hn : n ∈ [1, 2, 4, 8, 16]) (ha : a % n = 0) : a % 128 + n ≤ 128 := by
  simp only [List.mem_cons, List.not_mem_nil, or_false] at hn
  rcases hn with rfl | rfl | rfl | rfl | rfl <;> omega

end Sys2Proof.Machine
end

section
/-!
Lines placed in an L1 (05 R81, 07 R114): what a core's lines read after a line is placed and its bytes are given to the copies of its
physical line.
-/
namespace Sys2Proof.Machine

section
variable {s t : State} {c e d vl j : Nat} {l : L1Line} {m : BitVec 128}

theorem find?_replaceOrAdd_self {α : Type} {f : α → Bool} {b : α} (hb : f b = true) (l : List α) :
    (replaceOrAdd f b l).find? f = some b := by
  induction l with
  | nil => exact List.find?_cons_of_pos hb
  | cons a r ih =>
    rw [replaceOrAdd]
    split
    · exact List.find?_cons_of_pos hb
    · next ha => rw [List.find?_cons_of_neg ha, ih]

theorem find?_replaceOrAdd_other {α : Type} {f g : α → Bool} {b : α} (hb : g b = false) (hd : ∀ a, f a = true → g a = false) (l : List α) :
    (replaceOrAdd f b l).find? g = l.find? g := by
  induction l with
  | nil => exact List.find?_cons_of_neg (by simp [hb])
  | cons a r ih =>
    rw [replaceOrAdd]
    split
    · next ha => rw [List.find?_cons_of_neg (by simp [hb]), List.find?_cons_of_neg (by simp [hd a ha])]
    · rw [List.find?_cons, List.find?_cons, ih]

theorem findL1_putL1 (s : State) (c : Nat) (l : L1Line) (e d vl : Nat) :
    findL1 (putL1 s c l) e d vl = if e = c ∧ d = l.dom ∧ vl = l.vl then some l else findL1 s e d vl := by
  rw [findL1, putL1, State.modCore_eq, State.getCore_setCore]
  by_cases he : c = e
  · subst he
    rw [if_pos rfl]
    by_cases ht : d = l.dom ∧ vl = l.vl
    · obtain ⟨rfl, rfl⟩ := ht
      rw [if_pos ⟨rfl, rfl, rfl⟩]
      exact find?_replaceOrAdd_self (f := fun y : L1Line => decide (y.dom = l.dom) && decide (y.vl = l.vl)) (by simp) _
    · rw [if_neg fun h => ht h.2]
      refine find?_replaceOrAdd_other ?_ (fun a ha => ?_) _
      · simp only [Bool.and_eq_false_iff, decide_eq_false_iff_not]
        by_contra hc
        exact ht (by simp only [not_or, not_not] at hc; exact ⟨hc.1.symm, hc.2.symm⟩)
      · simp only [Bool.and_eq_true, decide_eq_true_eq] at ha
        simp only [ha.1, ha.2, Bool.and_eq_false_iff, decide_eq_false_iff_not]
        by_contra hc
        exact ht (by simp only [not_or, not_not] at hc; exact ⟨hc.1.symm, hc.2.symm⟩)
  · rw [if_neg he, if_neg fun h => he h.1.symm]
    rfl

/-- A copy of a line's physical line with the masked bytes of the line. -/
def sharedLine (l : L1Line) (m : BitVec 128) (y : L1Line) : L1Line :=
  { y with data := mergeLine y.data l.data m, stamps := stampsAfter y.stamps m fun i => tabFind l.stamps i }

theorem findL1_shareL1 (s : State) (c : Nat) (l : L1Line) (m : BitVec 128) (e d vl : Nat) :
    findL1 (shareL1 s c l m) e d vl =
      (findL1 s e d vl).map fun y => if e = c ∧ y.copies l.dom l.pl = true then sharedLine l m y else y := by
  rw [findL1, shareL1, State.modCore_eq, State.getCore_setCore]
  by_cases he : c = e
  · subst he
    rw [if_pos rfl]
    simp only [mapIf, List.find?_map, true_and, findL1]
    congr 2
    funext y
    simp only [Function.comp]
    split <;> rfl
  · rw [if_neg he]
    have hne : ¬ e = c := Ne.symm he
    simp only [hne, false_and, if_false, Option.map_id', findL1]

/-- A line placed in a core's L1, its masked bytes given to the core's copies of its physical line (07 R114) (log 79). -/
def placeL1 (s : State) (c : Nat) (l : L1Line) (m : BitVec 128) : State := putL1 (shareL1 s c l m) c l

theorem placeL1_rest (s : State) (c : Nat) (l : L1Line) (m : BitVec 128) :
    placeL1 s c l m = { s with cores := (placeL1 s c l m).cores } := rfl

theorem placeL1_getCore (s : State) (c : Nat) (l : L1Line) (m : BitVec 128) (e : Nat) :
    (placeL1 s c l m).getCore e = { s.getCore e with l1 := ((placeL1 s c l m).getCore e).l1 } := by
  simp only [placeL1, putL1, shareL1, State.modCore_eq, State.getCore_setCore, if_true]
  split
  · next h => subst h; rfl
  · rfl

theorem findL1_placeL1_self (s : State) (c : Nat) (l : L1Line) (m : BitVec 128) :
    findL1 (placeL1 s c l m) c l.dom l.vl = some l := by
  rw [placeL1, findL1_putL1, if_pos ⟨rfl, rfl, rfl⟩]

theorem findL1_placeL1_of_ne (h : ¬ (e = c ∧ d = l.dom ∧ vl = l.vl)) : findL1 (placeL1 s c l m) e d vl =
    (findL1 s e d vl).map fun y => if e = c ∧ y.copies l.dom l.pl = true then sharedLine l m y else y := by
  rw [placeL1, findL1_putL1, if_neg h, findL1_shareL1]

/-- A line of another core, domain or physical line keeps its bytes. -/
theorem l1Byte_placeL1_other (h : e ≠ c ∨ d ≠ l.dom ∨ (vl ≠ l.vl ∧ ∀ k, findL1 s e d vl = some k → k.pl ≠ l.pl)) (j : Nat) :
    l1Byte (placeL1 s c l m) e d vl j = l1Byte s e d vl j := by
  have hne : ¬ (e = c ∧ d = l.dom ∧ vl = l.vl) := fun ⟨hc, hd, hv⟩ => h.elim (· hc) fun h => h.elim (· hd) fun h => h.1 hv
  have hkeep (k : L1Line) (hk : findL1 s e d vl = some k) : ¬ (e = c ∧ k.copies l.dom l.pl = true) := by
    rintro ⟨hc, hcopy⟩
    simp only [L1Line.copies, Bool.and_eq_true, decide_eq_true_eq] at hcopy
    exact h.elim (· hc) fun h => h.elim (· ((findL1_tag hk).1.symm.trans hcopy.1)) fun h => h.2 k hk hcopy.2
  rw [l1Byte, findL1_placeL1_of_ne hne, l1Byte]
  cases hk : findL1 s e d vl with
  | none => rfl
  | some k => rw [Option.map_some, if_neg (hkeep k hk)]

/-- A line placed over one that agrees with it outside the mask changes no byte there. -/
theorem l1Byte_placeL1_unmasked {k : L1Line} (hk : findL1 s c l.dom l.vl = some k) (hm : m.getLsbD j = false)
    (hb : lineByte l.data j = lineByte k.data j) (hv : l.valid = k.valid) (e d vl : Nat) :
    l1Byte (placeL1 s c l m) e d vl j = l1Byte s e d vl j := by
  by_cases ht : e = c ∧ d = l.dom ∧ vl = l.vl
  · obtain ⟨rfl, rfl, rfl⟩ := ht
    simp only [l1Byte, findL1_placeL1_self, hk, hb, hv]
  · rw [l1Byte, findL1_placeL1_of_ne ht, l1Byte]
    cases findL1 s e d vl with
    | none => rfl
    | some y =>
      rw [Option.map_some]
      by_cases hc : e = c ∧ y.copies l.dom l.pl = true
      · simp only [if_pos hc, sharedLine, lineByte_mergeLine, hm, Bool.false_eq_true, if_false]
      · simp only [if_neg hc]

/-- A copy of the placed line reads the placed line's byte under the mask. -/
theorem l1Byte_placeL1_copy {k : L1Line} (hk : findL1 s c l.dom vl = some k) (hp : k.pl = l.pl) (hm : m.getLsbD j = true)
    (hv : k.valid.getLsbD j = true) (hl : l.valid.getLsbD j = true) :
    l1Byte (placeL1 s c l m) c l.dom vl j = some (lineByte l.data j) := by
  by_cases ht : vl = l.vl
  · subst ht
    simp only [l1Byte, findL1_placeL1_self, hl, if_true]
  · have hcopy : k.copies l.dom l.pl = true := by simp [L1Line.copies, hp, (findL1_tag hk).1]
    rw [l1Byte, findL1_placeL1_of_ne fun h => ht h.2.2, hk, Option.map_some, if_pos ⟨rfl, hcopy⟩]
    simp only [sharedLine, hv, lineByte_mergeLine, hm, if_true]

end

end Sys2Proof.Machine
end

section
/-!
An access through an L1 (05 R81 R85 R86, 13 R208-R211): what a hit reads and writes, and what a miss leaves alone.
-/
namespace Sys2Proof.Machine

/-! Hits. -/

section
variable {s : State} {va : Word} {n x j : Nat} {l : L1Line}

theorem HitsL1.lineFor {need : Need} {w : WatchKind} (h : HitsL1 s need w va n l) :
    lineFor s s.core s.act.dom s.act.kernel need va n = .ok (l, s) := by
  obtain ⟨hhigh, -, hl, hv, hp, -⟩ := h
  rw [lineFor_hit ((high_zero_iff va).mp hhigh) hl hv, if_pos hp]

theorem HitsL1.addrFault {need : Need} {w : WatchKind} (h : HitsL1 s need w va n l) : Machine.addrFault va n = none :=
  addrFault_none ((high_zero_iff va).mp h.1) h.2.1

/-- A byte that a mask of valid bytes selects is valid. -/
theorem valid_of_masked {v m : BitVec 128} (h : v &&& m = m) (hm : m.getLsbD j = true) : v.getLsbD j = true := by
  have hb := congrArg (fun y : BitVec 128 => y.getLsbD j) h
  simpa [hm] using hb

theorem loadHit : Clauses.LoadHit := by
  intro s va n l h _
  have hw : watchHit s .load va n = false := h.2.2.2.2.2
  simp only [loadBytes, h.addrFault, hw, Bool.false_eq_true, if_false, loadLine, h.lineFor]
  exact ⟨_, _, rfl, Nat.mod_lt _ (by positivity), fun i hi => ofNat_lineNat _ _ _ _ hi⟩

/-- A line with a number's bytes stored at an offset, dirty and with no stamp (05 R81). -/
def storedLine (l : L1Line) (off n x : Nat) : L1Line :=
  { l with data := mergeLine l.data (lineOf off n x) (byteMask off n), dirty := l.dirty ||| byteMask off n,
           stamps := stampsAfter l.stamps (byteMask off n) fun _ => none }

theorem storeBytes_hit (h : HitsL1 s .store .store va n l) : storeBytes s va n x none =
    .ok (placeL1 s s.core (storedLine l (va.toNat % 128) n x) (byteMask (va.toNat % 128) n)) := by
  have hw : watchHit s .store va n = false := h.2.2.2.2.2
  simp only [storeBytes, h.addrFault, hw, Bool.false_eq_true, if_false, storeLine, h.lineFor]
  rfl

theorem storeHitFrame : Clauses.StoreHitFrame := by
  intro s va n x l h hn _ _
  obtain ⟨-, ha, hl, hv, -, -⟩ := id h
  obtain ⟨hdom, hvl⟩ := findL1_tag hl
  have hin : va.toNat % 128 + n ≤ 128 := aligned_within hn ha
  have hmask {i : Nat} (hi : i < n) : (byteMask (va.toNat % 128) n).getLsbD (va.toNat % 128 + i) = true := by
    rw [getLsbD_byteMask, decide_eq_true_eq]; omega
  have hbyte {i : Nat} (hi : i < n) : lineByte (storedLine l (va.toNat % 128) n x).data (va.toNat % 128 + i) =
      BitVec.ofNat 8 (x / 2 ^ (8 * i)) := by
    rw [storedLine, lineByte_mergeLine, hmask hi, if_pos rfl, lineByte_lineOf _ _ _ _ hi (by omega)]
  have hk : findL1 s s.core (storedLine l (va.toNat % 128) n x).dom (storedLine l (va.toNat % 128) n x).vl = some l := by
    rw [storedLine, hdom, hvl]; exact hl
  have copied (vl : Nat) (k : L1Line) (i : Nat) (hf : findL1 s s.core s.act.dom vl = some k) (hp : k.pl = l.pl) (hi : i < n)
      (hkv : k.valid.getLsbD (va.toNat % 128 + i) = true) :
      l1Byte (placeL1 s s.core (storedLine l (va.toNat % 128) n x) (byteMask (va.toNat % 128) n)) s.core s.act.dom vl
        (va.toNat % 128 + i) = some (BitVec.ofNat 8 (x / 2 ^ (8 * i))) := by
    have hc := l1Byte_placeL1_copy (l := storedLine l (va.toNat % 128) n x) (hdom ▸ hf) hp (hmask hi) hkv (valid_of_masked hv (hmask hi))
    rw [hbyte hi] at hc
    exact hdom ▸ hc
  refine ⟨_, storeBytes_hit h, fun i hi => copied _ l i hl rfl hi (valid_of_masked hv (hmask hi)), copied, fun c d vl j hj => ?_,
    homeByte_congr rfl rfl rfl, fun c o => ?_, placeL1_rest .., fun c => placeL1_getCore ..⟩
  · by_cases hm : (byteMask (va.toNat % 128) n).getLsbD j = true
    · refine l1Byte_placeL1_other (l := storedLine l (va.toNat % 128) n x) ?_ j
      rw [getLsbD_byteMask, decide_eq_true_eq] at hm
      rcases hj with hj | hj | ⟨hne, hj⟩ | hj | hj
      · exact .inl hj
      · exact .inr (.inl (hdom ▸ hj))
      · exact .inr (.inr ⟨hvl ▸ hne, hj⟩)
      · omega
      · omega
    · rw [Bool.not_eq_true] at hm
      exact l1Byte_placeL1_unmasked hk hm (by rw [storedLine, lineByte_mergeLine, hm, if_neg (by decide)]) rfl c d vl
  · rw [spadByte, placeL1_getCore]; rfl

end

/-! Misses. -/

section
variable {s t u w : State} {c d vl meter n : Nat} {kernel : Bool} {need : Need} {va : Word} {l : L1Line} {h : HomeLine} {p : HomePlace}

theorem isDram_line (pa : Nat) : isDram (128 * (pa / 128)) = isDram pa := by
  rw [Bool.eq_iff_iff]
  simp only [isDram, inBonded, inSecond, Bool.or_eq_true, Bool.and_eq_true, decide_eq_true_eq]
  omega

theorem walkFrom_traffic {l : Leaf} {above : List Nat} {frame : Nat}
    (hw : walkFrom s d meter va above n frame = .ok (l, t)) : TrafficOnly s t := by
  induction n generalizing s above frame with
  | zero => cases hw
  | succ n ih =>
    by_cases hok : tableFrameOk s d frame = true
    · by_cases hx : tabFind s.ext (walkLine frame va n) = none
      · by_cases hl : tabFind s.lost (walkLine frame va n) = none
        · have hu : Metered s (walkRead s d meter frame va n) := walkRead_metered
          rw [walkFrom_read hok hx hl] at hw
          dsimp only at hw
          split at hw
          · cases hw
          · split at hw
            · cases hw
              exact hu.traffic.trans (putT_traffic ..)
            · refine hu.traffic.trans (.trans ?_ (ih hw))
              rw [putW_kept]
              rfl
        · rw [walkFrom_lost hok hx hl] at hw; cases hw
      · rw [walkFrom_held hok hx] at hw; cases hw
    · rw [walkFrom_denied hok] at hw; cases hw

theorem findLeaf_traffic {l : Leaf} (hf : findLeaf s d meter va = .ok (l, t)) : TrafficOnly s t := by
  unfold findLeaf at hf
  dsimp only at hf
  split at hf
  · cases hf; exact .refl s
  · split at hf
    · cases hf
    · split at hf <;> exact walkFrom_traffic hf

theorem leafCheck_traffic {l : Leaf} (hc : leafCheck s d meter kernel need va = .ok (l, t)) : TrafficOnly s t := by
  unfold leafCheck at hc
  split at hc
  · cases hc
  · next hf =>
    repeat' split at hc
    all_goals cases hc
    exact findLeaf_traffic hf

theorem translate_traffic {l : Leaf} {heal : Bool} (ht : translate s d meter kernel need va heal = .ok (l, t)) : TrafficOnly s t := by
  unfold translate at ht
  split at ht
  · cases ht
  · next hc =>
    repeat' split at ht
    all_goals cases ht
    exact leafCheck_traffic hc

theorem homePlace_traffic {heal : Bool} (hp : homePlace s d meter kernel need va heal = .ok (p, t)) : TrafficOnly s t := by
  unfold homePlace at hp
  repeat' split at hp
  all_goals cases hp
  · exact .refl s
  · next ht => exact translate_traffic ht

/-- Room for a physical line at the home slice of a domain's line number: no line has to leave it (05 R86). -/
def RoomL2 (s : State) (d vl pl : Nat) : Prop :=
  isDram (128 * pl) = false ∨ tabFind s.l2 pl ≠ none ∨ wayMask s (homeOf d vl) d = 0 ∨
    ∃ w, w < 24 ∧ (wayMask s (homeOf d vl) d).getLsbD w = true ∧ ∀ k ∈ setWays s d vl, k.1 ≠ w

/-- Room for a line in a core's L1: no line has to leave it (01 R21 R25). -/
def RoomL1 (s : State) (c d vl : Nat) : Prop :=
  findL1 s c d vl ≠ none ∨ (s.getCore c).l1.length < (if 1280 ≤ c then 2048 else 12288)

/-- A line allocated where its mask is empty or a way of it is free. -/
theorem allocL2_room {l : L2Line} {pl : Nat} (hr : wayMask s (homeOf l.dom l.vl) l.dom = 0 ∨
      ∃ w, w < 24 ∧ (wayMask s (homeOf l.dom l.vl) l.dom).getLsbD w = true ∧ ∀ k ∈ setWays s l.dom l.vl, k.1 ≠ w) :
    (allocL2 s pl l).cores = s.cores ∧ (allocL2 s pl l).mem = s.mem := by
  unfold allocL2
  dsimp only
  rcases hr with h0 | ⟨w, hw, hmask, hfree⟩
  · rw [if_pos (by simp [h0])]
    exact ⟨rfl, rfl⟩
  · have hmem : w ∈ ((upto 24).filter fun w => (wayMask s (homeOf l.dom l.vl) l.dom).getLsbD w).filter fun w =>
        (setWays s l.dom l.vl).all fun u => decide (u.1 ≠ w) :=
      List.mem_filter.mpr ⟨List.mem_filter.mpr ⟨List.mem_range.mpr hw, hmask⟩, by simpa using fun a b => hfree (a, b)⟩
    split
    · exact ⟨rfl, rfl⟩
    · rw [if_neg fun he => by rw [List.isEmpty_iff.mp he] at hmem; cases hmem]
      exact ⟨rfl, rfl⟩

theorem backRead_traffic (s : State) (key pl : Nat) : TrafficOnly s (backRead s key pl).2 := by
  unfold backRead
  split <;> rfl

theorem TrafficOnly.cores (hs : TrafficOnly s t) : t.cores = s.cores := by rw [hs]; rfl
theorem TrafficOnly.mem (hs : TrafficOnly s t) : t.mem = s.mem := by rw [hs]; rfl
theorem TrafficOnly.l2 (hs : TrafficOnly s t) : t.l2 = s.l2 := by rw [hs]; rfl
theorem TrafficOnly.wayMask (hs : TrafficOnly s t) (home d : Nat) : wayMask t home d = wayMask s home d := by rw [hs]; rfl
theorem TrafficOnly.setWays (hs : TrafficOnly s t) (d vl : Nat) : setWays t d vl = setWays s d vl := by rw [hs]; rfl

/-- A line served by its home slice, with room there: no L1 and no byte of memory changes. -/
theorem homeServe_room (hs : TrafficOnly s w) (hr : RoomL2 s d (vlineOf va) (p.pa / 128)) :
    (homeServe w c d meter va p).2.cores = s.cores ∧ (homeServe w c d meter va p).2.mem = s.mem := by
  have hb (key : Nat) := hs.trans (backRead_traffic w key (p.pa / 128))
  unfold homeServe homeServeAs
  dsimp only
  split
  · exact ⟨hs.cores, hs.mem⟩
  · next hnone =>
    split
    · next hdram =>
      have hx := (hb (keyOf w d p.pa)).trans (chargeDram_metered _ d meter p.pa 2).traffic
      have hway : wayMask s (homeOf d (vlineOf va)) d = 0 ∨ ∃ w, w < 24 ∧ (wayMask s (homeOf d (vlineOf va)) d).getLsbD w = true ∧
          ∀ k ∈ setWays s d (vlineOf va), k.1 ≠ w := by
        rcases hr with hr | hr | hr
        · exact absurd (hr.symm.trans ((isDram_line p.pa).trans hdram)) (by decide)
        · exact absurd (hs.l2 ▸ hnone) hr
        · exact hr
      rw [← hx.wayMask, ← hx.setWays] at hway
      rw [← hx.cores, ← hx.mem]
      exact allocL2_room hway
    · exact ⟨(hb _).cores, (hb _).mem⟩

theorem homeServe_pl (w : State) (c d meter : Nat) (va : Word) (p : HomePlace) : (homeServe w c d meter va p).1.pl = p.pa / 128 := by
  unfold homeServe homeServeAs
  dsimp only
  split
  · rfl
  · split <;> rfl

theorem homeLine_ok {heal : Bool} (hh : homeLine s c d meter kernel need va heal = .ok (h, t)) :
    ∃ p w, TrafficOnly s w ∧ homeServe w c d meter va p = (h, t) := by
  unfold homeLine at hh
  split at hh
  · cases hh
  · next hp => exact ⟨_, _, homePlace_traffic hp, Except.ok.inj hh⟩

theorem fillL1_ok (hf : fillL1 s c d kernel need va = .ok (l, u)) : ∃ h t v, homeLine s c d (clusterOf c) kernel need va false = .ok (h, t) ∧
    l = filledLine t c d va h ∧ Metered (roomL1 (addPending t c h.da) c d (vlineOf va)) v ∧ u = placeL1 v c l (BitVec.allOnes 128) := by
  unfold fillL1 at hf
  split at hf
  · cases hf
  · next hh =>
    cases hf
    exact ⟨_, _, _, hh, rfl, chargeMove_metered .., rfl⟩

theorem lineFor_ok (hf : lineFor s c d kernel need va n = .ok (l, u)) :
    (findL1 s c d (vlineOf va) = some l ∧ u = s) ∨ fillL1 s c d kernel need va = .ok (l, u) := by
  unfold lineFor at hf
  dsimp only at hf
  split at hf
  · cases hf
  · split at hf
    · next hl =>
      split at hf
      · split at hf
        · cases hf; exact .inl ⟨hl, rfl⟩
        · cases hf
      · exact .inr hf
    · exact .inr hf

theorem findL1_congr (hc : t.cores = s.cores) (c d vl : Nat) : findL1 t c d vl = findL1 s c d vl := by
  rw [findL1, findL1, State.getCore, State.getCore, hc]

theorem findL1_addPending (s : State) (c : Nat) (da : Option Nat) (e d vl : Nat) : findL1 (addPending s c da) e d vl = findL1 s e d vl := by
  rw [findL1, findL1, addPending, State.modCore_eq, State.getCore_setCore]
  split
  · next he => rw [he]
  · rfl

theorem roomL1_room (hr : RoomL1 s c d (vlineOf va)) : roomL1 s c d (vlineOf va) = s := by
  unfold roomL1
  dsimp only
  refine if_pos (hr.imp Option.isSome_iff_ne_none.mpr fun hlt => ?_)
  simpa only [l1Lines, isSystem, decide_eq_true_eq] using hlt

/-- Room is a matter of the L1 alone: it stays where no L1 has changed and a load is noted. -/
theorem roomL1_addPending (hc : t.cores = s.cores) (hr : RoomL1 s c d vl) (da : Option Nat) : RoomL1 (addPending t c da) c d vl := by
  have hl : ((addPending t c da).getCore c).l1 = (s.getCore c).l1 := by
    rw [addPending, State.modCore_eq, State.getCore_setCore, if_pos rfl, State.getCore, hc]; rfl
  rw [RoomL1, findL1_addPending, findL1_congr hc, hl]
  exact hr

/-- Whose line a fill places. -/
theorem filledLine_tag (s : State) (c d : Nat) (va : Word) (h : HomeLine) : (filledLine s c d va h).dom = d ∧
    (filledLine s c d va h).vl = vlineOf va ∧ (filledLine s c d va h).pl = h.pl := by
  unfold filledLine
  dsimp only
  split <;> exact ⟨rfl, rfl, rfl⟩

/-- Bytes that are dirty already outlast a fill (07 R121). -/
theorem filledLine_dirty {k : L1Line} {i : Nat} (hk : findL1 s c d (vlineOf va) = some k) (hi : k.dirty.getLsbD i = true) :
    lineByte (filledLine s c d va h).data i = lineByte k.data i ∧ (filledLine s c d va h).dirty.getLsbD i = true := by
  simp only [filledLine, hk]
  exact ⟨by rw [lineByte_mergeLine, if_pos hi], hi⟩

end

theorem fillFrame : Clauses.FillFrame := by
  intro s u need va n l d vl hasRoomL1 hasRoomL2 hf
  have within : AccessOnly s u := (lineFor_within ..).ok hf
  refine ⟨within.act, fun c o => by rw [spadByte, within.spad, spadByte], fun hr1 hr2 => ?_⟩
  rcases lineFor_ok hf with ⟨hl, rfl⟩ | hfill
  · refine ⟨rfl, fun _ _ _ _ _ => rfl, fun k i hk _ hi => ?_⟩
    obtain rfl : l = k := Option.some.inj (hl.symm.trans hk)
    exact ⟨rfl, hi⟩
  obtain ⟨h, t, v, hh, rfl, hv, rfl⟩ := fillL1_ok hfill
  obtain ⟨p, w, hw, hserve⟩ := homeLine_ok hh
  obtain ⟨hdom, hvl, hpl⟩ := filledLine_tag t s.core s.act.dom va h
  have hhpl : h.pl = p.pa / 128 := by rw [← homeServe_pl w s.core d (clusterOf s.core) va p, hserve]
  obtain ⟨hcores, hmem⟩ : t.cores = s.cores ∧ t.mem = s.mem := by
    have hroom : RoomL2 s d vl (p.pa / 128) := hhpl ▸ hpl ▸ hr2
    have hk := homeServe_room (c := s.core) (meter := clusterOf s.core) hw hroom
    rwa [hserve] at hk
  have hroom := roomL1_addPending hcores hr1 h.da
  rw [roomL1_room hroom] at hv
  have hfind (e d vl : Nat) : findL1 v e d vl = findL1 s e d vl := by
    rw [findL1_congr hv.traffic.cores, findL1_addPending, findL1_congr hcores]
  refine ⟨hv.traffic.mem.trans hmem, fun e d' vl' i hne => ?_, fun k i hk _ hi => filledLine_dirty ((findL1_congr hcores ..).trans hk) hi⟩
  rw [l1Byte_placeL1_other (by simpa only [hdom, hvl, hfind] using hne), l1Byte, l1Byte, hfind]

/-- Settles O18: loads and stores that hit by the line's bytes, a miss by the line that it places. -/
theorem cacheHits : Obligations.CacheHits := ⟨loadHit, storeHitFrame, fillFrame⟩

end Sys2Proof.Machine
end

section
/-!
Decoding and encoding (11 R163-R170): the round trip, put together from the instructions' own.
-/
namespace Sys2Proof.Laws.RoundTrip

/-- Each instruction's round trip is the lemma of its name; a device's step and an illegal word are no word's instruction. -/
theorem statement (i : Instr) : Statement i := by
  cases i with
  | add => apply add | sub => apply sub | and => apply and | or => apply or | xor => apply xor | andn => apply andn
  | sll => apply sll | srl => apply srl | sra => apply sra | rol => apply rol | ror => apply ror | slt => apply slt
  | sltu => apply sltu | min => apply min | max => apply max | minu => apply minu | maxu => apply maxu
  | seq => apply seq | mul => apply mul | mulh => apply mulh | mulhu => apply mulhu | mulhsn => apply mulhsn
  | div => apply div | divu => apply divu | rem => apply rem | remu => apply remu | clz => apply clz
  | ctz => apply ctz | popc => apply popc | brev => apply brev | bswap => apply bswap | sextB => apply sextB
  | sextH => apply sextH | sextW => apply sextW | zextB => apply zextB | zextH => apply zextH | zextW => apply zextW
  | lea1 => apply lea1 | lea2 => apply lea2 | lea4 => apply lea4 | lea8 => apply lea8 | addi => apply addi
  | andi => apply andi | ori => apply ori | xori => apply xori | slti => apply slti | sltin => apply sltin
  | slli => apply slli | srli => apply srli | srai => apply srai | rori => apply rori | liu => apply liu
  | addpc => apply addpc | sysr => apply sysr | sysw => apply sysw | ldB => apply ldB | ldH => apply ldH
  | ldW => apply ldW | ldD => apply ldD | ldBn => apply ldBn | ldHn => apply ldHn | ldWn => apply ldWn
  | stB => apply stB | stH => apply stH | stW => apply stW | stD => apply stD | lda => apply lda | stl => apply stl
  | pref => apply pref | cclean => apply cclean | cinv => apply cinv | cflush => apply cflush | spldW => apply spldW
  | spldD => apply spldD | spstW => apply spstW | spstD => apply spstD | vld => apply vld | vst => apply vst
  | spvld => apply spvld | spvst => apply spvst | vlds => apply vlds | vsts => apply vsts | vgath => apply vgath
  | vscat => apply vscat | beq => apply beq | bne => apply bne | blt => apply blt | bge => apply bge
  | bltn => apply bltn | bgen => apply bgen | bpAny => apply bpAny | bpAll => apply bpAll | bpNone => apply bpNone
  | j => apply j | jr => apply jr | loop => apply loop | loopi => apply loopi | vadd => apply vadd
  | vsub => apply vsub | vmul => apply vmul | vmulh => apply vmulh | vmin => apply vmin | vmax => apply vmax
  | vabs => apply vabs | vneg => apply vneg | vadds => apply vadds | vsubs => apply vsubs | vavg => apply vavg
  | vdif => apply vdif | vand => apply vand | vor => apply vor | vxor => apply vxor | vandn => apply vandn
  | vnot => apply vnot | vshl => apply vshl | vshr => apply vshr | vsra => apply vsra | vrot => apply vrot
  | vshli => apply vshli | vshri => apply vshri | vsrai => apply vsrai | vfma => apply vfma | vfms => apply vfms
  | vdiv => apply vdiv | vsqrt => apply vsqrt | vrcp => apply vrcp | vrsq => apply vrsq | vexp2 => apply vexp2
  | vlog2 => apply vlog2 | vrnd => apply vrnd | vclass => apply vclass | vceq => apply vceq | vcne => apply vcne
  | vclt => apply vclt | vcle => apply vcle | vsel => apply vsel | vshuf => apply vshuf | vzip => apply vzip
  | vuzp => apply vuzp | vsld => apply vsld | vbcast => apply vbcast | vins => apply vins | vext => apply vext
  | vredadd => apply vredadd | vredmax => apply vredmax | vredmin => apply vredmin | vdot => apply vdot
  | vcvt => apply vcvt | vretag => apply vretag | vtag => apply vtag | vpack => apply vpack | vunpkl => apply vunpkl
  | vunpkh => apply vunpkh | venc => apply venc | vdec => apply vdec | ctld => apply ctld | ctldi => apply ctldi
  | ctst => apply ctst | ctinfo => apply ctinfo | pand => apply pand | por => apply por | pxor => apply pxor
  | pnot => apply pnot | pseti => apply pseti | pfrom => apply pfrom | pto => apply pto | pcnt => apply pcnt
  | pfirst => apply pfirst | vmov => apply vmov | vzero => apply vzero | vsplati => apply vsplati
  | mctx => apply mctx | mma => apply mma | mmar => apply mmar | mmarLast => apply mmarLast | mzero => apply mzero
  | mrdacc => apply mrdacc | mwait => apply mwait | mpoll => apply mpoll | cpy => apply cpy | cpy2 => apply cpy2
  | cpypl => apply cpypl | cpyrd => apply cpyrd | cpyfill => apply cpyfill | cwait => apply cwait
  | cpoll => apply cpoll | amoAdd => apply amoAdd | amoAnd => apply amoAnd | amoOr => apply amoOr
  | amoXor => apply amoXor | amoMin => apply amoMin | amoMax => apply amoMax | amoMinn => apply amoMinn
  | amoMaxn => apply amoMaxn | amoSwap => apply amoSwap | amoFadd => apply amoFadd | redAdd => apply redAdd
  | redAnd => apply redAnd | redOr => apply redOr | redXor => apply redXor | redMin => apply redMin
  | redMax => apply redMax | redMinn => apply redMinn | redMaxn => apply redMaxn | redFadd => apply redFadd
  | cas => apply cas | chunk => apply chunk | fenceAcq => apply fenceAcq | fenceRel => apply fenceRel
  | fenceFull => apply fenceFull | barrive => apply barrive | barrived => apply barrived | barwait => apply barwait
  | bartry => apply bartry | barinit => apply barinit | jinit => apply jinit | isync => apply isync
  | rdef => apply rdef | rwaitf => apply rwaitf | rwaite => apply rwaite | radvh => apply radvh
  | radvt => apply radvt | rinfo => apply rinfo | send => apply send | mpop => apply mpop | mpeek => apply mpeek
  | tagen => apply tagen | tagdis => apply tagdis | tagpend => apply tagpend | endj => apply endj
  | fork => apply fork | safept => apply safept | trap => apply trap | bkpt => apply bkpt | mtrd => apply mtrd
  | mtcls => apply mtcls | pdly => apply pdly | foffer => apply foffer | faccept => apply faccept
  | fdecline => apply fdecline | fwithdraw => apply fwithdraw | flend => apply flend | frecall => apply frecall
  | frelease => apply frelease | fscrub => apply fscrub | endh => apply endh | eret => apply eret
  | psaved => apply psaved | actload => apply actload | actunld => apply actunld | actbind => apply actbind
  | tinv => apply tinv | ctxsw => apply ctxsw | aresume => apply aresume | akill => apply akill | qset => apply qset
  | epreq => apply epreq
  | _ => exact nofun

/-- Settles O1: each instruction's round trip. -/
theorem roundTrip : Obligations.RoundTrip := statement

end Sys2Proof.Laws.RoundTrip
end

section
/-!
The decoder is sound (11 R166-R170): a format put together from a word's own fields is the word, so each part of the decoder
answers with an instruction whose word is the one it read.
-/
namespace Sys2Proof

/-! The fields of a word, put back. -/

theorem fmtR_fields (w : IWord) : fmtR (fF w) (fB w) (fA w) (fD w) (fOp w) = w := by
  refine BitVec.eq_of_getLsbD_eq fun i hi => ?_
  simp only [fmtR_bit, fF, fB, fA, fD, fOp, BitVec.getLsbD_extractLsb']
  grind

theorem fmtI_fields (w : IWord) : fmtI (fImm13 w) (fA w) (fD w) (fOp w) = w := by
  refine BitVec.eq_of_getLsbD_eq fun i hi => ?_
  simp only [fmtI_bit, fImm13, fA, fD, fOp, BitVec.getLsbD_extractLsb']
  grind

theorem fmtS_fields (w : IWord) : fmtS (fImmS w) (fB w) (fA w) (fOp w) = w := by
  have hhi : (fImmS w).extractLsb' 6 7 = fF w := BitVec.extractLsb'_append_eq_left
  have hlo : (fImmS w).extractLsb' 0 6 = fD w := BitVec.extractLsb'_append_eq_right
  rw [fmtS_eq, hhi, hlo, fmtR_fields]

theorem fmtU_fields (w : IWord) : fmtU (fImm19 w) (fD w) (fOp w) = w := by
  refine BitVec.eq_of_getLsbD_eq fun i hi => ?_
  simp only [fmtU_bit, fImm19, fD, fOp, BitVec.getLsbD_extractLsb']
  grind

theorem fmtV_fields (w : IWord) : fmtV (fSub w) (fP w) (fB w) (fA w) (fD w) (fOp w) = w := by
  refine BitVec.eq_of_getLsbD_eq fun i hi => ?_
  simp only [fmtV_bit, fSub, fP, fB, fA, fD, fOp, BitVec.getLsbD_extractLsb']
  grind

theorem fmtVM_fields (w : IWord) : fmtVM (fOff9 w) (fTagVm w) (fA w) (fD w) (fOp w) = w := by
  refine BitVec.eq_of_getLsbD_eq fun i hi => ?_
  simp only [fmtVM_bit, fOff9, fTagVm, fA, fD, fOp, BitVec.getLsbD_extractLsb']
  grind

theorem fmtM_fields {w : IWord} (h : w.extractLsb' 24 8 = 0) :
    fmtM (w.extractLsb' 21 3) (w.extractLsb' 15 6) (w.extractLsb' 7 8) (fOp w) = w := by
  refine BitVec.eq_of_getLsbD_eq fun i hi => ?_
  have htop : 24 ≤ i → w.getLsbD i = false := fun hi => by
    have := congrArg (·.getLsbD (i - 24)) h
    simp only [BitVec.getLsbD_extractLsb', BitVec.ofNat_eq_ofNat, BitVec.getLsbD_zero] at this
    grind
  simp only [fmtM_bit, fOp, BitVec.getLsbD_extractLsb']
  grind

theorem loopi_fields (w : IWord) : (fImm13 w ++ w.extractLsb' 8 11 ++ BitVec.ofBool (w.getLsbD 7) ++ fOp w : BitVec 32) = w := by
  refine BitVec.eq_of_getLsbD_eq fun i hi => ?_
  by_cases h7 : i = 7
  · subst h7; simp
  · simp only [loopi_bit, fImm13, fOp, BitVec.getLsbD_extractLsb', BitVec.getLsbD_ofBool]
    grind

/-! A format is a word where its fields are the word's. -/

section
variable {w : IWord} {f op : BitVec 7} {b a d : BitVec 6}

theorem fmtR_iff : fmtR f b a d op = w ↔
    (fOp w).toNat = op.toNat ∧ (fF w).toNat = f.toNat ∧ fB w = b ∧ fA w = a ∧ fD w = d := by
  simp only [BitVec.toNat_inj]
  constructor
  · rintro rfl; simp
  · rintro ⟨rfl, rfl, rfl, rfl, rfl⟩; exact fmtR_fields w

theorem fmtI_iff {imm : BitVec 13} : fmtI imm a d op = w ↔
    (fOp w).toNat = op.toNat ∧ fImm13 w = imm ∧ fA w = a ∧ fD w = d := by
  simp only [BitVec.toNat_inj]
  constructor
  · rintro rfl; simp
  · rintro ⟨rfl, rfl, rfl, rfl⟩; exact fmtI_fields w

theorem fmtV_iff {sub : BitVec 4} {p : PNum} : fmtV sub p b a d op = w ↔
    (fOp w).toNat = op.toNat ∧ (fSub w).toNat = sub.toNat ∧ fP w = p ∧ fB w = b ∧ fA w = a ∧ fD w = d := by
  simp only [BitVec.toNat_inj]
  constructor
  · rintro rfl; simp
  · rintro ⟨rfl, rfl, rfl, rfl, rfl, rfl⟩; exact fmtV_fields w

theorem fmtVM_iff {off : BitVec 9} {t : BitVec 4} : fmtVM off t a d op = w ↔
    (fOp w).toNat = op.toNat ∧ fOff9 w = off ∧ fTagVm w = t ∧ fA w = a ∧ fD w = d := by
  simp only [BitVec.toNat_inj]
  constructor
  · rintro rfl; simp
  · rintro ⟨rfl, rfl, rfl, rfl, rfl⟩; exact fmtVM_fields w

variable (h : (fOp w).toNat = op.toNat)
include h

theorem fmtI_self : fmtI (fImm13 w) (fA w) (fD w) op = w := fmtI_iff.mpr ⟨h, rfl, rfl, rfl⟩

theorem fmtS_self : fmtS (fImmS w) (fB w) (fA w) op = w :=
  (congrArg _ (BitVec.eq_of_toNat_eq h).symm).trans (fmtS_fields w)

theorem fmtU_self : fmtU (fImm19 w) (fD w) op = w :=
  (congrArg _ (BitVec.eq_of_toNat_eq h).symm).trans (fmtU_fields w)

end

/-! The codes, put back. -/

@[simp] theorem eq_up5_lo5 {f : BitVec 6} : f = up5 (lo5 f) ↔ fits 5 f = true := by revert f; decide
@[simp] theorem eq_up4_lo4 {f : BitVec 6} : f = up4 (lo4 f) ↔ fits 4 f = true := by revert f; decide
@[simp] theorem eq_up3_lo3 {f : BitVec 6} : f = up3 (lo3 f) ↔ fits 3 f = true := by revert f; decide
@[simp] theorem eq_up2_lo2 {f : BitVec 6} : f = up2 (lo2 f) ↔ fits 2 f = true := by revert f; decide

@[simp] theorem tag_code_ofCode (c : BitVec 4) : (Tag.ofCode c).code = c := by revert c; decide

theorem scope_code_of_ofCode {c : BitVec 3} {s : Scope} (h : Scope.ofCode c = some s) : s.code = c := by
  revert c; cases s <;> decide

theorem append_extract {l k : Nat} (n : BitVec (l + k)) : n.extractLsb' k l ++ n.extractLsb' 0 k = n := by
  refine BitVec.eq_of_getLsbD_eq fun i hi => ?_
  simp only [BitVec.getLsbD_append, BitVec.getLsbD_extractLsb']
  grind

theorem sysReg_num_of_ofNum {n : BitVec 13} {r : SysReg} (h : SysReg.ofNum n = some r) : r.num = n := by
  unfold SysReg.ofNum at h
  split at h
  case h_19 =>
    split at h
    next hk => cases h; rw [SysReg.num, ← hk]; exact append_extract (l := 10) (k := 3) n
    split at h
    next hk => cases h; rw [SysReg.num, ← hk]; exact append_extract (l := 11) (k := 2) n
    split at h
    next hk => cases h; rw [SysReg.num, ← hk]; exact append_extract (l := 11) (k := 2) n
    cases h
  all_goals next hn => cases h; exact (BitVec.eq_of_toNat_eq hn).symm

theorem fLda_fields {f : BitVec 7} {sc : Scope} (hsc : Scope.ofCode (f.extractLsb' 2 3) = some sc) (hz : f.extractLsb' 5 2 = 0) :
    fLda (Width.ofCode (f.extractLsb' 0 2)) sc = f := by
  rw [fLda, scope_code_of_ofCode hsc]
  clear hsc; revert f; decide

theorem fAmo_fields (f : BitVec 7) :
    fAmo (f.extractLsb' 0 4) (AWidth.ofBit (f.extractLsb' 4 1)) (Order.ofCode (f.extractLsb' 5 2)) = f := by
  revert f; decide

theorem fVs_fields (f : BitVec 7) : fVs (f.extractLsb' 4 3) (f.extractLsb' 0 4) = f := by revert f; decide

/-- The word is the instruction's, and the instruction is one that a word of the map names (11 R163 R168). -/
def Reads (w : IWord) (i : Instr) : Prop := i.word = w ∧ i.wf = true ∧ i.hasWord = true

/-- What the decoder may answer for a word: an instruction that it reads as, or one of R169's two rejections of a whole word. -/
def Sound (w : IWord) : Except Reject Instr → Prop
  | .ok i => Reads w i
  | .error e => e ≠ .short

theorem Sound.ok {w : IWord} {i : Instr} (h : Reads w i) : Sound w (.ok i) := h

theorem Sound.error {w : IWord} {e : Reject} (h : e ≠ .short) : Sound w (.error e) := h

theorem Sound.need {w : IWord} {c : Bool} {i : Instr} (h : c = true → Reads w i) : Sound w (need c i) := by
  cases c with
  | true => exact .ok (h rfl)
  | false => exact .error nofun

section
variable {w : IWord}

theorem decAlu_sound (hop : (fOp w).toNat = 0x01) : Sound w (decAlu w) := by
  unfold decAlu
  split
  case h_42 => exact .error nofun
  case h_31 | h_32 | h_33 | h_34 | h_35 | h_36 | h_37 | h_38 | h_39 | h_40 | h_41 =>
    exact .need fun hb => ⟨fmtR_iff.mpr (by simp_all [bZero]), rfl, rfl⟩
  all_goals exact .ok ⟨fmtR_iff.mpr (by simp_all), rfl, rfl⟩

/-! A selector whose upper bits are reserved. -/

theorem low1_toNat {f : BitVec 7} : f.extractLsb' 1 6 = 0 → f.toNat = (f.extractLsb' 0 1).toNat := by revert f; decide
theorem bit0_toNat {f : BitVec 7} : f.extractLsb' 1 6 = 0 → f.toNat = (f.getLsbD 0).toNat := by revert f; decide
theorem low2_toNat {f : BitVec 7} : f.extractLsb' 2 5 = 0 → f.toNat = (f.extractLsb' 0 2).toNat := by revert f; decide
theorem low3_toNat {f : BitVec 7} : f.extractLsb' 3 4 = 0 → f.toNat = (f.extractLsb' 0 3).toNat := by revert f; decide

theorem decShiftImm_sound (hop : (fOp w).toNat = 0x08) : Sound w (decShiftImm w) := by
  have shift {k : BitVec 7} (hk : ((fF w).extractLsb' 0 2).toNat = k.toNat) (hz : decide ((fF w).extractLsb' 2 5 = 0) = true) :
      fmtR k (fB w) (fA w) (fD w) 0x08 = w :=
    fmtR_iff.mpr ⟨hop, (low2_toNat (of_decide_eq_true hz)).trans hk, rfl, rfl, rfl⟩
  unfold decShiftImm
  split
  case h_4 h0 h1 h2 =>
    have hk : ((fF w).extractLsb' 0 2).toNat = 3 := by
      rw [imp_false] at h0 h1 h2
      have := ((fF w).extractLsb' 0 2).isLt; omega
    exact .need fun hz => ⟨shift hk hz, rfl, rfl⟩
  all_goals next hk => exact .need fun hz => ⟨shift hk hz, rfl, rfl⟩

theorem decSys_sound (hop : (fOp w).toNat = 0x0B ∨ (fOp w).toNat = 0x0C) : Sound w (decSys w) := by
  unfold decSys
  split
  · exact .error nofun
  next r hr =>
    have hn := (sysReg_num_of_ofNum hr).symm
    split
    next h => exact .need fun hc => ⟨fmtI_iff.mpr (by simp_all [aZero]), rfl, rfl⟩
    next h =>
      have h : ¬ (fOp w).toNat = 0x0B := fun e => h (BitVec.eq_of_toNat_eq e)
      exact .need fun hc => ⟨fmtI_iff.mpr (by simp_all [dZero]), rfl, rfl⟩

theorem decLda_sound (hop : (fOp w).toNat = 0x1C) : Sound w (decLda w) := by
  unfold decLda
  split
  · exact .error nofun
  next sc hsc =>
    exact .need fun hc => ⟨fmtR_iff.mpr (by simp_all [bZero, fLda_fields hsc]), rfl, rfl⟩

theorem decStl_sound (hop : (fOp w).toNat = 0x1D) : Sound w (decStl w) := by
  unfold decStl
  split
  · exact .error nofun
  next sc hsc =>
    exact .need fun hc => ⟨fmtR_iff.mpr (by simp_all [dZero, fLda_fields hsc]), rfl, rfl⟩

theorem decPref_sound (hop : (fOp w).toNat = 0x1E) : Sound w (decPref w) := by
  unfold decPref
  split
  case h_4 => exact .error nofun
  all_goals next hd => exact .ok ⟨fmtI_iff.mpr ⟨hop, rfl, rfl, BitVec.eq_of_toNat_eq hd⟩, rfl, rfl⟩

theorem scopeB_eq {sc : Scope} (h : scopeB w = some sc) : fB w = up3 sc.code := by
  unfold scopeB at h
  split at h
  next hf => rw [scope_code_of_ofCode h, eq_up3_lo3, hf]
  · cases h

theorem decCacheOp_sound (hop : (fOp w).toNat = 0x1F) : Sound w (decCacheOp w) := by
  unfold decCacheOp
  cases hs : scopeB w with
  | none => dsimp only; split <;> exact .error nofun
  | some sc =>
    have hb := scopeB_eq hs
    dsimp only
    split
    case h_4 => exact .error nofun
    all_goals exact .need fun hd => ⟨fmtR_iff.mpr (by simp_all [dZero]), rfl, rfl⟩

theorem decVm_sound (hop : 0x24 ≤ (fOp w).toNat ∧ (fOp w).toNat ≤ 0x27) : Sound w (decVm w) := by
  unfold decVm
  split
  case h_1 | h_3 =>
    refine .need fun hc => ?_
    obtain ⟨hd, ht⟩ := Bool.and_eq_true_iff.mp hc
    exact ⟨fmtVM_iff.mpr (by simp_all), ht, rfl⟩
  case h_2 => exact .need fun hc => ⟨fmtVM_iff.mpr (by simp_all), rfl, rfl⟩
  case h_4 h1 h2 h3 =>
    have hop : (fOp w).toNat = 0x27 := by rw [imp_false] at h1 h2 h3; omega
    exact .need fun hc => ⟨fmtVM_iff.mpr (by simp_all), rfl, rfl⟩

theorem decVs_sound (hop : 0x28 ≤ (fOp w).toNat ∧ (fOp w).toNat ≤ 0x2B) : Sound w (decVs w) := by
  have hf := congrArg BitVec.toNat (fVs_fields (fF w))
  unfold decVs
  split
  case h_1 | h_3 =>
    refine .need fun hc => ?_
    obtain ⟨hd, ht⟩ := Bool.and_eq_true_iff.mp hc
    exact ⟨fmtR_iff.mpr (by simp_all), ht, rfl⟩
  case h_2 => exact .need fun hc => ⟨fmtR_iff.mpr (by simp_all), rfl, rfl⟩
  case h_4 h1 h2 h3 =>
    have hop : (fOp w).toNat = 0x2B := by rw [imp_false] at h1 h2 h3; omega
    exact .need fun hc => ⟨fmtR_iff.mpr (by simp_all), rfl, rfl⟩

theorem decBp_sound (hop : (fOp w).toNat = 0x36) : Sound w (decBp w) := by
  have hd {k : BitVec 3} (hk : ((fD w).extractLsb' 3 3).toNat = k.toNat) : fD w = k ++ lo3 (fD w) := by
    rw [← BitVec.eq_of_toNat_eq hk]; exact (append_extract (l := 3) (k := 3) (fD w)).symm
  unfold decBp
  split
  case h_4 => exact .error nofun
  all_goals next hk =>
    exact .need fun ha => ⟨fmtI_iff.mpr ⟨hop, rfl, of_decide_eq_true ha, hd hk⟩, rfl, rfl⟩

theorem decLoop_sound (hop : (fOp w).toNat = 0x39 ∨ (fOp w).toNat = 0x3A) : Sound w (decLoop w) := by
  unfold decLoop
  split
  · exact .error nofun
  split
  next h =>
    refine .need fun hc => ?_
    obtain ⟨hz, hlen⟩ := Bool.and_eq_true_iff.mp hc
    have hd : fD w = (0 : BitVec 5) ++ BitVec.ofBool (w.getLsbD 7) := by
      have hlvl : (fD w).extractLsb' 0 1 = BitVec.ofBool (w.getLsbD 7) := by
        ext i hi
        obtain rfl : i = 0 := by omega
        simp [fD]
      rw [← of_decide_eq_true hz, ← hlvl]
      exact (append_extract (l := 5) (k := 1) (fD w)).symm
    exact ⟨fmtI_iff.mpr ⟨congrArg _ h, rfl, rfl, hd⟩, hlen, rfl⟩
  next h =>
    have hop : fOp w = 0x3A := BitVec.eq_of_toNat_eq (hop.resolve_left fun e => h (BitVec.eq_of_toNat_eq e))
    exact .need fun hc => ⟨(congrArg _ hop.symm).trans (loopi_fields w), hc, rfl⟩

theorem decV40_sound (hop : (fOp w).toNat = 0x40) : Sound w (decV40 w) := by
  unfold decV40
  split
  case h_13 => exact .error nofun
  all_goals exact .need fun hc => ⟨fmtV_iff.mpr (by simp_all [vvv, vv0, bZero]), rfl, rfl⟩

theorem decV41_sound (hop : (fOp w).toNat = 0x41) : Sound w (decV41 w) := by
  unfold decV41
  split
  case h_13 => exact .error nofun
  all_goals exact .need fun hc => ⟨fmtV_iff.mpr (by simp_all [vvv, vv0, vv, bZero]), rfl, rfl⟩

theorem decV42_sound (hop : (fOp w).toNat = 0x42) : Sound w (decV42 w) := by
  unfold decV42
  split
  case h_3 => exact .error nofun
  all_goals exact .need fun hc => ⟨fmtV_iff.mpr (by simp_all [vvv]), rfl, rfl⟩

theorem decV43_sound (hop : (fOp w).toNat = 0x43) : Sound w (decV43 w) := by
  unfold decV43
  split
  case h_9 => exact .error nofun
  case h_7 hs =>
    split
    case h_6 => exact .error nofun
    all_goals next hb =>
      exact .need fun hc => ⟨fmtV_iff.mpr ⟨hop, hs, rfl, BitVec.eq_of_toNat_eq hb, by simp_all [vv]⟩, rfl, rfl⟩
  all_goals exact .need fun hc => ⟨fmtV_iff.mpr (by simp_all [vvv, vv0, bZero]), rfl, rfl⟩

theorem decV44_sound (hop : (fOp w).toNat = 0x44) : Sound w (decV44 w) := by
  unfold decV44
  split
  case h_6 => exact .error nofun
  all_goals exact .need fun hc => ⟨fmtV_iff.mpr (by simp_all [vvv]), rfl, rfl⟩

theorem decV45_sound (hop : (fOp w).toNat = 0x45) : Sound w (decV45 w) := by
  unfold decV45
  split
  case h_12 => exact .error nofun
  all_goals exact .need fun hc => ⟨fmtV_iff.mpr (by simp_all [vvv, vv0, vv, bZero]), rfl, rfl⟩

/-- The slot and the part of a code table's operand (11 R168). -/
theorem part_fields {f : BitVec 6} (h : fits 5 f = true) : f = (0 : BitVec 1) ++ f.extractLsb' 2 3 ++ lo2 f := by
  revert f; decide

theorem decV46_sound (hop : (fOp w).toNat = 0x46) : Sound w (decV46 w) := by
  unfold decV46
  split
  case h_9 => exact .error nofun
  case h_7 | h_8 =>
    refine .need fun hc => ?_
    obtain ⟨hv, hb⟩ := Bool.and_eq_true_iff.mp hc
    exact ⟨fmtV_iff.mpr ⟨hop, by assumption, rfl, part_fields hb, by simp_all [vv]⟩, rfl, rfl⟩
  all_goals exact .need fun hc => ⟨fmtV_iff.mpr (by simp_all [vvv, vv0, vv, aZero, bZero]), rfl, rfl⟩

theorem decV49_sound (hop : (fOp w).toNat = 0x49) : Sound w (decV49 w) := by
  unfold decV49
  split
  case h_4 => exact .error nofun
  all_goals exact .need fun hc => ⟨fmtV_iff.mpr (by simp_all [vv0, aZero, bZero]), rfl, rfl⟩

theorem decTable_sound (hop : (fOp w).toNat = 0x47) : Sound w (decTable w) := by
  unfold decTable
  split
  case h_5 => exact .error nofun
  case h_2 hf =>
    split
    case h_4 => exact .error nofun
    all_goals next ha =>
      refine .need fun hc => ⟨fmtR_iff.mpr ⟨hop, hf, rfl, BitVec.eq_of_toNat_eq ha, by simp_all⟩, ?_, rfl⟩
      simp_all [Instr.wf, ctldiOk]
  all_goals exact .need fun hc => ⟨fmtR_iff.mpr (by simp_all [aZero, bZero]), rfl, rfl⟩

theorem decPred_sound (hop : (fOp w).toNat = 0x48) : Sound w (decPred w) := by
  unfold decPred
  split
  case h_10 => exact .error nofun
  case h_5 =>
    refine .need fun hc => ?_
    obtain ⟨hd, hn⟩ := Bool.and_eq_true_iff.mp hc
    exact ⟨fmtR_iff.mpr (by simp_all [aZero]), hn, rfl⟩
  all_goals exact .need fun hc => ⟨fmtR_iff.mpr (by simp_all [bZero]), rfl, rfl⟩

theorem decSplice_sound (hop : 0x50 ≤ (fOp w).toNat ∧ (fOp w).toNat ≤ 0x56) : Sound w (decSplice w) := by
  unfold decSplice
  split
  case h_3 ho =>
    split
    case isFalse => exact .error nofun
    case isTrue hz =>
      refine .need fun hc => ?_
      obtain ⟨ha, hb⟩ := Bool.and_eq_true_iff.mp hc
      split
      all_goals next hl =>
        exact ⟨fmtR_iff.mpr ⟨ho, by rw [bit0_toNat hz]; simp_all, eq_up4_lo4.mpr hb, eq_up4_lo4.mpr ha, rfl⟩, rfl, rfl⟩
  case h_5 ho =>
    have reads {t : AccTarget} (ht : fB w = t.field) : Sound w (need (fits 4 (fA w) && fZero w) (.mrdacc (fD w) (lo4 (fA w)) t)) :=
      .need fun hc => ⟨fmtR_iff.mpr (by simp_all [fZero]), rfl, rfl⟩
    split
    case h_6 =>
      split
      case isFalse => exact .error nofun
      case isTrue hs => exact reads (by rw [AccTarget.field, ← hs]; exact (append_extract (l := 4) (k := 2) (fB w)).symm)
    all_goals next hb => exact reads (BitVec.eq_of_toNat_eq hb)
  case h_7 h1 h2 h3 h4 h5 h6 =>
    have hop : (fOp w).toNat = 0x56 := by rw [imp_false] at h1 h2 h3 h4 h5 h6; omega
    exact .need fun hc => ⟨fmtR_iff.mpr (by simp_all [bZero, fZero]), rfl, rfl⟩
  all_goals exact .need fun hc => ⟨fmtR_iff.mpr (by simp_all [aZero, bZero, dZero, fZero]), rfl, rfl⟩

theorem eq_group {f : BitVec 6} : f = f.extractLsb' 2 4 ++ (0 : BitVec 2) ↔ lo2 f = 0 := by revert f; decide

theorem decReeve_sound (hop : 0x58 ≤ (fOp w).toNat ∧ (fOp w).toNat ≤ 0x5E) : Sound w (decReeve w) := by
  have ha : fA w = (fA w).extractLsb' 2 4 ++ (0 : BitVec 2) ↔ _ := eq_group
  unfold decReeve
  split
  case h_7 h1 h2 h3 h4 h5 h6 =>
    have hop : (fOp w).toNat = 0x5E := by rw [imp_false] at h1 h2 h3 h4 h5 h6; omega
    exact .need fun hc => ⟨fmtR_iff.mpr (by simp_all [bZero, fZero]), rfl, rfl⟩
  all_goals exact .need fun hc => ⟨fmtR_iff.mpr (by simp_all [bZero, fZero]), rfl, rfl⟩

theorem eq_fAmo {op : BitVec 4} (h : ((fF w).extractLsb' 0 4).toNat = op.toNat) :
    (fF w).toNat = (fAmo op (AWidth.ofBit ((fF w).extractLsb' 4 1)) (Order.ofCode ((fF w).extractLsb' 5 2))).toNat := by
  rw [← BitVec.eq_of_toNat_eq h, fAmo_fields]

theorem decAmo_sound (hop : (fOp w).toNat = 0x60) : Sound w (decAmo w) := by
  unfold decAmo
  split
  case h_11 => exact .error nofun
  all_goals next ho => exact .ok ⟨fmtR_iff.mpr ⟨hop, eq_fAmo ho, rfl, rfl, rfl⟩, rfl, rfl⟩

theorem decRed_sound (hop : (fOp w).toNat = 0x61) : Sound w (decRed w) := by
  unfold decRed
  split
  case h_10 => exact .error nofun
  all_goals next ho =>
    exact .need fun hd => ⟨fmtR_iff.mpr ⟨hop, eq_fAmo ho, rfl, rfl, of_decide_eq_true hd⟩, rfl, rfl⟩

theorem cas_sound (hop : (fOp w).toNat = 0x62) : Sound w
    (need (decide ((fF w).extractLsb' 1 6 = 0)) (.cas (fD w) (fA w) (fB w) (AWidth.ofBit ((fF w).extractLsb' 0 1)))) := by
  have width : ∀ f : BitVec 7, f.extractLsb' 1 6 = 0 → f.toNat = ((0 : BitVec 6) ++ (AWidth.ofBit (f.extractLsb' 0 1)).bit).toNat := by
    decide
  exact .need fun hz => ⟨fmtR_iff.mpr ⟨hop, width _ (of_decide_eq_true hz), rfl, rfl, rfl⟩, rfl, rfl⟩

theorem chunk_sound (hop : (fOp w).toNat = 0x63) :
    Sound w (need (bZero w && fZero w && chunkOk (fD w)) (.chunk (fD w) (fA w))) := by
  refine .need fun hc => ?_
  obtain ⟨hz, hd⟩ := Bool.and_eq_true_iff.mp hc
  exact ⟨fmtR_iff.mpr (by simp_all [bZero, fZero]), hd, rfl⟩

/-- F of a fence: its kind and its scope below two reserved bits (11 R168). -/
theorem eq_fence {f : BitVec 7} {k : BitVec 2} {sc : Scope} (hk : (f.extractLsb' 3 2).toNat = k.toNat)
    (hsc : Scope.ofCode (f.extractLsb' 0 3) = some sc) (hz : f.extractLsb' 5 2 = 0) :
    f.toNat = ((0 : BitVec 2) ++ k ++ sc.code).toNat := by
  have fields : ∀ f : BitVec 7, f = f.extractLsb' 5 2 ++ f.extractLsb' 3 2 ++ f.extractLsb' 0 3 := by decide
  rw [← hz, ← BitVec.eq_of_toNat_eq hk, scope_code_of_ofCode hsc, ← fields]

theorem decFence_sound (hop : (fOp w).toNat = 0x64) : Sound w (decFence w) := by
  unfold decFence
  split
  · exact .error nofun
  next sc hsc =>
    dsimp only
    split
    case h_4 => exact .error nofun
    all_goals next hk =>
      refine .need fun hc => ?_
      obtain ⟨hz, hf⟩ := Bool.and_eq_true_iff.mp hc
      exact ⟨fmtR_iff.mpr ⟨hop, eq_fence hk hsc (of_decide_eq_true hf), by simp_all [aZero, bZero, dZero]⟩, rfl, rfl⟩

theorem decBarrier_sound (hop : (fOp w).toNat = 0x65) : Sound w (decBarrier w) := by
  have hlow := low3_toNat (f := fF w)
  unfold decBarrier
  split
  case h_7 => exact .error nofun
  case h_5 hk =>
    split
    · exact .error nofun
    next sc hsc =>
      refine .need fun hc => ?_
      obtain ⟨hd, hz⟩ := Bool.and_eq_true_iff.mp hc
      have fields : ∀ f : BitVec 7, f = f.extractLsb' 6 1 ++ f.extractLsb' 3 3 ++ f.extractLsb' 0 3 := by decide
      have hf : fF w = (0 : BitVec 1) ++ sc.code ++ (4 : BitVec 3) := by
        rw [fields (fF w), of_decide_eq_true hz, scope_code_of_ofCode hsc, BitVec.eq_of_toNat_eq hk (y := 4)]
      exact ⟨fmtR_iff.mpr ⟨hop, congrArg _ hf, rfl, rfl, of_decide_eq_true hd⟩, rfl, rfl⟩
  all_goals next hk =>
    exact .need fun hc => ⟨fmtR_iff.mpr ⟨hop, (hlow (by simp_all)).trans hk, by simp_all [bZero, dZero]⟩, rfl, rfl⟩

theorem decIsync_sound (hop : (fOp w).toNat = 0x66) : Sound w (decIsync w) := by
  unfold decIsync
  split
  · exact .error nofun
  next sc hsc =>
    refine .need fun hc => ?_
    obtain ⟨hr, hz⟩ := Bool.and_eq_true_iff.mp hc
    have hf : fF w = (0 : BitVec 4) ++ sc.code := by
      rw [← of_decide_eq_true hz, scope_code_of_ofCode hsc]
      exact (append_extract (l := 4) (k := 3) (fF w)).symm
    exact ⟨fmtR_iff.mpr ⟨hop, congrArg _ hf, by simp_all [aZero, bZero, dZero]⟩, rfl, rfl⟩

theorem decRing_sound (hop : (fOp w).toNat = 0x68) : Sound w (decRing w) := by
  have hlow := low3_toNat (f := fF w)
  unfold decRing
  split
  case h_7 => exact .error nofun
  all_goals next hk =>
    exact .need fun hc => ⟨fmtR_iff.mpr ⟨hop, (hlow (by simp_all)).trans hk, by simp_all [bZero, dZero]⟩, rfl, rfl⟩

theorem decSend_sound (hop : (fOp w).toNat = 0x70) : Sound w (decSend w) := by
  refine .need fun hc => ?_
  obtain ⟨hz, ha⟩ := Bool.and_eq_true_iff.mp hc
  have hop : fOp w = 0x70 := BitVec.eq_of_toNat_eq hop
  exact ⟨(congrArg _ hop.symm).trans (fmtM_fields (of_decide_eq_true hz)), ha, rfl⟩

theorem decMpop_sound (hop : (fOp w).toNat = 0x71) : Sound w (decMpop w) := by
  unfold decMpop
  split
  case h_3 => exact .error nofun
  all_goals
    refine .need fun hc => ?_
    obtain ⟨hr, hd⟩ := Bool.and_eq_true_iff.mp hc
    exact ⟨fmtR_iff.mpr (by simp_all [aZero]), hd, rfl⟩

theorem decTagOp_sound (hop : (fOp w).toNat = 0x72) : Sound w (decTagOp w) := by
  unfold decTagOp
  split
  case h_4 => exact .error nofun
  all_goals exact .need fun hc => ⟨fmtR_iff.mpr (by simp_all [aZero, dZero]), rfl, rfl⟩

theorem decEnd_sound (hop : (fOp w).toNat = 0x73) : Sound w (decEnd w) := by
  unfold decEnd
  split
  case h_3 => exact .error nofun
  all_goals exact .need fun hc => ⟨fmtR_iff.mpr (by simp_all [aZero, bZero, dZero]), rfl, rfl⟩

theorem decSafept_sound (hop : (fOp w).toNat = 0x75) : Sound w (decSafept w) := by
  unfold decSafept
  split
  case h_3 => exact .error nofun
  case h_1 hd =>
    refine .need fun hc => ?_
    obtain ⟨ha, hn⟩ := Bool.and_eq_true_iff.mp hc
    have himm : fImm13 w = (0 : BitVec 5) ++ (fImm13 w).extractLsb' 0 8 := by
      rw [← of_decide_eq_true hn]; exact (append_extract (l := 5) (k := 8) (fImm13 w)).symm
    exact ⟨fmtI_iff.mpr ⟨hop, himm, of_decide_eq_true ha, BitVec.eq_of_toNat_eq hd⟩, rfl, rfl⟩
  case h_2 hd =>
    exact .need fun hc => ⟨fmtI_iff.mpr ⟨hop, by simp_all, by simp_all [aZero], BitVec.eq_of_toNat_eq hd⟩, rfl, rfl⟩

theorem decMeter_sound (hop : (fOp w).toNat = 0x7B) : Sound w (decMeter w) := by
  unfold decMeter
  split
  case h_4 => exact .error nofun
  all_goals exact .need fun hc => ⟨fmtR_iff.mpr (by simp_all [aZero, bZero]), rfl, rfl⟩

theorem decFrame_sound (hop : (fOp w).toNat = 0x7C) : Sound w (decFrame w) := by
  unfold decFrame
  split
  case h_9 => exact .error nofun
  all_goals next hf => exact .ok ⟨fmtR_iff.mpr ⟨hop, hf, rfl, rfl, rfl⟩, rfl, rfl⟩

theorem decKernel_sound (hop : (fOp w).toNat = 0x7D) : Sound w (decKernel w) := by
  unfold decKernel
  split
  case h_10 => exact .error nofun
  all_goals next hf => exact .ok ⟨fmtR_iff.mpr ⟨hop, hf, rfl, rfl, rfl⟩, rfl, rfl⟩

theorem decodeMain_sound (w : IWord) : Sound w (decodeMain w) := by
  unfold decodeMain
  split <;> rename_i hop
  exacts [
    decAlu_sound hop, .ok ⟨fmtI_self hop, rfl, rfl⟩, .ok ⟨fmtI_self hop, rfl, rfl⟩, .ok ⟨fmtI_self hop, rfl, rfl⟩,
    .ok ⟨fmtI_self hop, rfl, rfl⟩, .ok ⟨fmtI_self hop, rfl, rfl⟩, .ok ⟨fmtI_self hop, rfl, rfl⟩, decShiftImm_sound hop,
    .ok ⟨fmtU_self hop, rfl, rfl⟩, .ok ⟨fmtU_self hop, rfl, rfl⟩, decSys_sound (.inl hop), decSys_sound (.inr hop),
    .ok ⟨fmtI_self hop, rfl, rfl⟩, .ok ⟨fmtI_self hop, rfl, rfl⟩, .ok ⟨fmtI_self hop, rfl, rfl⟩,
    .ok ⟨fmtI_self hop, rfl, rfl⟩, .ok ⟨fmtI_self hop, rfl, rfl⟩, .ok ⟨fmtI_self hop, rfl, rfl⟩,
    .ok ⟨fmtI_self hop, rfl, rfl⟩, .ok ⟨fmtS_self hop, rfl, rfl⟩, .ok ⟨fmtS_self hop, rfl, rfl⟩,
    .ok ⟨fmtS_self hop, rfl, rfl⟩, .ok ⟨fmtS_self hop, rfl, rfl⟩, decLda_sound hop, decStl_sound hop, decPref_sound hop,
    decCacheOp_sound hop, .ok ⟨fmtI_self hop, rfl, rfl⟩, .ok ⟨fmtI_self hop, rfl, rfl⟩, .ok ⟨fmtS_self hop, rfl, rfl⟩,
    .ok ⟨fmtS_self hop, rfl, rfl⟩, decVm_sound ⟨by omega, by omega⟩, decVm_sound ⟨by omega, by omega⟩,
    decVm_sound ⟨by omega, by omega⟩, decVm_sound ⟨by omega, by omega⟩, decVs_sound ⟨by omega, by omega⟩,
    decVs_sound ⟨by omega, by omega⟩, decVs_sound ⟨by omega, by omega⟩, decVs_sound ⟨by omega, by omega⟩,
    .ok ⟨fmtI_self hop, rfl, rfl⟩, .ok ⟨fmtI_self hop, rfl, rfl⟩, .ok ⟨fmtI_self hop, rfl, rfl⟩,
    .ok ⟨fmtI_self hop, rfl, rfl⟩, .ok ⟨fmtI_self hop, rfl, rfl⟩, .ok ⟨fmtI_self hop, rfl, rfl⟩, decBp_sound hop,
    .ok ⟨fmtU_self hop, rfl, rfl⟩, .ok ⟨fmtI_self hop, rfl, rfl⟩, decLoop_sound (.inl hop), decLoop_sound (.inr hop),
    decV40_sound hop, decV41_sound hop, decV42_sound hop, decV43_sound hop, decV44_sound hop, decV45_sound hop,
    decV46_sound hop, decTable_sound hop, decPred_sound hop, decV49_sound hop, decSplice_sound ⟨by omega, by omega⟩,
    decSplice_sound ⟨by omega, by omega⟩, decSplice_sound ⟨by omega, by omega⟩, decSplice_sound ⟨by omega, by omega⟩,
    decSplice_sound ⟨by omega, by omega⟩, decSplice_sound ⟨by omega, by omega⟩, decSplice_sound ⟨by omega, by omega⟩,
    decReeve_sound ⟨by omega, by omega⟩, decReeve_sound ⟨by omega, by omega⟩, decReeve_sound ⟨by omega, by omega⟩,
    decReeve_sound ⟨by omega, by omega⟩, decReeve_sound ⟨by omega, by omega⟩, decReeve_sound ⟨by omega, by omega⟩,
    decReeve_sound ⟨by omega, by omega⟩, decAmo_sound hop, decRed_sound hop, cas_sound hop, chunk_sound hop,
    decFence_sound hop, decBarrier_sound hop, decIsync_sound hop, decRing_sound hop, decSend_sound hop,
    decMpop_sound hop, decTagOp_sound hop, decEnd_sound hop,
    .need fun hc => ⟨fmtR_iff.mpr (by simp_all [dZero, fZero]), rfl, rfl⟩, decSafept_sound hop,
    .need fun hc => ⟨fmtI_iff.mpr (by simp_all [aZero, dZero]), rfl, rfl⟩,
    .need fun hc => ⟨fmtI_iff.mpr (by simp_all [aZero, dZero]), rfl, rfl⟩,
    .need fun hc => ⟨fmtI_iff.mpr (by simp_all [aZero, dZero]), rfl, rfl⟩, decMeter_sound hop, .error nofun]

theorem decodeWord_sound (w : IWord) : Sound w (decodeWord w) := by
  unfold decodeWord
  split
  next hop => exact decKernel_sound (congrArg _ hop)
  split
  next hop => exact decFrame_sound (congrArg _ hop)
  · exact decodeMain_sound w

end

theorem reads_of_decode {w : IWord} {i : Instr} (h : decodeWord w = .ok i) : Reads w i :=
  show Sound w (.ok i) from h ▸ decodeWord_sound w

/-- A whole word is never rejected as too short: only the two rejections of R169 are left. -/
theorem reject_of_decode {w : IWord} {e : Reject} (h : decodeWord w = .error e) (he : e ≠ .illegal) : e = .reservedField := by
  have hs : e ≠ .short := show Sound w (.error e) from h ▸ decodeWord_sound w
  cases e with
  | illegal => exact absurd rfl he
  | reservedField => rfl
  | short => exact absurd rfl hs

/-- Settles O2: each part of the decoder answers with an instruction whose word is the one read. -/
theorem decodeSound : Obligations.DecodeSound := fun _ _ => reads_of_decode

end Sys2Proof
end

section
/-!
Words written out, and the words of no instruction (11 R163 R169 R170).
-/
namespace Sys2Proof.Machine

theorem splicelessWord_iff (c : Nat) (w : IWord) :
    splicelessWord c w = true ↔ 1280 ≤ c ∧ 0x50 ≤ (fOp w).toNat ∧ (fOp w).toNat ≤ 0x56 := by
  simp [splicelessWord, isSystem, and_assoc]

theorem rejectCause_spliceless {c : Nat} {w : IWord} (h : splicelessWord c w = true) : rejectCause c w = .illegal := by
  rw [rejectCause, if_pos h]

theorem rejectCause_illegal_or (c : Nat) (w : IWord) : rejectCause c w = .illegal ∨ rejectCause c w = .reservedField := by
  unfold rejectCause
  repeat' split
  all_goals simp

/-- Majors 0x7C and 0x7D reserve no field (11 R168). -/
theorem decodeWord_wide {w : IWord} {e : Reject} (hm : fOp w = 0x7C ∨ fOp w = 0x7D) (h : decodeWord w = .error e) :
    e = .illegal := by
  rcases hm with hm | hm
  · rw [decodeWord_7C w hm] at h
    unfold decFrame at h
    split at h <;> cases h
    rfl
  · rw [decodeWord_7D w hm] at h
    unfold decKernel at h
    split at h <;> cases h
    rfl

theorem decodeWord_eq_main {w : IWord} (hm : ¬ (fOp w = 0x7C ∨ fOp w = 0x7D)) : decodeWord w = decodeMain w := by
  rw [decodeWord, if_neg fun h => hm (.inr h), if_neg fun h => hm (.inl h)]

/-- The cause is the decoder's reason, of a Splice word on a system core apart. -/
theorem rejectCause_of_decode {c : Nat} {w : IWord} {e : Reject} (hs : ¬ splicelessWord c w = true) (h : decodeWord w = .error e) :
    rejectCause c w = if e = .illegal then .illegal else .reservedField := by
  rw [rejectCause, if_neg hs]
  split
  next hm => rw [if_pos (decodeWord_wide hm h)]
  next hm =>
    rw [← decodeWord_eq_main hm, h]
    by_cases he : e = .illegal
    · subst he; rfl
    · obtain rfl := reject_of_decode h he; rfl

theorem decodeWords : Clauses.DecodeWords := by
  have read (i : Instr) := Laws.RoundTrip.statement i
  exact ⟨read (.add 10 11 12) rfl rfl, read (.mul 15 16 17) rfl rfl, read (.srli 21 8 4) rfl rfl, read (.ldD 23 9 0) rfl rfl,
    read (.stW 20 18 0) rfl rfl, read (.loop false 21 3) rfl rfl, by decide,
    read (.amoAdd 15 20 21 .d .relaxed) rfl rfl, read (.fenceFull .package) rfl rfl, read (.radvh 3 0) rfl rfl,
    read (.send 3 15 2) rfl rfl, read (.trap 5) rfl rfl, read .eret rfl rfl, rfl⟩

theorem illegalWords : Clauses.IllegalWords := by
  intro w s
  have traps {c : Cause} (h : rejectCause s.core w = c) : exec (.illegal w) s = .next (takeTrap s c (w.zeroExtend 64)) := by
    rw [← h]; rfl
  refine ⟨⟨_, rejectCause s.core w, rfl, rfl, rejectCause_illegal_or ..⟩, fun h => traps ?_, fun r h hr hs => traps ?_,
    fun r _ hc hlo hhi => traps (rejectCause_spliceless ((splicelessWord_iff ..).mpr ⟨hc, hlo, hhi⟩))⟩
  · by_cases hs : splicelessWord s.core w = true
    · exact rejectCause_spliceless hs
    · exact rejectCause_of_decode hs h
  · have hs : ¬ splicelessWord s.core w = true := fun e => by
      obtain ⟨hc, hop⟩ := (splicelessWord_iff ..).mp e
      exact hs.elim (fun h => absurd hc (by omega)) (fun h => h hop)
    rw [rejectCause_of_decode hs h, if_neg hr]

/-- Settles O3: the words are those of their instructions, which the round trip reads back; a word of none traps as it was rejected. -/
theorem wordsDecode : Obligations.WordsDecode := ⟨decodeWords, illegalWords⟩

end Sys2Proof.Machine
end

section
/-!
The package right after reset (31 R399 R400 R406): its tables list nothing, so each entry of one is its blank.
-/
namespace Sys2Proof.Machine

namespace State

theorem reset_getCore (c : Nat) : reset.getCore c = Core.blank := rfl
theorem reset_getCluster (g : Nat) : reset.getCluster g = Cluster.blank := rfl
theorem reset_getDom (d : Nat) : reset.getDom d = Dom.blank := rfl
theorem reset_getDie (d : Nat) : reset.getDie d = DieRegs.blank := rfl
theorem reset_getPort (p : Nat) : reset.getPort p = Port.blank := rfl

end State

theorem findL1_reset (c d vl : Nat) : findL1 State.reset c d vl = none := by
  rw [findL1, State.reset_getCore]; rfl

theorem start_scalar (r : Nat) : Regs.start.s.toList.getD r 0 = 0 := by
  simp only [Regs.start, Vector.toList_replicate, List.getD_eq_getElem?_getD, List.getElem?_getD_replicate_default_eq]

/-- Settles O6: the fields of the reset state, and the blank entries of its tables. -/
theorem resetState : Obligations.ResetState :=
  ⟨rfl, rfl, fun c => congrArg Core.dom (State.reset_getCore c), fun _ => rfl, rfl, findL1_reset, rfl, rfl, rfl,
    fun p => congrArg Port.lstate (State.reset_getPort p),
    fun d => ⟨congrArg Dom.exists_ (State.reset_getDom d), congrArg Dom.pbudget (State.reset_getDom d)⟩, rfl,
    fun d => ⟨congrArg DieRegs.step (State.reset_getDie d), congrArg DieRegs.tthr (State.reset_getDie d)⟩,
    fun g => ⟨congrArg Cluster.cscale (State.reset_getCluster g), congrArg Cluster.hscale (State.reset_getCluster g)⟩,
    start_scalar, rfl, rfl, rfl, rfl, rfl⟩

end Sys2Proof.Machine
end

section
/-!
Where execution goes once a word has retired (11 R185 R187-R189): the end-of-body check by its cases, and the advance by the
slots owed.
-/
namespace Sys2Proof.Machine

section
variable {r : Regs} {w : Word}

/-! The end-of-body check. -/

theorem ends_eq_true {n e : Word} (h : n ≠ 0 ∧ w = e) : (decide (n ≠ 0) && decide (w = e)) = true := by
  rw [← Bool.decide_and]; exact decide_eq_true h

theorem ends_eq_false {n e : Word} (h : ¬ (n ≠ 0 ∧ w = e)) : (decide (n ≠ 0) && decide (w = e)) = false := by
  rw [← Bool.decide_and]; exact decide_eq_false h

theorem loopCheck_away (h0 : ¬ (r.lc0 ≠ 0 ∧ w = r.le0)) (h1 : ¬ (r.lc1 ≠ 0 ∧ w = r.le1)) : loopCheck r w = (r, none) := by
  simp only [loopCheck, ends_eq_false h0, ends_eq_false h1, Bool.false_and, Bool.false_eq_true, if_false]

theorem loopCheck_inner_repeats (h0 : r.lc0 ≠ 0 ∧ w = r.le0) (hn : r.lc0 ≠ 1) :
    loopCheck r w = ({ r with lc0 := r.lc0 - 1 }, some r.ls0) := by
  have hrep : r.lc0 - 1 ≠ 0 := sub_ne_zero.mpr hn
  simp only [loopCheck, ends_eq_true h0, if_true, hrep, ne_eq, not_false_eq_true, decide_true, Bool.and_self]

/-- An inner loop that ends for good leaves the check to the outer one. -/
theorem loopCheck_inner_ends (h0 : r.lc0 ≠ 0 ∧ w = r.le0) (hn : r.lc0 = 1) :
    loopCheck r w = loopCheck { r with lc0 := 0 } w := by
  have hend : r.lc0 - 1 = 0 := sub_eq_zero.mpr hn
  simp only [loopCheck, ends_eq_true h0, if_true, hend, ne_eq, not_true_eq_false, decide_false, Bool.and_false, Bool.false_and,
    Bool.false_eq_true, if_false]

theorem loopCheck_outer_repeats (h0 : ¬ (r.lc0 ≠ 0 ∧ w = r.le0)) (h1 : r.lc1 ≠ 0 ∧ w = r.le1) (hn : r.lc1 ≠ 1) :
    loopCheck r w = ({ r with lc1 := r.lc1 - 1 }, some r.ls1) := by
  have hrep : r.lc1 - 1 ≠ 0 := sub_ne_zero.mpr hn
  simp only [loopCheck, ends_eq_false h0, ends_eq_true h1, Bool.false_and, Bool.false_eq_true, if_false, if_true, hrep, ne_eq,
    not_false_eq_true, decide_true,
    Bool.and_self]

theorem loopCheck_outer_ends (h0 : ¬ (r.lc0 ≠ 0 ∧ w = r.le0)) (h1 : r.lc1 ≠ 0 ∧ w = r.le1) (hn : r.lc1 = 1) :
    loopCheck r w = ({ r with lc1 := 0 }, none) := by
  have hend : r.lc1 - 1 = 0 := sub_eq_zero.mpr hn
  simp only [loopCheck, ends_eq_false h0, ends_eq_true h1, Bool.false_and, Bool.false_eq_true, if_false, if_true, hend, ne_eq,
    not_true_eq_false, decide_false, Bool.and_false]

/-- Where the inner loop does not repeat, the check is that of registers at which it does not end, alike but for LC0. -/
theorem loopCheck_past_inner (h0 : ¬ ((r.lc0 ≠ 0 ∧ w = r.le0) ∧ r.lc0 ≠ 1)) :
    ∃ n, loopCheck r w = loopCheck { r with lc0 := n } w ∧ ¬ (n ≠ 0 ∧ w = r.le0) := by
  by_cases he : r.lc0 ≠ 0 ∧ w = r.le0
  · exact ⟨0, loopCheck_inner_ends he (not_not.mp fun hn => h0 ⟨he, hn⟩), fun h => h.1 rfl⟩
  · exact ⟨r.lc0, rfl, he⟩

/-- The check sends execution nowhere where each loop that ends at the word ends for good. -/
theorem loopCheck_leaves (h0 : ¬ ((r.lc0 ≠ 0 ∧ w = r.le0) ∧ r.lc0 ≠ 1)) (h1 : ¬ ((r.lc1 ≠ 0 ∧ w = r.le1) ∧ r.lc1 ≠ 1)) :
    (loopCheck r w).2 = none := by
  obtain ⟨n, heq, hn⟩ := loopCheck_past_inner h0
  rw [heq]
  by_cases he : r.lc1 ≠ 0 ∧ w = r.le1
  · rw [loopCheck_outer_ends (r := { r with lc0 := n }) hn he (not_not.mp fun hn => h1 ⟨he, hn⟩)]
  · rw [loopCheck_away (r := { r with lc0 := n }) hn he]

end

section
variable {a : Act}

/-! The advance. -/

theorem advance_seq (h : a.owed = 0) : advance a .seq =
    { a with regs := (loopCheck a.regs a.pc).1, pc := (loopCheck a.regs a.pc).2.getD (a.pc + 4), btarget := 0 } := by
  simp only [advance, h, if_true]

theorem advance_goto (h : a.owed = 0) (p : Word) : advance a (.goto p) =
    { a with regs := (loopCheck a.regs a.pc).1, pc := (loopCheck a.regs a.pc).2.getD p, btarget := 0 } := by
  simp only [advance, h, if_true]

theorem advance_branch (h : a.owed = 0) (p : Word) : advance a (.branch p) =
    { a with regs := (loopCheck a.regs a.pc).1, pc := a.pc + 4, owed := 2, btarget := p } := by
  simp only [advance, h, if_true]

theorem advance_resume (h : a.owed = 0) (p b : Word) (k : Nat) : advance a (.resume p k b) =
    { a with pc := p, owed := k, btarget := if k = 0 then 0 else b } := by
  simp only [advance, h, if_true]

theorem advance_slot (h : a.owed = 2) : advance a .seq =
    { a with regs := (loopCheck a.regs a.pc).1, pc := a.pc + 4, owed := 1 } := by
  simp [advance, h]

theorem advance_lastSlot (h : a.owed = 1) : advance a .seq =
    { a with regs := (loopCheck a.regs a.pc).1, pc := a.btarget, owed := 0, btarget := 0 } := by
  simp [advance, h]

end

namespace Retires
variable {u t : State} {f : Flow}

/-- Of where execution goes, retirement says what the advance says. -/
theorem place (h : Retires u f t) : t.act.pc = (advance u.act f).pc ∧ t.act.owed = (advance u.act f).owed ∧
    t.act.btarget = (advance u.act f).btarget ∧ t.act.regs = (advance u.act f).regs := by
  rw [h.act]; exact ⟨rfl, rfl, rfl, rfl⟩

end Retires

theorem nextPc : Clauses.NextPc := by
  intro u t a r r' ends0 ends1
  refine ⟨fun h ho h0 h1 => ?_, fun h ho h0 hn => ?_, fun h ho h0 hn h1 => ?_, fun h ho h0 h1 hn => ?_, fun h ho h0 h1 hn => ?_,
    fun p h ho h0 h1 => ?_, fun p h ho => ?_, fun h ho => ?_, fun h ho => ?_, fun p k b h ho => ?_⟩
  all_goals
    obtain ⟨hpc, howed, hbt, hregs⟩ := h.place
    simp only [r', hpc, howed, hbt, hregs]
  · rw [advance_seq ho, loopCheck_away h0 h1]; exact ⟨rfl, ho, rfl, rfl⟩
  · rw [advance_seq ho, loopCheck_inner_repeats h0 hn]; exact ⟨rfl, ho, rfl, rfl⟩
  · rw [advance_seq ho, loopCheck_inner_ends h0 hn, loopCheck_away (r := { a.regs with lc0 := 0 }) (fun h => h.1 rfl) h1]
    exact ⟨rfl, ho, rfl, rfl⟩
  · obtain ⟨n, heq, h0⟩ := loopCheck_past_inner h0
    rw [advance_seq ho, heq, loopCheck_outer_repeats (r := { a.regs with lc0 := n }) h0 h1 hn]; exact ⟨rfl, ho, rfl⟩
  · obtain ⟨n, heq, h0⟩ := loopCheck_past_inner h0
    rw [advance_seq ho, heq, loopCheck_outer_ends (r := { a.regs with lc0 := n }) h0 h1 hn]; exact ⟨rfl, ho, rfl⟩
  · rw [advance_goto ho, loopCheck_leaves h0 h1]; exact ⟨rfl, ho⟩
  · rw [advance_branch ho]; exact ⟨rfl, rfl, rfl⟩
  · rw [advance_slot ho]; exact ⟨rfl, rfl, rfl⟩
  · rw [advance_lastSlot ho]; exact ⟨rfl, rfl⟩
  · rw [advance_resume ho]; exact ⟨rfl, rfl, fun hk => if_neg hk, rfl, rfl⟩

/-- Settles O11: a word retires as the activation advances, and the advance by the check's cases and the slots owed. -/
theorem retiring : Obligations.Retiring := ⟨fun w _ f ts h => complete_retires w f ts h, nextPc⟩

end Sys2Proof.Machine
end

section
/-!
A word issues (11 R170): every instruction with a word takes its own effect only past the tests on the word and the mode.
-/
namespace Sys2Proof.Machine

/-- The issue of a word whose own effect is `e` (11 R170). -/
def issued (w : IWord) (s : State) (e : Eff) : Host.Outcome State Fault Refusal :=
  match decodeTrap w s with
  | some c => .next (takeTrap s c (w.setWidth 64))
  | none => .next (finish w s e)

/-- What an instruction with a word does is the issue of that word; a device's step and an illegal word have none. -/
theorem exec_issued (i : Instr) (h : i.hasWord = true) (s : State) : ∃ e, exec i s = issued i.word s e := by
  cases i
  case illegal | ctxswRestore | ctxswFresh | messageArrival | messageMoveBack | tagFire | dequePop | stealPass |
      stealRequest | stealReply | stealRetry | activationResume | priorityAgeing | pbudgetExpiry | saveRoutineLimit |
      jobAccept | spliceJobStart | spliceJobEnd | mmarForwardLanded | reeveRingSlot | reeveJobEnd | barrierDeferLand |
      continuationDeferredSend | memoryResponse | pageWalk | recallDeadline | recallClusterInvalidate | lateWrite |
      recallClosingComplete | cxlMemRequest | backInvalidateResponse | backInvalidateTimeout | chargeApply | heldSeen |
      meterTick | droopTrip | droopEnd | throttleTick | thermalStop | thermalResume | railFault | packageReset |
      bringupStage | extend | evidence | policy | create | destroy | retire | logread | mode | grant | consent | revoke |
      hold | release | step | snap | trace | window | lock | unlock | hostIngressWrite | hostEgressWrite |
      lanyardFlitSend | lanyardDataFlit | lanyardMarker | lanyardResyncMarker | lanyardRetry | lanyardIdle |
      lanyardAckTimeout | linkDown | linkTrained | kagree | registerWrite | hostLinkDown | frameFoundUncorrectable |
      frameTransactionStatus | kernelOperationStatus => exact nomatch h
  all_goals exact ⟨_, rfl⟩

theorem issued_trap {w : IWord} {s : State} {e : Eff} {c : Cause} (h : decodeTrap w s = some c) :
    issued w s e = .next (takeTrap s c (w.setWidth 64)) := by
  simp only [issued, h]

/-- A test on the word and the mode that traps is what the instruction comes to, whatever its own effect. -/
theorem traps_of_decodeTrap {i : Instr} {s : State} {c : Cause} (hw : i.hasWord = true) (h : decodeTrap i.word s = some c) :
    Traps i s c (i.word.zeroExtend 64) := by
  obtain ⟨e, he⟩ := exec_issued i hw s
  exact he.trans (issued_trap h)

/-! The tests in their order. -/

theorem atLoopEnd_iff (a : Act) :
    atLoopEnd a = true ↔ (a.regs.lc0 ≠ 0 ∧ a.pc = a.regs.le0) ∨ (a.regs.lc1 ≠ 0 ∧ a.pc = a.regs.le1) := by
  simp only [atLoopEnd, Bool.or_eq_true, Bool.and_eq_true, decide_eq_true_eq]

section
variable {w : IWord} {s : State} (hs : ¬ splicelessWord s.core w = true)
include hs

theorem decodeTrap_slot (ho : s.act.owed ≠ 0) (h : notInSlot w = true ∨ atLoopEnd s.act = true) :
    decodeTrap w s = some .delaySlot := by
  rw [decodeTrap, if_neg hs, if_pos ⟨ho, Bool.or_eq_true_iff.mpr h⟩]

theorem decodeTrap_bodyEnd (ho : s.act.owed = 0) (hb : isBranch w = true) (he : atLoopEnd s.act = true) :
    decodeTrap w s = some .delaySlot := by
  rw [decodeTrap, if_neg hs, if_neg fun h => h.1 ho, if_pos ⟨ho, Bool.and_eq_true_iff.mpr ⟨hb, he⟩⟩]

/-- Past the tests of its place, the mode decides. -/
theorem decodeTrap_placed (hslot : s.act.owed ≠ 0 → ¬ (notInSlot w = true ∨ atLoopEnd s.act = true))
    (hend : s.act.owed = 0 → ¬ (isBranch w = true ∧ atLoopEnd s.act = true)) :
    decodeTrap w s = if kernelWord w = true ∧ s.act.kernel = false then some .privilege else none := by
  rw [decodeTrap, if_neg hs, if_neg fun h => hslot h.1 (Bool.or_eq_true_iff.mp h.2),
    if_neg fun h => hend h.1 (Bool.and_eq_true_iff.mp h.2)]
  simp only [Bool.not_eq_true']

end

/-! The majors of the words that the tests name. -/

theorem major_mem {l : List Instr} {ms : List (BitVec 7)} (h : l.map (fun i => fOp i.word) = ms) {i : Instr} (hi : i ∈ l) :
    fOp i.word ∈ ms := h ▸ List.mem_map_of_mem hi

section
variable (a b d : SReg) (p : PNum) (o : BitVec 13) (j : BitVec 19) (l : Bool) (c : BitVec 11) (n : BitVec 8) (k : BitVec 13)

/-- The branches and jumps (11 R185). -/
def branchInstrs : List Instr :=
  [.beq a b o, .bne a b o, .blt a b o, .bge a b o, .bltn a b o, .bgen a b o, .bpAny p o, .bpAll p o, .bpNone p o, .j d j, .jr d a o]

/-- The other instructions that a delay slot must not hold (11 R186). -/
def slotlessInstrs : List Instr :=
  [.loop l a k, .loopi l c k, .endh, .endj a, .safept n, .psaved, .trap o, .eret]

/-- The frame transactions and the kernel operations (19 R296 R300). -/
noncomputable def kernelInstrs : List Instr :=
  [.foffer d a b, .faccept d a b, .fdecline d a b, .fwithdraw d a b, .flend d a b, .frecall d a b, .frelease d a b, .fscrub d a b,
    .actload d a b, .actunld d a b, .actbind d a b, .tinv d a b, .ctxsw d a b, .aresume d a b, .akill d a b, .qset d a b,
    .epreq d a b]

theorem branchInstrs_majors : (branchInstrs a b d p o j).map (fun i => fOp i.word) =
    [0x30, 0x31, 0x32, 0x33, 0x34, 0x35, 0x36, 0x36, 0x36, 0x37, 0x38] := by
  simp only [branchInstrs, List.map, List.cons.injEq, and_true]
  exact ⟨fOp_fmtI .., fOp_fmtI .., fOp_fmtI .., fOp_fmtI .., fOp_fmtI .., fOp_fmtI .., fOp_fmtI .., fOp_fmtI .., fOp_fmtI ..,
    fOp_fmtU .., fOp_fmtI ..⟩

theorem slotlessInstrs_majors : (slotlessInstrs a o l c n k).map (fun i => fOp i.word) =
    [0x39, 0x3A, 0x73, 0x73, 0x75, 0x75, 0x78, 0x79] := by
  simp only [slotlessInstrs, List.map, List.cons.injEq, and_true]
  exact ⟨fOp_fmtI .., loopi_op .., fOp_fmtR .., fOp_fmtR .., fOp_fmtI .., fOp_fmtI .., fOp_fmtI .., fOp_fmtI ..⟩

theorem kernelInstrs_majors : (kernelInstrs a b d).map (fun i => fOp i.word) =
    List.replicate 8 0x7C ++ List.replicate 9 0x7D := by
  simp only [kernelInstrs, List.map, List.replicate, List.cons_append, List.nil_append, List.cons.injEq, and_true]
  refine ⟨?_, ?_, ?_, ?_, ?_, ?_, ?_, ?_, ?_, ?_, ?_, ?_, ?_, ?_, ?_, ?_, ?_⟩ <;> exact fOp_fmtR ..

variable {a b d p o j l c n k} {i : Instr}

theorem branchInstrs_word (hi : i ∈ branchInstrs a b d p o j) :
    i.hasWord = true ∧ 0x30 ≤ (fOp i.word).toNat ∧ (fOp i.word).toNat ≤ 0x38 := by
  have hm : ∀ m ∈ ([0x30, 0x31, 0x32, 0x33, 0x34, 0x35, 0x36, 0x36, 0x36, 0x37, 0x38] : List (BitVec 7)),
      0x30 ≤ m.toNat ∧ m.toNat ≤ 0x38 := by decide
  exact ⟨List.all_eq_true.mp rfl i hi, hm _ (major_mem (branchInstrs_majors ..) hi)⟩

theorem slotlessInstrs_word (hi : i ∈ slotlessInstrs a o l c n k) :
    i.hasWord = true ∧ (fOp i.word).toNat ∈ [0x39, 0x3A, 0x73, 0x75, 0x78, 0x79] := by
  have hm : ∀ m ∈ ([0x39, 0x3A, 0x73, 0x73, 0x75, 0x75, 0x78, 0x79] : List (BitVec 7)),
      m.toNat ∈ [0x39, 0x3A, 0x73, 0x75, 0x78, 0x79] := by decide
  exact ⟨List.all_eq_true.mp rfl i hi, hm _ (major_mem (slotlessInstrs_majors ..) hi)⟩

theorem kernelInstrs_word (hi : i ∈ kernelInstrs a b d) :
    i.hasWord = true ∧ ((fOp i.word).toNat = 0x7C ∨ (fOp i.word).toNat = 0x7D) := by
  have hm : ∀ m ∈ (List.replicate 8 0x7C ++ List.replicate 9 0x7D : List (BitVec 7)), m.toNat = 0x7C ∨ m.toNat = 0x7D := by decide
  exact ⟨List.all_eq_true.mp rfl i hi, hm _ (major_mem (kernelInstrs_majors ..) hi)⟩

theorem bkpt_major (o : BitVec 13) : (fOp (Instr.bkpt o).word).toNat = 0x7A := congrArg _ (fOp_fmtI ..)

end

/-! The tests by the major. -/

section
variable {w : IWord}

theorem isBranch_iff : isBranch w = true ↔ 0x30 ≤ (fOp w).toNat ∧ (fOp w).toNat ≤ 0x38 := by
  simp only [isBranch, Bool.and_eq_true, decide_eq_true_eq]

theorem notInSlot_iff : notInSlot w = true ↔ (0x30 ≤ (fOp w).toNat ∧ (fOp w).toNat ≤ 0x38) ∨
    (fOp w).toNat ∈ [0x39, 0x3A, 0x73, 0x75, 0x78, 0x79] := by
  simp only [notInSlot, Bool.or_eq_true, isBranch_iff, decide_eq_true_eq, or_assoc, List.mem_cons, List.not_mem_nil, or_false]

theorem kernelWord_iff : kernelWord w = true ↔ (fOp w).toNat = 0x7C ∨ (fOp w).toNat = 0x7D ∨
    ((fOp w).toNat = 0x0B ∨ (fOp w).toNat = 0x0C) ∧ 0x100 ≤ (fImm13 w).toNat := by
  simp only [kernelWord, Bool.or_eq_true, Bool.and_eq_true, decide_eq_true_eq, or_assoc]

theorem not_spliceless {c : Nat} (h : c < 1280 ∨ (fOp w).toNat < 0x50 ∨ 0x56 < (fOp w).toNat) :
    ¬ splicelessWord c w = true := by
  rw [splicelessWord_iff]; omega

/-- A word that is no kernel's issues where its place allows it. -/
theorem decodeTrap_issues {s : State} (hs : (fOp w).toNat < 0x50 ∨ 0x56 < (fOp w).toNat) (hk : ¬ kernelWord w = true)
    (hslot : s.act.owed ≠ 0 → ¬ (notInSlot w = true ∨ atLoopEnd s.act = true))
    (hend : s.act.owed = 0 → ¬ (isBranch w = true ∧ atLoopEnd s.act = true)) : decodeTrap w s = none := by
  rw [decodeTrap_placed (not_spliceless (.inr hs)) hslot hend, if_neg fun h => hk h.1]

end

theorem delaySlotTraps : Clauses.DelaySlotTraps := by
  intro s a b d p o j l c n k bodyEnd branches
  have hend : bodyEnd ↔ atLoopEnd s.act = true := (atLoopEnd_iff s.act).symm
  have hbr : ∀ i ∈ branches, _ := fun i (hi : i ∈ branchInstrs a b d p o j) => branchInstrs_word hi
  have hsl : ∀ i ∈ slotlessInstrs a o l c n k, _ := fun i hi => slotlessInstrs_word hi
  refine ⟨fun ho => ⟨fun i hi _ => ?_, fun hb i _ hw hs => ?_, fun hb => ?_⟩,
    fun ho => ⟨fun hb i hi _ => ?_, fun hb i hi _ => ?_, fun i hi _ => ?_⟩⟩
  · rcases List.mem_append.mp hi with hi | hi
    · obtain ⟨hw, hm⟩ := hbr i hi
      exact traps_of_decodeTrap hw (decodeTrap_slot (not_spliceless (by omega)) ho (.inl (notInSlot_iff.mpr (.inl hm))))
    · obtain ⟨hw, hm⟩ := hsl i hi
      have hs : (fOp i.word).toNat < 0x50 ∨ 0x56 < (fOp i.word).toNat := by simp at hm; omega
      exact traps_of_decodeTrap hw (decodeTrap_slot (not_spliceless (.inr hs)) ho (.inl (notInSlot_iff.mpr (.inr hm))))
  · exact traps_of_decodeTrap hw (decodeTrap_slot (not_spliceless hs) ho (.inr (hend.mp hb)))
  · have hm := bkpt_major o
    refine decodeTrap_issues (by omega) (by rw [kernelWord_iff]; omega) (fun _ h => ?_) (absurd · ho)
    exact h.elim (fun h => by rw [notInSlot_iff, hm] at h; simp at h) (fun h => hb (hend.mpr h))
  · obtain ⟨hw, hm⟩ := hbr i hi
    exact traps_of_decodeTrap hw (decodeTrap_bodyEnd (not_spliceless (by omega)) ho (isBranch_iff.mpr hm) (hend.mp hb))
  · obtain ⟨hw, hm⟩ := hbr i hi
    exact decodeTrap_issues (by omega) (by rw [kernelWord_iff]; omega) (absurd ho ·) fun _ h => hb (hend.mpr h.2)
  · have hm : (fOp i.word).toNat ∈ [0x39, 0x3A, 0x73, 0x75, 0x78, 0x79, 0x7A] := by
      rcases List.mem_append.mp (show i ∈ slotlessInstrs a o l c n k ++ [.bkpt o] from hi) with hi | hi
      · exact List.mem_append_left [0x7A] (hsl i hi).2
      · obtain rfl := List.mem_singleton.mp hi
        rw [bkpt_major]; decide
    simp at hm
    exact decodeTrap_issues (by omega) (by rw [kernelWord_iff]; omega) (absurd ho ·) fun _ h => by
      rw [isBranch_iff] at h; omega

/-- A system register's word is a kernel's where its number is 0x100 or above (11 R180). -/
theorem kernelWord_sysReg {r : SysReg} {a d : SReg} (h : 0x100 ≤ r.num.toNat) {i : Instr} (hi : i ∈ [Instr.sysr d r, .sysw r a]) :
    i.hasWord = true ∧ (fOp i.word).toNat < 0x30 ∧ kernelWord i.word = true := by
  have sysWord {op : BitVec 7} {a d : SReg} (hop : op.toNat = 0x0B ∨ op.toNat = 0x0C) :
      (fOp (fmtI r.num a d op)).toNat < 0x30 ∧ kernelWord (fmtI r.num a d op) = true := by
    rw [kernelWord_iff, fOp_fmtI, fImm13_fmtI]
    exact ⟨by omega, .inr (.inr ⟨hop, h⟩)⟩
  rcases List.mem_pair.mp hi with rfl | rfl
  · exact ⟨rfl, sysWord (.inl rfl)⟩
  · exact ⟨rfl, sysWord (.inr rfl)⟩

theorem privilegeTraps : Clauses.PrivilegeTraps := by
  intro s d a b r ho i hi
  have hword : i.hasWord = true ∧ ((fOp i.word).toNat < 0x30 ∨ 0x7C ≤ (fOp i.word).toNat) ∧ kernelWord i.word = true := by
    rcases List.mem_append.mp hi with hi | hi
    · obtain ⟨hw, hm⟩ := kernelInstrs_word (show i ∈ kernelInstrs a b d from hi)
      exact ⟨hw, by omega, kernelWord_iff.mpr (hm.imp_right .inl)⟩
    · split at hi
      next h =>
        obtain ⟨hw, hm, hk⟩ := kernelWord_sysReg h hi
        exact ⟨hw, .inl hm, hk⟩
      · cases hi
  obtain ⟨hw, hm, hk⟩ := hword
  have placed := decodeTrap_placed (w := i.word) (s := s) (not_spliceless (by omega)) (absurd ho ·) fun _ h => by
    rw [isBranch_iff] at h; omega
  refine ⟨fun hu => traps_of_decodeTrap hw ?_, fun hu => ?_⟩
  · rw [placed, if_pos ⟨hk, hu⟩]
  · rw [Issues, placed, if_neg fun h => by simp [hu] at h]

/-- Settles O13: the tests in their order, by the major of the word and its place. -/
theorem issueTraps : Obligations.IssueTraps := ⟨delaySlotTraps, privilegeTraps⟩

end Sys2Proof.Machine
end

section
/-!
A predicated write of lanes (11 R179, 09 R142), and the tag tests of the operations on two sources (11 R178, 15 R229).
-/
namespace Sys2Proof.Machine

/-! Lanes packed and read back. -/

/-- The number whose bits are lanes of `w` bits, lane 0 lowest. -/
def packNat (w : Nat) (l : List Nat) : Nat := l.foldr (fun x acc => x % 2 ^ w + 2 ^ w * acc) 0

theorem packLanes_eq (w : Nat) (l : List Nat) : packLanes w l = BitVec.ofNat 128 (packNat w l) := rfl

theorem packNat_cons (w x : Nat) (l : List Nat) : packNat w (x :: l) = x % 2 ^ w + 2 ^ w * packNat w l := rfl

theorem packNat_lt (w : Nat) (l : List Nat) : packNat w l < 2 ^ (w * l.length) := by
  induction l with
  | nil => exact Nat.one_pos
  | cons x l ih =>
    have hx : x % 2 ^ w < 2 ^ w := Nat.mod_lt _ (Nat.two_pow_pos w)
    rw [packNat_cons, List.length_cons, Nat.mul_succ, Nat.add_comm (w * l.length), Nat.pow_add]
    have hstep : 2 ^ w * (packNat w l + 1) ≤ 2 ^ w * 2 ^ (w * l.length) := Nat.mul_le_mul_left _ ih
    linarith

theorem packNat_lane (w : Nat) (l : List Nat) {j : Nat} (h : j < l.length) : packNat w l / 2 ^ (w * j) % 2 ^ w = l[j] % 2 ^ w := by
  induction l generalizing j with
  | nil => cases h
  | cons x l ih =>
    cases j with
    | zero => simp [packNat_cons, Nat.add_mul_mod_self_left]
    | succ j =>
      have hx : x % 2 ^ w < 2 ^ w := Nat.mod_lt _ (Nat.two_pow_pos w)
      rw [packNat_cons, Nat.mul_succ, Nat.add_comm (w * j), Nat.pow_add, ← Nat.div_div_eq_div_mul,
        Nat.add_mul_div_left _ _ (Nat.two_pow_pos w), Nat.div_eq_of_lt hx, Nat.zero_add, List.getElem_cons_succ]
      exact ih (Nat.lt_of_succ_lt_succ h)

theorem tag_bits_le (t : Tag) : tagWidth t * tagLanes t ≤ 128 := by cases t <;> decide

/-- Lanes packed under a tag fit the register. -/
theorem packLanes_toNat {t : Tag} {l : List Nat} (h : l.length = tagLanes t) :
    (packLanes (tagWidth t) l).toNat = packNat (tagWidth t) l := by
  have hlt : packNat (tagWidth t) l < 2 ^ 128 :=
    (packNat_lt _ _).trans_le (Nat.pow_le_pow_right Nat.two_pos (h ▸ tag_bits_le t))
  rw [packLanes_eq, BitVec.toNat_ofNat, Nat.mod_eq_of_lt hlt]

theorem lane_packLanes {t : Tag} {l : List Nat} (h : l.length = tagLanes t) {j : Nat} (hj : j < l.length) :
    lane t (packLanes (tagWidth t) l) j = l[j] % 2 ^ tagWidth t := by
  rw [lane, packLanes_toNat h, Nat.shiftRight_eq_div_pow, packNat_lane _ _ hj]

/-! The results of the lanes. -/

section
variable (p : BitVec 32) (old : Quad) (t : Tag) (f : Nat → Nat × Nat)

theorem laneResults_length : (laneResults p old t f).length = tagLanes t := by simp [laneResults, upto]

theorem laneResults_getElem {j : Nat} (h : j < (laneResults p old t f).length) :
    (laneResults p old t f)[j] = if p.getLsbD j then f j else (lane t old j, 0) := by
  simp [laneResults, upto]

/-- A bit of the flags of a list's elements together is set where it is set of one of them. -/
theorem testBit_foldl_or (l : List (Nat × Nat)) (acc k : Nat) :
    (l.foldl (fun acc (x : Nat × Nat) => acc ||| x.2) acc).testBit k = true ↔
      acc.testBit k = true ∨ ∃ x : Nat × Nat, x ∈ l ∧ x.2.testBit k = true := by
  induction l generalizing acc with
  | nil => simp
  | cons x l ih => rw [List.foldl_cons, ih, Nat.testBit_or, Bool.or_eq_true, List.exists_mem_cons_iff, or_assoc]

/-- The flags of the results are those of the enabled lanes. -/
theorem laneResults_flags (k : Nat) :
    ((laneResults p old t f).foldl (fun acc (x : Nat × Nat) => acc ||| x.2) 0).testBit k = true ↔
      ∃ j, j < tagLanes t ∧ p.getLsbD j = true ∧ (f j).2.testBit k = true := by
  rw [testBit_foldl_or, Nat.zero_testBit]
  simp only [Bool.false_eq_true, false_or, laneResults, upto, List.mem_map, List.mem_range, exists_exists_and_eq_and]
  refine exists_congr fun j => and_congr_right fun _ => ?_
  split
  · simp [*]
  · simp [*]

end

/-! The registers after the write. -/

/-- Flags raised are bits added to FSTAT, and nothing else. -/
theorem raiseFlags_eq (s : State) (n : Nat) :
    raiseFlags s n = s.modRegs fun r => { r with fstat := r.fstat ||| BitVec.ofNat 64 n } := by
  unfold raiseFlags
  split
  next h => subst h; simp [State.modRegs]
  · rfl

section
variable (s : State) (p : PNum) (vd : VNum) (t : Tag) (f : Nat → Nat × Nat)

/-- The lanes and their flags in `writeLanes`. -/
def lanesOf : List (Nat × Nat) := laneResults (s.getP p) (s.getV vd).bits t f

theorem lanesOf_length : (lanesOf s p vd t f).length = tagLanes t := laneResults_length ..

theorem lanesOf_fst {j : Nat} (h : j < (lanesOf s p vd t f).length) :
    (lanesOf s p vd t f)[j].1 = if (s.getP p).getLsbD j then (f j).1 else lane t (s.getV vd).bits j := by
  refine (congrArg Prod.fst (laneResults_getElem _ _ _ _ h)).trans ?_
  rw [apply_ite Prod.fst]

theorem writeLanes_eq : writeLanes s p vd t f =
    (s.setV vd { bits := packLanes (tagWidth t) ((lanesOf s p vd t f).map fun x => x.1), tag := t }).modRegs fun r =>
      { r with fstat := r.fstat ||| BitVec.ofNat 64 ((lanesOf s p vd t f).foldl (fun acc x => acc ||| x.2) 0) } :=
  raiseFlags_eq ..

theorem getV_writeLanes (r : VNum) : (writeLanes s p vd t f).getV r =
    if r = vd then { bits := packLanes (tagWidth t) ((lanesOf s p vd t f).map fun x => x.1), tag := t } else s.getV r := by
  rw [writeLanes_eq]; exact State.getV_setV ..

theorem fstat_writeLanes : (writeLanes s p vd t f).act.regs.fstat =
    s.act.regs.fstat ||| BitVec.ofNat 64 ((lanesOf s p vd t f).foldl (fun acc x => acc ||| x.2) 0) := by
  rw [writeLanes_eq]; rfl

end

theorem vectorLaneWrites : Clauses.VectorLaneWrites := by
  intro s p vd t f u on
  have hlen : ((lanesOf s p vd t f).map fun x => x.1).length = tagLanes t := by rw [List.length_map, lanesOf_length]
  have hvd : u.getV vd = _ := (getV_writeLanes s p vd t f vd).trans (if_pos rfl)
  have hu : u = _ := writeLanes_eq s p vd t f
  rw [hvd]
  refine ⟨rfl, ?_, fun j hj => ?_, fun k hk => ?_, fun r hr => (getV_writeLanes s p vd t f r).trans (if_neg hr), fun r => ?_,
    fun r => ?_, ?_, ?_, ?_⟩
  · rw [packLanes_toNat hlen, ← hlen]; exact packNat_lt ..
  · rw [lane_packLanes hlen (hlen ▸ hj), List.getElem_map, lanesOf_fst]
    split
    · rfl
    · exact Nat.mod_mod _ _
  · rw [fstat_writeLanes, BitVec.getLsbD_or, Bool.or_eq_true, BitVec.getLsbD_ofNat, decide_eq_true hk, Bool.true_and, lanesOf,
      laneResults_flags]
  all_goals rw [hu]; rfl

/-! The tag tests. -/

theorem pairTrap_ne {t u : Tag} (h : t ≠ u) :
    pairTrap t u = some (.tagMismatch, BitVec.ofNat 64 (t.code.toNat + 16 * u.code.toNat)) := by
  have hw : ∀ a b : BitVec 4, at_ a.toNat 0 ||| at_ b.toNat 4 = BitVec.ofNat 64 (a.toNat + 16 * b.toNat) := by decide
  rw [pairTrap, if_neg h, hw]

theorem acceptTrap_false (t : Tag) : acceptTrap false t = some (.tagMismatch, t.code.zeroExtend 64) := by
  have hw : ∀ c : BitVec 4, at_ c.toNat 0 = c.zeroExtend 64 := by decide
  rw [acceptTrap, if_neg Bool.false_ne_true, hw]

@[simp] theorem pairTrap_self (t : Tag) : pairTrap t t = none := if_pos rfl

section
variable {s : State} {p : PNum} {r vd : VNum} {t : Tag}

theorem noneTrap_none (h : (s.getV r).tag = .none) : noneTrap s r = some (.tagNone, r.zeroExtend 64) := if_pos h
theorem noneTrap_tagged (h : (s.getV r).tag ≠ .none) : noneTrap s r = none := if_neg h

theorem predNone_pass (h : p = 0 ∨ (s.getV vd).tag ≠ .none) : predNone s p vd = none := by
  unfold predNone
  split
  · rfl
  next hp => exact noneTrap_tagged (h.resolve_left hp)

theorem predPair_pass (h : p = 0 ∨ (s.getV vd).tag = t) : predPair s p vd t = none := by
  unfold predPair
  split
  · rfl
  next hp => rw [h.resolve_left hp, pairTrap_self]

end

/-- The tests of an operation on two sources, in R178's order. -/
def binaryTests (s : State) (p : PNum) (vd va vb : VNum) (ok : Tag → Bool) : List (Option TrapVal) :=
  [noneTrap s va, noneTrap s vb, predNone s p vd, pairTrap (s.getV va).tag (s.getV vb).tag, predPair s p vd (s.getV va).tag,
    acceptTrap (ok (s.getV va).tag) (s.getV va).tag]

theorem guarded_trap {l : List (Option TrapVal)} {f : Unit → Eff} {c : Cause} {v : Word} (h : firstTrap l = some (c, v)) :
    guarded l f = .trap c v := by
  rw [guarded, h]

theorem vecBinary_trap {i : Instr} {s : State} {p : PNum} {vd va vb : VNum} {ok : Tag → Bool}
    {f : Tag → RMode → Nat → Nat → Nat × Nat}
    {c : Cause} {v : Word} (hi : Issues i s) (h : firstTrap (binaryTests s p vd va vb ok) = some (c, v)) :
    vecBinary i s p vd va vb ok f = .next (takeTrap s c v) :=
  issue_trap hi (guarded_trap h)

theorem code_rejected {t : Tag} (h : t ∈ [Tag.c8, .c6, .c4]) : t ≠ .none ∧ intFlt t = false := by
  revert t; decide

/-- The operations on two sources that take INT and FLT tags, each as `vecBinary`. -/
theorem vectorTagTraps : Clauses.VectorTagTraps := by
  intro p vd va vb s t u d two
  have rule : ∀ i f, exec i s = vecBinary i s p vd va vb intFlt f → Issues i s →
      (t = .none → Traps i s .tagNone (va.zeroExtend 64)) ∧
      (t ≠ .none → u = .none → Traps i s .tagNone (vb.zeroExtend 64)) ∧
      (t ≠ .none → u ≠ .none → p ≠ 0 → d = .none → Traps i s .tagNone (vd.zeroExtend 64)) ∧
      (t ≠ .none → u ≠ .none → (p = 0 ∨ d ≠ .none) → t ≠ u → Traps i s .tagMismatch (two t u)) ∧
      (t ≠ .none → u = t → p ≠ 0 → d ≠ .none → d ≠ t → Traps i s .tagMismatch (two t d)) ∧
      (t ∈ [Tag.c8, .c6, .c4] → u = t → (p = 0 ∨ d = t) → Traps i s .tagMismatch (t.code.zeroExtend 64)) := by
    intro i f he hi
    have traps : ∀ {c v}, firstTrap (binaryTests s p vd va vb intFlt) = some (c, v) → Traps i s c v :=
      fun h => he.trans (vecBinary_trap hi h)
    refine ⟨fun ht => traps ?_, fun ht hu => traps ?_, fun ht hu hp hd => traps ?_, fun ht hu hp hne => traps ?_,
      fun ht hu hp hd hne => traps ?_, fun ht hu hp => traps ?_⟩
    · rw [binaryTests, noneTrap_none ht, firstTrap_some_cons]
    · rw [binaryTests, noneTrap_tagged ht, noneTrap_none hu]; rfl
    · rw [binaryTests, noneTrap_tagged ht, noneTrap_tagged hu, predNone, if_neg hp, noneTrap_none hd]; rfl
    · rw [binaryTests, noneTrap_tagged ht, noneTrap_tagged hu, predNone_pass hp, pairTrap_ne hne]; rfl
    · have hvb : (s.getV vb).tag = (s.getV va).tag := hu
      rw [binaryTests, noneTrap_tagged ht, noneTrap_tagged (hvb ▸ ht), predNone_pass (.inr hd), hvb, pairTrap_self, predPair, if_neg hp,
        pairTrap_ne (Ne.symm hne)]
      rfl
    · have hvb : (s.getV vb).tag = (s.getV va).tag := hu
      obtain ⟨ht0, hok⟩ := code_rejected ht
      have hd : p = 0 ∨ (s.getV vd).tag ≠ .none := hp.imp_right fun (h : (s.getV vd).tag = _) => h ▸ ht0
      rw [binaryTests, noneTrap_tagged ht0, noneTrap_tagged (hvb ▸ ht0), predNone_pass hd, hvb, pairTrap_self,
        predPair_pass hp, hok, acceptTrap_false]
      rfl
  simp only [List.forall_mem_cons, List.not_mem_nil, false_implies, implies_true, and_true]
  exact ⟨rule _ _ (show execVadd p vd va vb s = _ from rfl),
    rule _ _ (show execVsub p vd va vb s = _ from rfl),
    rule _ _ (show execVmul p vd va vb s = _ from rfl),
    rule _ _ (show execVmin p vd va vb s = _ from rfl),
    rule _ _ (show execVmax p vd va vb s = _ from rfl),
    rule _ _ (show execVdif p vd va vb s = _ from rfl),
    rule _ _ (show execVand p vd va vb s = _ from rfl),
    rule _ _ (show execVor p vd va vb s = _ from rfl),
    rule _ _ (show execVxor p vd va vb s = _ from rfl),
    rule _ _ (show execVandn p vd va vb s = _ from rfl),
    rule _ _ (show execVdiv p vd va vb s = _ from rfl)⟩

/-- Settles O33: the lanes written are read back, and the tag tests answer in R178's order. -/
theorem vectorLanes : Obligations.VectorLanes := ⟨vectorLaneWrites, vectorTagTraps⟩

end Sys2Proof.Machine
end

section
/-!
Taking a trap (11 R184 R187, 21 R307 R308 R310 R317, 27 R370): the ways `takeTrap` goes, what parking and a debug hit leave of
the activation, and the words and the header of the trap message.
-/
namespace Sys2Proof.Machine

/-! Fields of a word side by side, the higher ones first. -/

/-- A field of `w` bits joins the ones above it. -/
theorem ofNat_or_at {y w : Nat} (x j : Nat) (h : y < 2 ^ w) :
    BitVec.ofNat 64 (x * 2 ^ (j + w)) ||| at_ y j = BitVec.ofNat 64 ((x * 2 ^ w + y) * 2 ^ j) := by
  have hor : x * 2 ^ w ||| y = x * 2 ^ w + y := by
    rw [← Nat.shiftLeft_eq, Nat.shiftLeft_add_eq_or_of_lt h]
  have hshift : x * 2 ^ (j + w) = (x * 2 ^ w) <<< j := by rw [Nat.shiftLeft_eq, Nat.pow_add]; ring
  rw [at_, ← BitVec.ofNat_or, hshift, ← Nat.shiftLeft_or_distrib, hor, Nat.shiftLeft_eq]

theorem flag_lt (b : Bool) : flag b < 2 ^ 1 := by cases b <;> decide

theorem designator_eq (c : Nat) {k : Nat} (hk : k < 64) : designator c k = BitVec.ofNat 64 (c * 2 ^ 6 + k) := by
  have h := ofNat_or_at (w := 6) c 0 hk
  rw [designator, BitVec.or_comm]
  simpa [at_, Nat.shiftLeft_eq] using h

theorem code_lt (c : Cause) : c.code < 2 ^ 8 := by cases c <;> decide

theorem bitsOf_ofNat_of_lt {x n : Nat} (h : x < 2 ^ (n + 1)) (hn : n < 64) : bitsOf (BitVec.ofNat 64 x) n 0 = x := by
  have h64 : x < 2 ^ 64 := h.trans_le (Nat.pow_le_pow_right (by decide) hn)
  rw [bitsOf, BitVec.toNat_ofNat, Nat.mod_eq_of_lt h64, Nat.shiftRight_zero, Nat.sub_zero, Nat.mod_eq_of_lt h]

theorem flag_mul (b : Bool) (n : Nat) : flag b * n = if b then n else 0 := by cases b <;> simp [flag]

/-- The words of a trap message (21 R310), the first as the sum of its fields. -/
theorem trapWords_eq {s : State} {c k : Nat} {a : Act} {owed code : Nat} (second : Bool) (hactor : a.actor.getD 0 < 16)
    (htag : a.tag < 16) (hprio : a.prio < 4) (howed : owed < 4) (heds : a.regs.eds = BitVec.ofNat 64 owed)
    (hcode : code < 2 ^ 8) (hcause : a.regs.ecause = BitVec.ofNat 64 code) (hk : k < 64) : trapWords s c k a second =
      [BitVec.ofNat 64 (a.dom * 2 ^ 24 + a.tag * 2 ^ 20 + a.actor.getD 0 * 2 ^ 16 + a.prio * 2 ^ 14
        + flag a.kernel * 2 ^ 13 + flag a.actor.isNone * 2 ^ 12 + flag second * 2 ^ 11 + owed * 2 ^ 8 + code),
       a.regs.epc, a.regs.eval, a.regs.ebt, BitVec.ofNat 64 (c * 2 ^ 6 + k), a.s5, BitVec.ofNat 64 s.time] := by
  have hb : bitsOf a.regs.eds 1 0 = owed := by rw [heds]; exact bitsOf_ofNat_of_lt howed (by decide)
  have he : bitsOf a.regs.ecause 7 0 = code := by rw [hcause]; exact bitsOf_ofNat_of_lt hcode (by decide)
  have howed3 : owed < 2 ^ 3 := by omega
  have h24 : at_ a.dom 24 = BitVec.ofNat 64 (a.dom * 2 ^ (20 + 4)) := by rw [at_, Nat.shiftLeft_eq]
  rw [trapWords, designator_eq c hk, hb, he, h24, ofNat_or_at (w := 4) _ 20 htag, ofNat_or_at (w := 4) _ 16 hactor,
    ofNat_or_at (w := 2) _ 14 hprio, ofNat_or_at _ 13 (flag_lt _), ofNat_or_at _ 12 (flag_lt _), ofNat_or_at _ 11 (flag_lt _),
    ofNat_or_at _ 8 howed3, ofNat_or_at _ 0 hcode]
  congr 2
  ring

/-! The trap message: what enters the network before it leaves its entry alone. -/

theorem ReportsOnly.live {s t : State} (h : ReportsOnly s t) : t.live = s.live := by rw [h.rest]
theorem ReportsOnly.selected {s t : State} (h : ReportsOnly s t) : t.core = s.core := by rw [h.rest]
theorem ReportsOnly.slot {s t : State} (h : ReportsOnly s t) : t.slot = s.slot := by rw [h.rest]
theorem ReportsOnly.time {s t : State} (h : ReportsOnly s t) : t.time = s.time := by rw [h.rest]

theorem AccessOnly.endpoint {s t : State} (h : AccessOnly s t) (c i : Nat) : endpoint t c i = endpoint s c i := by
  rw [Machine.endpoint, h.core c]; rfl

theorem chargeNotice_access (s : State) (p : Place) : AccessOnly s (chargeNotice s p) := chargeDevice_access ..

theorem raise_endpoint (s : State) (w : Waiting) (c i : Nat) : endpoint (raise s w) c i = endpoint s c i := by
  simp only [raise]
  split
  · split
    · rfl
    · exact ((chargeNotice_access s (epPlace (deviceEndpoint s w.kernel w.homeless))).endpoint c i :)
  · rfl

theorem route_endpoint (s : State) (o : Outgoing) (c i : Nat) : endpoint (route s o) c i = endpoint s c i := by
  simp only [route, toPort]
  split
  · split
    · rfl
    · exact raise_endpoint ..
  · split
    · rfl
    · split <;> rfl

theorem injectNext_endpoint (s : State) (b c i : Nat) : endpoint (injectNext s b) c i = endpoint s c i := by
  unfold injectNext
  split
  · rfl
  · rw [route_endpoint]
    simp only [endpoint, State.modCore_eq, State.getCore_setCore]
    split
    · next h => subst h; rfl
    · rfl

theorem injectMany_endpoint (s : State) (b n c i : Nat) : endpoint (injectMany s b n) c i = endpoint s c i := by
  induction n generalizing s with
  | zero => rfl
  | succ n ih => exact (ih _).trans (injectNext_endpoint ..)

theorem injectBefore_endpoint (s : State) (b j c i : Nat) : endpoint (injectBefore s b j) c i = endpoint s c i := by
  unfold injectBefore
  dsimp only
  split
  · exact injectMany_endpoint ..
  · rfl

theorem trapRelease_endpoint (s : State) (b d : Nat) (e : Word) (c i : Nat) :
    endpoint (trapRelease s b d e) c i = endpoint s c i := by
  unfold trapRelease
  split
  · rfl
  · exact (release_access s _ _ _).endpoint c i

/-- A message of the device's through an entry that names a core of this package enters the network last (03 R41 R45). -/
theorem deviceSend_flight {s : State} {c i : Nat} {e : Word} (he : endpoint s c i = e) (hpkg : epPkg e = 0)
    (hhost : epCore e ≠ 4095) (hsec : epCore e ≠ 4090) (sdom score payer meter : Nat) (ws : List Word) :
    ∃ before m, (deviceSend s c i sdom score payer meter ws).flight = before ++ [m] ∧ m.dom = epDom e ∧ m.core = epCore e ∧
      m.actor = epActor e ∧ m.tag = epTag e ∧ m.words = ws.take (epLen e) := by
  simp only [deviceSend, deviceSendAt, makeMsg, injectBefore_endpoint, he, route, hpkg, hhost, hsec, ne_eq,
    not_true_eq_false, if_false]
  exact ⟨_, _, rfl, rfl, rfl, rfl, rfl, rfl⟩

/-! Parking. -/

/-- The record of an activation that parks, before its message goes out. -/
def parking (a : Act) : Act :=
  { a with status := .parked, wait := none, saving := none, halt := .none, noBreak := false }

/-- The record of a parked activation, told who may answer its trap (21 R310). -/
def parkedAs (a : Act) (kernel : Nat) (out : Bool) : Act := { parking a with trapKernel := kernel, trapOut := out }

/-- A trap of the activation has a kernel that hears of it, or needs none because its domain is halted (21 R308 R313). -/
def TrapServed (s : State) (a : Act) : Prop :=
  (s.getDom a.dom).halted = true ∨ trapEntry s s.core a ≠ none ∨ isTenant a.dom = true

section
variable {s : State} {a : Act}

theorem modAct_selected (hl : s.live = true) (f : Act → Act) : s.modAct s.core s.slot f = { s with act := f s.act } := by
  simp [State.modAct, State.findAct, State.putAct, hl]

/-- The trap message of the selected activation changes of it only what tells who may answer. -/
theorem sendTrap_reports (hl : s.live = true) (hs : TrapServed s s.act) : ∃ n o,
    ReportsOnly { s with act := { s.act with trapKernel := n, trapOut := o } } (sendTrap s s.core s.slot s.act) := by
  unfold sendTrap
  split
  · exact ⟨s.act.trapKernel, s.act.trapOut, .refl s⟩
  · next hhalt =>
    split
    · simp only [modAct_selected hl]
      exact ⟨_, _, (trapRelease_reports ..).trans (deviceSend_reports ..)⟩
    · next hentry =>
      have ht : isTenant s.act.dom = true := by
        rcases hs with h | h | h
        · exact absurd h hhalt
        · exact absurd hentry h
        · exact h
      simp only [if_pos ht, modAct_selected hl]
      exact ⟨_, s.act.trapOut, (trapRelease_reports ..).trans (notice_reports ..)⟩

/-- No request dumps a parked activation but one that is not for its quota (21 R315). -/
theorem dumpParked_quota {t : State} {c k : Nat} {b : Act} (h : t.findAct c k = some b)
    (hq : ∀ p, b.preempt = some p → p.why = .quota) : dumpParked t c k = t := by
  simp only [dumpParked, h]
  split
  · next p hp => exact if_pos (hq p hp)
  · rfl

variable (hl : s.live = true) (hstep : a.halt ≠ .step) (hq : ∀ p, a.preempt = some p → p.why = .quota) (hs : TrapServed s a)
include hl hstep hq hs

/-- Parking is the trap message of the record as it parks. -/
theorem park_eq : park s a = sendTrap { s with act := parking a } s.core s.slot (parking a) := by
  obtain ⟨n, o, hr⟩ := sendTrap_reports (s := { s with act := parking a }) hl hs
  have hfind : (sendTrap { s with act := parking a } s.core s.slot (parking a)).findAct s.core s.slot = some (parkedAs a n o) := by
    rw [hr.findAct]; simp [State.findAct, hl, parkedAs, parking]
  have hdump := dumpParked_quota hfind hq
  unfold park
  rw [if_neg hstep]
  exact hdump

theorem park_reports : ∃ n o, ReportsOnly { s with act := parkedAs a n o } (park s a) := by
  rw [park_eq hl hstep hq hs]
  exact sendTrap_reports (s := { s with act := parking a }) hl hs

/-- What a parked activation keeps of its record, and the state of its place. -/
theorem park_leaves : (park s a).live = true ∧ (park s a).core = s.core ∧ (park s a).slot = s.slot ∧
    ∃ n o, (park s a).act = parkedAs a n o := by
  obtain ⟨n, o, hr⟩ := park_reports hl hstep hq hs
  exact ⟨hr.live.trans hl, hr.selected, hr.slot, n, o, hr.act⟩

end

/-- The trap message of a parking activation goes to the kernel that its entry names, with the payload of R310. -/
theorem park_message {s : State} {a : Act} {i : Nat} (hl : s.live = true) (hstep : a.halt ≠ .step)
    (hq : ∀ p, a.preempt = some p → p.why = .quota) (hh : (s.getDom a.dom).halted = false) (he : trapEntry s s.core a = some i)
    (hpkg : epPkg (endpoint s s.core i) = 0) (hhost : epCore (endpoint s s.core i) ≠ 4095)
    (hsec : epCore (endpoint s s.core i) ≠ 4090) :
    ∃ before m, (park s a).flight = before ++ [m] ∧ m.dom = epDom (endpoint s s.core i) ∧
      m.core = epCore (endpoint s s.core i) ∧ m.actor = epActor (endpoint s s.core i) ∧ m.tag = epTag (endpoint s s.core i) ∧
      m.words = (trapWords s s.core s.slot a (decide (i = 254))).take (epLen (endpoint s s.core i)) := by
  rw [park_eq hl hstep hq (.inr (.inl (by rw [he]; exact Option.some_ne_none i)))]
  have hnot : (({ s with act := parking a } : State).getDom (parking a).dom).halted ≠ true := by
    intro h; exact Bool.false_ne_true (hh.symm.trans h)
  have hentry : trapEntry { s with act := parking a } s.core (parking a) = some i := he
  have hmod := modAct_selected (s := { s with act := parking a }) hl
  simp only [sendTrap, if_neg hnot, hentry]
  dsimp only at hmod
  rw [hmod]
  generalize hu : trapRelease _ _ _ _ = u
  have hep : endpoint u s.core i = endpoint s s.core i := by rw [← hu, trapRelease_endpoint]; rfl
  have htime : u.time = s.time := by rw [← hu, (trapRelease_reports ..).time]
  have hwords : trapWords u s.core s.slot (parking a) (decide (i = 254)) = trapWords s s.core s.slot a (decide (i = 254)) := by
    simp only [trapWords, htime, parking]
  rw [hwords]
  exact deviceSend_flight hep hpkg hhost hsec ..

/-! A debug hit. -/

theorem tabFind_ne_none_of_mem {α : Type} {t : Tab α} {x : Nat × α} (h : x ∈ t) : tabFind t x.1 ≠ none := by
  induction t with
  | nil => simp at h
  | cons y t ih =>
    obtain ⟨k, b⟩ := y
    rw [tabFind]
    split
    · exact Option.some_ne_none b
    · next hne =>
      rcases List.mem_cons.mp h with rfl | hm
      · exact absurd rfl hne
      · exact ih hm

/-- The part of a state that says which activation has the turn, and its record. -/
def turnOf (s : State) : Bool × Nat × Nat × Act := (s.live, s.core, s.slot, s.act)

theorem turnOf_putAct_other {s : State} {c k : Nat} {b : Act} (h : 64 * c + k ≠ 64 * s.core + s.slot) :
    turnOf (s.putAct c k b) = turnOf s := by
  simp [State.putAct, h, turnOf]

/-- The change that a hold makes of one listed activation. -/
def holdOne (d g : Nat) (s : State) (x : Nat × Nat × Act) : State :=
  if decide (x.2.2.dom = d) && decide (clusterOf x.1 = g) && decide (x.2.2.status = .running) && decide (x.2.2.halt = .none) then
    s.putAct x.1 x.2.1 { x.2.2 with halt := .group }
  else s

/-- The grants with a group added to the holds of a domain's. -/
def holdGrants (s : State) (d g : Nat) : State :=
  match tabFind s.grants d with
  | some x => { s with grants := tabPut s.grants d { x with holds := if x.holds.contains g then x.holds else g :: x.holds } }
  | none => s

theorem holdGroup_eq (s : State) (d g : Nat) :
    holdGroup s d g = (holdGrants s d g).allActs.foldl (holdOne d g) (holdGrants s d g) := rfl

theorem holdOne_turn {s : State} {x : Nat × Nat × Act} (d g : Nat)
    (h : x.2.2.halt ≠ .none ∨ 64 * x.1 + x.2.1 ≠ 64 * s.core + s.slot) : turnOf (holdOne d g s x) = turnOf s := by
  unfold holdOne
  split
  · next hc =>
    simp only [Bool.and_eq_true, decide_eq_true_eq] at hc
    exact turnOf_putAct_other (h.resolve_left (not_not_intro hc.2))
  · rfl

theorem foldl_holdOne_turn (d g : Nat) (l : List (Nat × Nat × Act)) {s : State}
    (h : ∀ x ∈ l, x.2.2.halt ≠ .none ∨ 64 * x.1 + x.2.1 ≠ 64 * s.core + s.slot) :
    turnOf (l.foldl (holdOne d g) s) = turnOf s := by
  induction l generalizing s with
  | nil => rfl
  | cons x l ih =>
    have hx := holdOne_turn d g (h x List.mem_cons_self)
    obtain ⟨-, hcore, hslot, -⟩ : _ ∧ (holdOne d g s x).core = s.core ∧ (holdOne d g s x).slot = s.slot ∧ _ := by
      simpa only [turnOf, Prod.mk.injEq] using hx
    refine (ih fun y hy => ?_).trans hx
    rw [hcore, hslot]
    exact h y (List.mem_cons_of_mem x hy)

/-- A hold of a group halts running activations only: one that is halted keeps its record (27 R370). -/
theorem holdGroup_turn {s : State} (hslot : SlotOk s) (hl : s.live = true) (hhalt : s.act.halt ≠ .none) (d g : Nat) :
    turnOf (holdGroup s d g) = turnOf s := by
  have hu : turnOf (holdGrants s d g) = turnOf s ∧ (holdGrants s d g).allActs = s.allActs := by
    unfold holdGrants
    split <;> exact ⟨rfl, rfl⟩
  obtain ⟨hturn, hall⟩ := hu
  obtain ⟨-, hcore, hslot', -⟩ : _ ∧ (holdGrants s d g).core = s.core ∧ (holdGrants s d g).slot = s.slot ∧ _ := by
    simpa only [turnOf, Prod.mk.injEq] using hturn
  rw [holdGroup_eq, hall]
  refine (foldl_holdOne_turn d g _ fun x hx => ?_).trans hturn
  rw [hcore, hslot']
  simp only [State.allActs, hl, if_true, List.singleton_append, List.mem_cons, List.mem_map] at hx
  rcases hx with rfl | ⟨y, hy, rfl⟩
  · exact .inl hhalt
  · refine .inr fun he => tabFind_ne_none_of_mem hy ?_
    have hkey : y.1 = 64 * s.core + s.slot := by rw [← he]; exact (Nat.div_add_mod y.1 64).symm
    rw [hkey]
    exact hslot hl

theorem debugHit_reports (s : State) (grantee c k : Nat) (a : Act) (cause : Nat) (ended stalled : Bool) :
    ReportsOnly s (debugHit s grantee c k a cause ended stalled) :=
  (trapRelease_reports ..).trans (notice_reports ..)

/-! The ways of a trap. -/

section
variable {s : State} {c : Cause}

/-- A trap goes to the grantee of its domain's debugging (27 R370). -/
def Debugged (s : State) (c : Cause) : Prop := (c = .breakpoint ∨ c = .watchpoint) ∧ grantOf s s.act.dom ≠ none

theorem takeTrap_saving {run : SaveRun} (h : s.act.saving = some run) (v : Word) : takeTrap s c v =
    park s { s.act with regs := saveFaultRegs s.act.regs run c.code s.act.pc, pc := run.addr, owed := 0, btarget := 0 } := by
  simp only [takeTrap, h]

theorem takeTrap_parks (h : s.act.saving = none) (hd : ¬ Debugged s c) (v : Word) :
    takeTrap s c v = park s { s.act with regs := trapRegs s.act c v } := by
  have hg : (if (c = .breakpoint || c = .watchpoint) && s.act.halt ≠ .step then grantOf s s.act.dom else none) = none := by
    split
    · next hc =>
      simp only [Bool.and_eq_true, Bool.or_eq_true, decide_eq_true_eq] at hc
      exact not_not.mp fun hne => hd ⟨hc.1, hne⟩
    · rfl
  simp only [takeTrap, h, hg]

/-- The record that a debug hit leaves. -/
def hitAs (a : Act) (c : Cause) (v : Word) : Act :=
  { a with regs := trapRegs a c v, halt := .hit c, wait := none, noBreak := decide (c = .breakpoint) && decide (v.toNat < 256) }

theorem takeTrap_hit {g : Grant} (h : s.act.saving = none) (hc : c = .breakpoint ∨ c = .watchpoint)
    (hg : grantOf s s.act.dom = some g) (hstep : s.act.halt ≠ .step) (v : Word) : takeTrap s c v =
    debugHit (holdGroup { s with act := hitAs s.act c v } s.act.dom (clusterOf s.core)) g.grantee s.core s.slot (hitAs s.act c v)
      c.code false false := by
  have hcond : ((c = .breakpoint || c = .watchpoint) && s.act.halt ≠ .step) = true := by simp [hc, hstep]
  simp only [takeTrap, h, hcond, if_true, hg, hitAs]

theorem takeTrap_hit_leaves (h : s.act.saving = none) (hd : Debugged s c) (hstep : s.act.halt ≠ .step) (hl : s.live = true)
    (hslot : SlotOk s) (v : Word) : (takeTrap s c v).live = true ∧ (takeTrap s c v).act = hitAs s.act c v := by
  obtain ⟨g, hg⟩ := Option.ne_none_iff_exists'.mp hd.2
  rw [takeTrap_hit h hd.1 hg hstep]
  have hr := debugHit_reports (holdGroup { s with act := hitAs s.act c v } s.act.dom (clusterOf s.core)) g.grantee s.core s.slot
    (hitAs s.act c v) c.code false false
  have hturn := holdGroup_turn (s := { s with act := hitAs s.act c v }) hslot hl Halt.noConfusion s.act.dom (clusterOf s.core)
  obtain ⟨hlive, -, -, hact⟩ := by simpa only [turnOf, Prod.mk.injEq] using hturn
  exact ⟨(hr.live.trans hlive).trans hl, hr.act.trans hact⟩

end

end Sys2Proof.Machine

namespace Sys2Proof.Laws.Traps
open Machine

/-- Settles O5: a trap parks the activation or, of a debugged domain, halts it; messages, releases and holds leave its record alone,
and the trap message enters the network last. -/
theorem trapEntry : Obligations.TrapEntry := by
  unfold Obligations.TrapEntry
  intro s c v hl hslot hstep hq a t pc code debugged served regs
  refine ⟨fun hserved hsave hdebug => ?_, fun hsave hdebug hhalt i hi => ?_,
    fun run hserved hsave => ?_, fun hsave hdebug hok => ?_⟩
  · obtain ⟨hlive, hcore, hslot, n, o, hact⟩ :=
      park_leaves (s := s) (a := { a with regs := trapRegs a c v }) hl hstep hq hserved
    have ht : t = park s { a with regs := trapRegs a c v } := takeTrap_parks hsave hdebug v
    rw [ht, hact]
    exact ⟨hlive, hcore, hslot, rfl, rfl, rfl, rfl, rfl, rfl, rfl⟩
  · intro e hpkg hhost hsec hlen _ htag hactor hprio howed
    have ht : t = park s { a with regs := trapRegs a c v } := takeTrap_parks hsave hdebug v
    obtain ⟨before, m, hflight, hmdom, hmcore, hmactor, hmtag, hwords⟩ :=
      park_message (s := s) (a := { a with regs := trapRegs a c v }) hl hstep hq hhalt hi hpkg hhost hsec
    refine ⟨before, m, ht ▸ hflight, hmdom, hmcore, hmactor, hmtag, hwords.trans ?_⟩
    have hactor0 : a.actor.getD 0 < 16 := by
      cases h : a.actor with
      | none => decide
      | some n => exact hactor n h
    rw [show epLen (endpoint s s.core i) = 7 from hlen, trapWords_eq (a := { a with regs := trapRegs a c v }) (owed := a.owed)
      (decide (i = 254)) hactor0 htag hprio howed rfl (code_lt c) rfl hslot]
    simp only [flag_mul, decide_eq_true_eq, Option.isNone_iff_eq_none]
    rfl
  · obtain ⟨-, -, -, n, o, hact⟩ := park_leaves (s := s)
      (a := { a with regs := saveFaultRegs a.regs run c.code a.pc, pc := run.addr, owed := 0, btarget := 0 }) hl hstep hq hserved
    have ht : t = park s _ := takeTrap_saving hsave v
    rw [ht, hact]
    exact ⟨rfl, rfl, rfl⟩
  · obtain ⟨hlive, hact⟩ := takeTrap_hit_leaves hsave hdebug hstep hl hok v
    have ha : t.act = hitAs a c v := hact
    rw [ha]
    exact ⟨hlive, rfl, rfl, rfl, rfl, rfl⟩

end Sys2Proof.Laws.Traps
end

section
/-!
The scalar register and immediate forms (13 R204-R207): each value that the model computes, as its rule states it.
-/
namespace Sys2Proof.Machine

/-- A register form completes with any value equal to the one it computes. -/
theorem completes_regOp {i : Instr} {s : State} {d : SReg} {v w : Word} (he : exec i s = regOp i s d w) (hv : w = v) :
    Issues i s → Completes i s (s.setS d v) .seq [] := fun h => hv ▸ he.trans (regOp_done h)

/-! Two operands (13 R204). -/

section
variable (x y : Word)

theorem valSra_eq : valSra x y =
    if 64 ≤ y.toNat then (if x.toInt < 0 then BitVec.allOnes 64 else 0) else x.sshiftRight y.toNat := by
  simp only [valSra, shiftArith, BitVec.msb_eq_toInt, decide_eq_true_eq]

theorem valSlt_eq : valSlt x y = if x.toInt < y.toInt then 1 else 0 := by simp only [valSlt, boolWord, BitVec.slt_iff_toInt_lt]

theorem valSltu_eq : valSltu x y = if x.toNat < y.toNat then 1 else 0 := by simp only [valSltu, boolWord, BitVec.ult_iff_toNat_lt]

theorem valSeq_eq : valSeq x y = if x = y then 1 else 0 := by simp only [valSeq, boolWord, decide_eq_true_eq]

theorem valMin_eq : valMin x y = BitVec.ofInt 64 (min x.toInt y.toInt) := by
  simp only [valMin, BitVec.slt_iff_toInt_lt]
  split
  · next h => rw [min_eq_left h.le, BitVec.ofInt_toInt]
  · next h => rw [min_eq_right (not_lt.mp h), BitVec.ofInt_toInt]

theorem valMax_eq : valMax x y = BitVec.ofInt 64 (max x.toInt y.toInt) := by
  simp only [valMax, BitVec.slt_iff_toInt_lt]
  split
  · next h => rw [max_eq_right h.le, BitVec.ofInt_toInt]
  · next h => rw [max_eq_left (not_lt.mp h), BitVec.ofInt_toInt]

theorem valMinu_eq : valMinu x y = BitVec.ofNat 64 (min x.toNat y.toNat) := by
  simp only [valMinu, BitVec.ult_iff_toNat_lt]
  split
  · next h => rw [min_eq_left h.le, BitVec.ofNat_toNat, BitVec.setWidth_eq]
  · next h => rw [min_eq_right (not_lt.mp h), BitVec.ofNat_toNat, BitVec.setWidth_eq]

theorem valMaxu_eq : valMaxu x y = BitVec.ofNat 64 (max x.toNat y.toNat) := by
  simp only [valMaxu, BitVec.ult_iff_toNat_lt]
  split
  · next h => rw [max_eq_right h.le, BitVec.ofNat_toNat, BitVec.setWidth_eq]
  · next h => rw [max_eq_left (not_lt.mp h), BitVec.ofNat_toNat, BitVec.setWidth_eq]

/-- Bits 127 to 64 of a product are the low bits of its floored quotient by 2^64. -/
theorem mulHigh_eq (a b : Int) : mulHigh a b = BitVec.ofInt 64 (a * b / 2 ^ 64) := by
  apply BitVec.eq_of_toNat_eq
  simp only [mulHigh, BitVec.toNat_setWidth, BitVec.toNat_ushiftRight, BitVec.toNat_ofInt, Nat.shiftRight_eq_div_pow]
  omega

theorem valMulhu_eq : valMulhu x y = BitVec.ofNat 64 (x.toNat * y.toNat / 2 ^ 64) := by
  rw [valMulhu, mulHigh_eq]
  exact_mod_cast BitVec.ofInt_natCast 64 (x.toNat * y.toNat / 2 ^ 64)

theorem valDiv_eq : valDiv x y = if y = 0 then BitVec.allOnes 64
    else if x.toInt = -2 ^ 63 ∧ y.toInt = -1 then BitVec.ofInt 64 (-2 ^ 63) else BitVec.ofInt 64 (x.toInt.tdiv y.toInt) := by
  simp only [valDiv, quotS]
  split
  · rfl
  · split
    · next h => rw [h.1, h.2]; decide
    · rfl

theorem valRem_eq : valRem x y = if y = 0 then x else if x.toInt = -2 ^ 63 ∧ y.toInt = -1 then 0
    else BitVec.ofInt 64 (x.toInt - y.toInt * x.toInt.tdiv y.toInt) := by
  simp only [valRem, remS]
  split
  · rfl
  · split
    · next h => rw [h.1, h.2]; decide
    · rfl

theorem valRemu_eq : valRemu x y = if y = 0 then x else BitVec.ofNat 64 (x.toNat - y.toNat * (x.toNat / y.toNat)) := by
  simp only [valRemu, remU, Nat.mod_eq_sub_mul_div]

end

theorem aluResults : Clauses.AluResults := by
  intro d a b s x y gives
  exact ⟨completes_regOp rfl rfl, completes_regOp rfl rfl, completes_regOp rfl rfl, completes_regOp rfl rfl,
    completes_regOp rfl rfl, completes_regOp rfl rfl, completes_regOp rfl rfl, completes_regOp rfl rfl,
    completes_regOp rfl (valSra_eq x y), completes_regOp rfl rfl, completes_regOp rfl rfl,
    completes_regOp rfl (valSlt_eq x y), completes_regOp rfl (valSltu_eq x y), completes_regOp rfl (valMin_eq x y),
    completes_regOp rfl (valMax_eq x y), completes_regOp rfl (valMinu_eq x y), completes_regOp rfl (valMaxu_eq x y),
    completes_regOp rfl (valSeq_eq x y), completes_regOp rfl rfl, completes_regOp rfl (mulHigh_eq x.toInt y.toInt),
    completes_regOp rfl (valMulhu_eq x y), completes_regOp rfl (mulHigh_eq x.toInt y.toNat),
    completes_regOp rfl (valDiv_eq x y), completes_regOp rfl rfl, completes_regOp rfl (valRem_eq x y),
    completes_regOp rfl (valRemu_eq x y), completes_regOp rfl rfl, completes_regOp rfl rfl, completes_regOp rfl rfl,
    completes_regOp rfl rfl⟩

/-! One operand (13 R204). -/

theorem leadingZeros_eq (x : Word) {m n : Nat} (hn : n ≤ m) (hzero : ∀ j, m - n ≤ j → j < m → x.getLsbD j = false)
    (hone : n < m → x.getLsbD (m - 1 - n) = true) : leadingZeros x m = n := by
  induction m generalizing n with
  | zero => exact (Nat.le_zero.mp hn).symm
  | succ m ih =>
    rw [leadingZeros]
    cases n with
    | zero => exact if_pos (hone (Nat.succ_pos m))
    | succ n =>
      have htail : leadingZeros x m = n := by
        refine ih (by omega) (fun j h1 h2 => hzero j (by omega) (by omega)) fun h => ?_
        rw [show m - 1 - n = m + 1 - 1 - (n + 1) by omega]
        exact hone (by omega)
      rw [hzero m (by omega) (by omega), if_neg Bool.false_ne_true, htail, Nat.add_comm]

theorem trailingZeros_eq (x : Word) {m n : Nat} (i : Nat) (hn : n ≤ m) (hzero : ∀ j, j < n → x.getLsbD (i + j) = false)
    (hone : n < m → x.getLsbD (i + n) = true) : trailingZeros x i m = n := by
  induction m generalizing n i with
  | zero => exact (Nat.le_zero.mp hn).symm
  | succ m ih =>
    rw [trailingZeros]
    cases n with
    | zero => exact if_pos (hone (Nat.succ_pos m))
    | succ n =>
      have htail : trailingZeros x (i + 1) m = n := by
        refine ih (i + 1) (by omega) (fun j hj => ?_) fun h => ?_
        · rw [Nat.add_assoc, Nat.add_comm 1]
          exact hzero (j + 1) (by omega)
        · rw [Nat.add_assoc, Nat.add_comm 1]
          exact hone (by omega)
      have hhead : x.getLsbD i = false := hzero 0 (by omega)
      rw [hhead, if_neg Bool.false_ne_true, htail, Nat.add_comm]

theorem popCount_eq (x : Word) (n : Nat) : popCount x.toNat n = (List.range n).countP fun i => x.getLsbD i := by
  induction n with
  | zero => rfl
  | succ n ih =>
    rw [popCount, ih, List.range_succ, List.countP_append, Nat.add_comm]
    congr 1
    simp only [List.countP_singleton, BitVec.getLsbD, Nat.testBit_eq_decide_div_mod_eq, Nat.shiftRight_eq_div_pow, decide_eq_true_eq]
    split <;> omega

/-- A bit of a word that takes the bits of a list's selected elements. -/
theorem getLsbD_foldl_or {w : Nat} {p : Nat → Bool} {f : Nat → BitVec w} (l : List Nat) (acc : BitVec w) (k : Nat) :
    (l.foldl (fun acc i => if p i then acc ||| f i else acc) acc).getLsbD k =
      (acc.getLsbD k || l.any fun i => p i && (f i).getLsbD k) := by
  induction l generalizing acc with
  | nil => rw [List.foldl_nil, List.any_nil, Bool.or_false]
  | cons i l ih =>
    rw [List.foldl_cons, ih, List.any_cons]
    cases p i with
    | false => rw [if_neg Bool.false_ne_true, Bool.false_and, Bool.false_or]
    | true => rw [if_pos rfl, BitVec.getLsbD_or, Bool.true_and, Bool.or_assoc]

theorem getLsbD_at_one {i : Nat} (hi : i < 64) (k : Nat) : (at_ 1 i).getLsbD k = decide (k = i) := by
  rw [at_, BitVec.getLsbD_ofNat, Nat.one_shiftLeft, Nat.testBit_two_pow, Bool.eq_iff_iff]
  simp only [Bool.and_eq_true, decide_eq_true_eq]
  omega

theorem getLsbD_bitReverse (x : Word) {k : Nat} (hk : k < 64) : (bitReverse x).getLsbD k = x.getLsbD (63 - k) := by
  rw [bitReverse, getLsbD_foldl_or, BitVec.ofNat_eq_ofNat, BitVec.getLsbD_zero, Bool.false_or, Bool.eq_iff_iff, List.any_eq_true]
  constructor
  · rintro ⟨i, hi, h⟩
    rw [getLsbD_at_one (by omega), Bool.and_eq_true, decide_eq_true_eq] at h
    have hi : i < 64 := List.mem_range.mp hi
    rw [show 63 - k = i by omega]
    exact h.1
  · intro h
    refine ⟨63 - k, List.mem_range.mpr (by omega), ?_⟩
    rw [h, getLsbD_at_one (by omega), Bool.true_and, decide_eq_true_eq]
    omega

theorem leBytes_length (n x : Nat) : (leBytes n x).length = n := by
  induction n generalizing x with
  | zero => rfl
  | succ n ih => rw [leBytes, List.length_cons, ih]

theorem leBytes_getElem (n x : Nat) {i : Nat} (h : i < (leBytes n x).length) : (leBytes n x)[i] = BitVec.ofNat 8 (x / 2 ^ (8 * i)) := by
  induction n generalizing x i with
  | zero => exact absurd h (Nat.not_lt_zero i)
  | succ n ih =>
    cases i with
    | zero => simp only [leBytes, List.getElem_cons_zero, Nat.mul_zero, Nat.pow_zero, Nat.div_one]
    | succ i =>
      simp only [leBytes, List.getElem_cons_succ]
      rw [ih, Nat.div_div_eq_div_mul, Nat.mul_succ, Nat.add_comm, Nat.pow_add]

theorem leNat_leBytes (n x : Nat) : leNat (leBytes n x) = x % 2 ^ (8 * n) := by
  induction n generalizing x with
  | zero => rw [leBytes, leNat, Nat.mul_zero, Nat.pow_zero, Nat.mod_one]
  | succ n ih =>
    rw [leBytes, leNat, ih, BitVec.toNat_ofNat, Nat.mul_succ, Nat.pow_add, Nat.mul_comm (2 ^ (8 * n)), Nat.mod_mul]

/-- A word's bytes reversed are those of the word that lists them from the other end. -/
theorem byteSwap_eq {x v : Word} (h : ∀ i, i < 8 → v.extractLsb' (8 * i) 8 = x.extractLsb' (8 * (7 - i)) 8) : byteSwap x = v := by
  have byte (w : Word) (i : Nat) : BitVec.ofNat 8 (w.toNat / 2 ^ (8 * i)) = w.extractLsb' (8 * i) 8 := by
    rw [BitVec.extractLsb', Nat.shiftRight_eq_div_pow]
  have hrev : (leBytes 8 x.toNat).reverse = leBytes 8 v.toNat := by
    refine List.ext_getElem (by simp only [List.length_reverse, leBytes_length]) fun i h1 h2 => ?_
    rw [List.getElem_reverse, leBytes_getElem, leBytes_getElem, byte, byte, leBytes_length]
    exact (h i (by rwa [leBytes_length] at h2)).symm
  rw [byteSwap, hrev, leNat_leBytes, Nat.mod_eq_of_lt v.isLt, BitVec.ofNat_toNat, BitVec.setWidth_eq]

theorem unaryResults : Clauses.UnaryResults := by
  intro d a s x gives
  have low {n : Nat} (hn : n ≤ 64) : x.setWidth n = x.extractLsb' 0 n := BitVec.setWidth_eq_extractLsb' hn
  refine ⟨fun n hn hzero hone => completes_regOp rfl ?_, fun n hn hzero hone => completes_regOp rfl ?_, completes_regOp rfl ?_,
    fun v hv => completes_regOp rfl ?_, fun v hv => completes_regOp rfl (byteSwap_eq hv),
    completes_regOp rfl (congrArg (BitVec.signExtend 64) (low (n := 8) (by decide))),
    completes_regOp rfl (congrArg (BitVec.signExtend 64) (low (n := 16) (by decide))),
    completes_regOp rfl (congrArg (BitVec.signExtend 64) (low (n := 32) (by decide))),
    completes_regOp rfl (congrArg (BitVec.setWidth 64) (low (n := 8) (by decide))),
    completes_regOp rfl (congrArg (BitVec.setWidth 64) (low (n := 16) (by decide))),
    completes_regOp rfl (congrArg (BitVec.setWidth 64) (low (n := 32) (by decide)))⟩
  · rw [valClz, leadingZeros_eq x hn hzero hone]
  · rw [valCtz, trailingZeros_eq x 0 hn (by simpa only [Nat.zero_add] using hzero) (by simpa only [Nat.zero_add] using hone)]
  · rw [valPopc, popCount_eq]
  · exact BitVec.eq_of_getLsbD_eq fun k hk => (getLsbD_bitReverse x hk).trans (hv k hk).symm

/-! Immediates (13 R205-R207). -/

theorem immediateResults : Clauses.ImmediateResults := by
  intro d a m n u s x i gives
  have hn : ¬ 64 ≤ n.toNat := Nat.not_le.mpr n.isLt
  exact ⟨completes_regOp rfl rfl, completes_regOp rfl rfl, completes_regOp rfl rfl, completes_regOp rfl rfl,
    completes_regOp rfl (valSlt_eq x i), completes_regOp rfl (valSltu_eq x i), completes_regOp rfl (if_neg hn),
    completes_regOp rfl (if_neg hn), completes_regOp rfl (if_neg hn), completes_regOp rfl rfl, completes_regOp rfl rfl,
    completes_regOp rfl rfl⟩

/-- Settles O9: each form writes the value that the model computes, which is the one its rule states. -/
theorem scalarResults : Obligations.ScalarResults := ⟨aluResults, unaryResults, immediateResults⟩

end Sys2Proof.Machine
end

section
/-!
Control transfer and system registers (11 R180-R188, 13 R218-R228): how each word of theirs ends.
-/
namespace Sys2Proof.Machine

section
variable {i : Instr} {s u : State} {e : Eff}

/-- An instruction whose word passes its tests ends as its own effect does. -/
theorem exec_of_issued (hi : Issues i s) (he : exec i s = issued i.word s e) : exec i s = .next (finish i.word s e) := by
  rw [he, issued, show decodeTrap i.word s = none from hi]

theorem completes_of_issued {f : Flow} {ts : List Term} (hi : Issues i s) (he : exec i s = issued i.word s e)
    (hf : e = .done u f ts) : Completes i s u f ts := by
  rw [Completes, exec_of_issued hi he, hf, finish]

theorem traps_of_issued {c : Cause} {v : Word} (hi : Issues i s) (he : exec i s = issued i.word s e) (hf : e = .trap c v) :
    Traps i s c v := by
  rw [Traps, exec_of_issued hi he, hf, finish]

end

/-! Branches and jumps. -/

section
variable {i : Instr} {s : State} {target : Word}

theorem branchTo_taken (s : State) (h : target.toNat < 2 ^ 57) : branchTo s true target = .done s (.branch target) [] := by
  simp [branchTo, (high_zero_iff target).mpr h]

theorem branchTo_high (s : State) (h : 2 ^ 57 ≤ target.toNat) : branchTo s true target = .trap .pageAbsent target := by
  have hne : bitsOf target 63 57 ≠ 0 := mt (high_zero_iff target).mp (Nat.not_lt.mpr h)
  simp [branchTo, hne]

/-- How a branch ends whose condition is `taken`. -/
theorem branch_ends {b : Bool} {taken : Prop} (hi : Issues i s) (he : exec i s = issued i.word s (branchTo s b target))
    (hb : b = true ↔ taken) :
    (taken → target.toNat < 2 ^ 57 → Completes i s s (.branch target) []) ∧
    (taken → 2 ^ 57 ≤ target.toNat → Traps i s .pageAbsent target) ∧
    (¬ taken → Completes i s s (.branch (s.act.pc + 12)) []) := by
  refine ⟨fun ht hlow => ?_, fun ht hhigh => ?_, fun hn => ?_⟩
  · exact completes_of_issued hi he (by rw [hb.mpr ht, branchTo_taken s hlow])
  · exact traps_of_issued hi he (by rw [hb.mpr ht, branchTo_high s hhigh])
  · obtain rfl : b = false := Bool.not_eq_true _ ▸ mt hb.mp hn
    exact completes_of_issued hi he rfl

end

theorem not_slt_iff (x y : Word) : (!x.slt y) = true ↔ y.toInt ≤ x.toInt := by
  rw [Bool.not_eq_true', ← Bool.not_eq_true, BitVec.slt_iff_toInt_lt, not_lt]

theorem not_ult_iff (x y : Word) : (!x.ult y) = true ↔ y.toNat ≤ x.toNat := by
  rw [Bool.not_eq_true', ← Bool.not_eq_true, BitVec.ult_iff_toNat_lt, not_lt]

/-- A predicate is zero where none of its lanes is set. -/
theorem eq_zero_iff_lanes (q : BitVec 32) : q = 0 ↔ ∀ i, i < 32 → q.getLsbD i = false :=
  ⟨fun h i _ => by rw [h, BitVec.ofNat_eq_ofNat, BitVec.getLsbD_zero], fun h => BitVec.eq_of_getLsbD_eq fun i hi => by
    rw [h i hi, BitVec.ofNat_eq_ofNat, BitVec.getLsbD_zero]⟩

theorem eq_allOnes_iff_lanes (q : BitVec 32) : q = BitVec.allOnes 32 ↔ ∀ i, i < 32 → q.getLsbD i = true :=
  ⟨fun h i hi => by rw [h, BitVec.getLsbD_allOnes, decide_eq_true hi], fun h => BitVec.eq_of_getLsbD_eq fun i hi => by
    rw [h i hi, BitVec.getLsbD_allOnes, decide_eq_true hi]⟩

theorem ne_zero_iff_lane (q : BitVec 32) : q ≠ 0 ↔ ∃ i, i < 32 ∧ q.getLsbD i = true := by
  simp only [ne_eq, eq_zero_iff_lanes, not_forall, Bool.not_eq_false, exists_prop]

theorem branches : Clauses.Branches := by
  intro a b p off s x y q target branches
  exact ⟨fun hi => branch_ends hi rfl decide_eq_true_iff, fun hi => branch_ends hi rfl decide_eq_true_iff,
    fun hi => branch_ends hi rfl BitVec.slt_iff_toInt_lt, fun hi => branch_ends hi rfl (not_slt_iff x y),
    fun hi => branch_ends hi rfl BitVec.ult_iff_toNat_lt, fun hi => branch_ends hi rfl (not_ult_iff x y),
    fun hi => branch_ends hi rfl (decide_eq_true_iff.trans (ne_zero_iff_lane q)),
    fun hi => branch_ends hi rfl (decide_eq_true_iff.trans (eq_allOnes_iff_lanes q)),
    fun hi => branch_ends hi rfl (decide_eq_true_iff.trans (eq_zero_iff_lanes q))⟩

theorem word_aligned_iff (t : Word) : bitsOf t 1 0 = 0 ↔ t.toNat % 4 = 0 := by
  rw [bitsOf_eq, Nat.pow_zero, Nat.div_one]; rfl

theorem jumps : Clauses.Jumps := by
  intro d a off m s t r linked
  have low (h : r.toNat < 2 ^ 57) : ¬ bitsOf r 63 57 ≠ 0 := not_not.mpr ((high_zero_iff r).mpr h)
  have high (h : 2 ^ 57 ≤ r.toNat) : bitsOf r 63 57 ≠ 0 := mt (high_zero_iff r).mp (Nat.not_lt.mpr h)
  refine ⟨fun hi hlow => ?_, fun hi hhigh => ?_, fun hi hlow ha => ?_, fun hi hlow ha => ?_, fun hi hhigh => ?_⟩
  · exact completes_of_issued hi rfl (branchTo_taken linked hlow)
  · exact traps_of_issued hi rfl (branchTo_high linked hhigh)
  · exact completes_of_issued hi rfl ((if_neg (low hlow)).trans (if_neg (not_not.mpr ((word_aligned_iff r).mpr ha))))
  · exact traps_of_issued hi rfl ((if_neg (low hlow)).trans (if_pos (mt (word_aligned_iff r).mp ha)))
  · exact traps_of_issued hi rfl (if_pos (high hhigh))

/-! Loops. -/

/-- A LOOP at a level that an armed loop does not let nest (11 R188). -/
def LoopNests (s : State) (lvl : Bool) (len : BitVec 13) : Prop :=
  s.act.regs.lc0 ≠ 0 ∨ (lvl = true ∧ s.act.regs.lc1 ≠ 0) ∨ (lvl = false ∧ s.act.regs.lc1 ≠ 0 ∧
    ((s.act.pc + 4).toNat < s.act.regs.ls1.toNat ∨ s.act.regs.le1.toNat < (s.act.pc + 4 * len.zeroExtend 64).toNat))

section
variable {s : State} {lvl : Bool} {n : Word} {len : BitVec 13}

/-- A level armed with a count for the body from the next word to the one `len` words on (11 R188). -/
def armed (s : State) (lvl : Bool) (n : Word) (len : BitVec 13) : State :=
  let start := pcBits (s.act.pc + 4)
  let last := pcBits (s.act.pc + 4 * len.zeroExtend 64)
  if lvl then s.modRegs fun r => { r with lc1 := n, ls1 := start, le1 := last }
  else s.modRegs fun r => { r with lc0 := n, ls0 := start, le0 := last }

theorem armLoop_nests (h : LoopNests s lvl len) : armLoop s lvl n len = .trap .loopNest (if lvl then 1 else 0) := by
  simp only [armLoop, Bool.not_eq_true', BitVec.ult_iff_toNat_lt]
  exact if_pos h

theorem armLoop_skips (h : ¬ LoopNests s lvl len) (hn : n = 0) :
    armLoop s lvl n len = .done s (.goto (s.act.pc + 4 * len.zeroExtend 64 + 4)) [] := by
  simp only [armLoop, Bool.not_eq_true', BitVec.ult_iff_toNat_lt]
  exact (if_neg h).trans (if_pos hn)

theorem armLoop_arms (h : ¬ LoopNests s lvl len) (hn : n ≠ 0) :
    armLoop s lvl n len = .done (armed s lvl n len) (.goto (s.act.pc + 4)) [] := by
  simp only [armLoop, Bool.not_eq_true', BitVec.ult_iff_toNat_lt]
  refine (if_neg h).trans ((if_neg hn).trans ?_)
  cases lvl <;> rfl

end

theorem loops : Clauses.Loops := by
  intro lvl a count len s r start last pc nested rule
  have ends {i : Instr} {n : Word} (he : exec i s = issued i.word s (armLoop s lvl n len)) : rule i n := fun hi =>
    ⟨fun h => traps_of_issued hi he (armLoop_nests h), fun h hn => completes_of_issued hi he (armLoop_skips h hn),
      fun h hn hl => completes_of_issued hi he ((armLoop_arms h hn).trans (by rw [hl]; rfl)),
      fun h hn hl => completes_of_issued hi he ((armLoop_arms h hn).trans (by rw [hl]; rfl))⟩
  have hcount : (s.getS a).setWidth 32 = (s.getS a).extractLsb' 0 32 := BitVec.setWidth_eq_extractLsb' (by decide)
  exact ⟨hcount ▸ ends rfl, ends rfl⟩

/-- Settles O12: branches and jumps by what `branchTo` and their address tests answer, LOOP and LOOPI by `armLoop`. -/
theorem branchesJumpsLoops : Obligations.BranchesJumpsLoops := ⟨branches, jumps, loops⟩

/-! System registers. -/

section
variable {s : State}

theorem sysr_completes {d : SReg} {r : SysReg} {v : Word} (hv : sysRead s r = v) (hi : Issues (.sysr d r) s) :
    Completes (.sysr d r) s (s.setS d v) .seq [] := hv ▸ completes_of_issued hi rfl rfl

theorem sysw_completes {a : SReg} {r : SysReg} {u : State} (hu : sysWrite s r (s.getS a) = u) (hi : Issues (.sysw r a) s) :
    Completes (.sysw r a) s u .seq [] := hu ▸ completes_of_issued hi rfl rfl

theorem holdCore_eq (h : Word) : holdCore h = (h >>> 52).toNat := by
  rw [holdCore, bitsOf, BitVec.toNat_ushiftRight]
  have := h.isLt
  omega

theorem holdDom_eq (h : Word) : holdDom h = h.toNat / 16 % 256 := bitsOf_eq h 11 4

theorem systemReads : Clauses.SystemReads := by
  intro d s g gives
  refine ⟨sysr_completes rfl, sysr_completes rfl, sysr_completes rfl, sysr_completes rfl, sysr_completes rfl, sysr_completes rfl,
    sysr_completes rfl, sysr_completes rfl, sysr_completes rfl, sysr_completes rfl, sysr_completes rfl, sysr_completes rfl,
    sysr_completes rfl, sysr_completes rfl, sysr_completes rfl, sysr_completes rfl, sysr_completes rfl, sysr_completes rfl,
    fun hg i j => ?_, fun x hg i j => ?_⟩
  · refine ⟨sysr_completes ?_, sysr_completes ?_, sysr_completes ?_⟩
    all_goals simp only [sysRead, hg]; rfl
  · refine ⟨sysr_completes ?_, sysr_completes ?_, sysr_completes ?_⟩
    all_goals simp only [sysRead, hg, holdCore_eq]; rfl

/-- A write of HOLDC whose command field is 0 keeps every bit (27 R366). -/
theorem sysMask_holdc {w : Word} (h : w.extractLsb' 0 4 = 0) : sysMask .holdc w = w := by
  refine BitVec.eq_of_getLsbD_eq fun k hk => ?_
  have hlow : k < 4 → w.getLsbD k = false := fun h4 => by
    have hb := congrArg (fun x : BitVec 4 => x.getLsbD k) h
    simpa only [BitVec.getLsbD_extractLsb', decide_eq_true h4, Bool.true_and, Nat.zero_add, BitVec.ofNat_eq_ofNat,
      BitVec.getLsbD_zero] using hb
  have hmask : (0xF : Word).getLsbD k = decide (k < 4) := by
    rw [BitVec.ofNat_eq_ofNat, BitVec.getLsbD_ofNat, decide_eq_true hk, Bool.true_and]
    exact Nat.testBit_two_pow_sub_one 4 k
  rw [sysMask, BitVec.getLsbD_and, BitVec.getLsbD_not, hmask, decide_eq_true hk, Bool.true_and]
  by_cases h4 : k < 4
  · rw [hlow h4, Bool.false_and]
  · rw [decide_eq_false h4, Bool.not_false, Bool.and_true]

theorem sysMask_wpm (j : BitVec 2) (w : Word) : sysMask (.wpm j) w =
    (w &&& 0x300) ||| BitVec.ofNat 64 (if (w.extractLsb' 0 6).toNat ≤ 57 then (w.extractLsb' 0 6).toNat else 57) := by
  rw [sysMask, bitsOf_eq_extract, Nat.min_def]
  rfl

theorem systemWrites : Clauses.SystemWrites := by
  intro a s w pc puts
  refine ⟨sysw_completes rfl, sysw_completes rfl, sysw_completes rfl, sysw_completes rfl, sysw_completes rfl, sysw_completes rfl,
    sysw_completes rfl, sysw_completes rfl, sysw_completes rfl, sysw_completes rfl, sysw_completes rfl, sysw_completes rfl,
    fun h => sysw_completes (if_neg h), fun h => sysw_completes (if_pos h), sysw_completes rfl, sysw_completes rfl,
    sysw_completes rfl, sysw_completes rfl, fun h => sysw_completes ?_, fun h => sysw_completes ?_, fun hg i j => ?_,
    fun x hg i j => ?_⟩
  · exact (if_pos ((bitsOf_eq_zero_iff w 3 0).mpr h)).trans (by rw [sysMask_holdc h])
  · exact if_neg (mt (bitsOf_eq_zero_iff w 3 0).mp h)
  · refine ⟨sysw_completes ?_, sysw_completes ?_, sysw_completes ?_⟩
    all_goals simp only [sysWrite, hg]
  · intro h c grants size slot
    refine ⟨sysw_completes ?_, sysw_completes ?_, sysw_completes ?_⟩
    all_goals simp only [sysWrite, hg, holdCore_eq, holdDom_eq, sysMask_wpm]; rfl

end

/-- Settles O14: SYSR and SYSW complete with the value `sysRead` gives and the state `sysWrite` makes of the register's masked bits. -/
theorem systemRegisters : Obligations.SystemRegisters := ⟨systemReads, systemWrites⟩

/-- Settles O15: TRAP and BKPT answer their exceptions, ERET the return of R187. -/
theorem trapsAndReturn : Obligations.TrapsAndReturn := by
  unfold Obligations.TrapsAndReturn
  intro n s
  refine ⟨fun hi => traps_of_issued hi rfl rfl, fun hi => traps_of_issued hi rfl rfl, fun hi => ?_⟩
  have hflow : returnFlow s.act.regs = .resume s.act.regs.epc (s.act.regs.eds.extractLsb' 0 2).toNat s.act.regs.ebt := by
    rw [returnFlow, bitsOf_eq_extract]
  exact hflow ▸ completes_of_issued hi rfl rfl

end Sys2Proof.Machine
end

section
/-!
Scalar memory access (13 R208-R217): how loads, stores and the scratchpad forms end.
-/
namespace Sys2Proof.Machine

/-! Numbers and their bytes. -/

/-- A number of `n` bytes as a load extends it by its sign (13 R210). -/
theorem sextBytes_eq {n v : Nat} (h0 : 0 < n) (h8 : n ≤ 8) (hv : v < 2 ^ (8 * n)) :
    sextBytes n v = (BitVec.ofNat (8 * n) v).signExtend 64 := by
  have hnat : (BitVec.ofNat (8 * n) v).toNat = v := Nat.mod_eq_of_lt hv
  have hle : 2 ^ (8 * n) ≤ 2 ^ 64 := Nat.pow_le_pow_right (by decide) (by omega)
  refine BitVec.eq_of_toNat_eq ?_
  rw [BitVec.toNat_signExtend, BitVec.toNat_setWidth, BitVec.msb_eq_decide, hnat, sextBytes]
  by_cases h : v < 2 ^ (8 * n - 1)
  · rw [if_pos h, decide_eq_false (Nat.not_le.mpr h), if_neg Bool.false_ne_true]
    rfl
  · rw [if_neg h, decide_eq_true (Nat.not_lt.mp h), if_pos rfl, BitVec.toNat_ofNat]
    omega

/-- A byte of a number cut to `n` bytes. -/
theorem ofNat_byte_mod (x : Nat) {n j : Nat} (h : j < n) :
    BitVec.ofNat 8 (x % 2 ^ (8 * n) / 2 ^ (8 * j)) = BitVec.ofNat 8 (x / 2 ^ (8 * j)) := by
  refine BitVec.eq_of_getLsbD_eq fun k hk => ?_
  simp only [BitVec.getLsbD_ofNat, Nat.testBit_div_two_pow, Nat.testBit_mod_two_pow]
  rw [decide_eq_true (show k + 8 * j < 8 * n by omega), Bool.true_and]

/-- Bytes put together with the first one lowest (00 R4). -/
theorem toNat_append_byte {w : Nat} (hi : BitVec w) (lo : Byte) : (hi ++ lo).toNat = lo.toNat + 256 * hi.toNat := by
  rw [BitVec.toNat_append, Nat.shiftLeft_eq, Nat.mul_comm, ← Nat.two_pow_add_eq_or_of_lt lo.isLt, Nat.add_comm]

/-! Loads and stores. -/

section
variable {s u : State} {va : Word} {n v : Nat} {st : Tab Stamp} {i : Instr}

/-- A load's value has the bytes that it reads, and no more. -/
theorem loadBytes_lt (h : loadBytes s va n = .ok (v, st, u)) : v < 2 ^ (8 * n) := by
  unfold loadBytes at h
  split at h
  · cases h
  · split at h
    · unfold watchStop at h
      split at h <;> cases h
    · unfold loadLine at h
      split at h
      · cases h
      · cases h
        exact Nat.mod_lt _ (Nat.two_pow_pos _)

theorem orTrap_ok {α : Type} {r : Acc α} {x : α} (h : r = .ok x) (f : α → Eff) : orTrap s r f = f x := by
  rw [h, orTrap]

theorem orTrap_fault {α : Type} {r : Acc α} {c : Cause} {w : Word} (h : r = .error (.fault c w u)) (f : α → Eff) :
    orTrap s r f = .fault u c w := by
  rw [h, orTrap]

theorem trapsAfter_of_issued {e : Eff} {c : Cause} {w : Word} (hi : Issues i s) (he : exec i s = issued i.word s e)
    (hf : e = .fault u c w) : TrapsAfter i s u c w := by
  rw [TrapsAfter, exec_of_issued hi he, hf, finish]

/-- How a load of `n` bytes ends: `ext` is what the register takes of the number they form. -/
theorem load_ends {d a : SReg} {m : BitVec 13} {signed : Bool} {ext : Nat → Word} (hi : Issues i s)
    (he : exec i s = loadOp i s d a m n signed)
    (hext : ∀ v, v < 2 ^ (8 * n) → (if signed then sextBytes n v else BitVec.ofNat 64 v) = ext v) :
    (∀ v st u, loadBytes s (ea s a m) n = .ok (v, st, u) → Completes i s (u.setS d (ext v)) .seq []) ∧
    (∀ c w k, loadBytes s (ea s a m) n = .error (.fault c w k) → TrapsAfter i s k c w) := by
  refine ⟨fun v st u hl => completes_of_issued hi he ?_, fun c w k hl => trapsAfter_of_issued hi he (orTrap_fault hl _)⟩
  rw [← hext v (loadBytes_lt hl)]
  exact orTrap_ok hl _

/-- How a store of `n` bytes ends. -/
theorem store_ends {a b : SReg} {m : BitVec 13} (hi : Issues i s) (he : exec i s = storeOp i s a b m n) :
    (∀ u, storeBytes s (ea s a m) n ((s.getS b).toNat % 2 ^ (8 * n)) none = .ok u → Completes i s u .seq []) ∧
    (∀ c w k, storeBytes s (ea s a m) n ((s.getS b).toNat % 2 ^ (8 * n)) none = .error (.fault c w k) → TrapsAfter i s k c w) :=
  ⟨fun _ hs => completes_of_issued hi he (orTrap_ok hs _), fun _ _ _ hs => trapsAfter_of_issued hi he (orTrap_fault hs _)⟩

end

theorem loadResults : Clauses.LoadResults := by
  intro d a m s ea rule
  have signed {n v : Nat} (h0 : 0 < n) (h8 : n ≤ 8) (hv : v < 2 ^ (8 * n)) :
      (if true = true then sextBytes n v else BitVec.ofNat 64 v) = (BitVec.ofNat (8 * n) v).signExtend 64 :=
    (if_pos rfl).trans (sextBytes_eq h0 h8 hv)
  have unsigned {n v : Nat} : (if false = true then sextBytes n v else BitVec.ofNat 64 v) = BitVec.ofNat 64 v := if_neg Bool.false_ne_true
  exact ⟨fun hi => load_ends hi rfl fun v hv => signed (by decide) (by decide) hv,
    fun hi => load_ends hi rfl fun v hv => signed (by decide) (by decide) hv,
    fun hi => load_ends hi rfl fun v hv => signed (by decide) (by decide) hv,
    fun hi => load_ends hi rfl fun _ _ => unsigned, fun hi => load_ends hi rfl fun _ _ => unsigned,
    fun hi => load_ends hi rfl fun _ _ => unsigned, fun hi => load_ends hi rfl fun _ _ => unsigned⟩

theorem storeResults : Clauses.StoreResults := by
  intro a b m s ea rule
  exact ⟨fun hi => store_ends hi rfl, fun hi => store_ends hi rfl, fun hi => store_ends hi rfl, fun hi => store_ends hi rfl⟩

/-- Settles O17: loads and stores end as their access answers, the loaded bytes extended as the table gives. -/
theorem loadsAndStores : Obligations.LoadsAndStores := ⟨loadResults, storeResults⟩

/-! The scratchpad. -/

section
variable {s : State} {n : Nat} {i : Instr}

theorem spadFault_misaligned {o : Word} (h : o.toNat % n ≠ 0) : spadFault s o n = some (.misaligned, o) := if_pos h

theorem spadFault_window {o : Word} (ha : o.toNat % n = 0) (h : spadSize s.core < o.toNat + n) : spadFault s o n = some (.window, o) :=
  (if_neg (not_not.mpr ha)).trans (if_pos h)

theorem spadFault_none {o : Word} (ha : o.toNat % n = 0) (h : o.toNat + n ≤ spadSize s.core) : spadFault s o n = none :=
  (if_neg (not_not.mpr ha)).trans (if_neg (Nat.not_lt.mpr h))

/-- How a scratchpad access of `n` bytes ends. -/
theorem spad_ends {a : SReg} {m : BitVec 13} {f : State → Nat → State} (hi : Issues i s) (he : exec i s = spadOp i s a m n f) :
    ((ea s a m).toNat % n = 0 → (ea s a m).toNat + n ≤ spadSize s.core → Completes i s (f s (ea s a m).toNat) .seq []) ∧
    ((ea s a m).toNat % n ≠ 0 → Traps i s .misaligned (ea s a m)) ∧
    ((ea s a m).toNat % n = 0 → spadSize s.core < (ea s a m).toNat + n → Traps i s .window (ea s a m)) := by
  have hspad : exec i s = issued i.word s (match spadFault s (ea s a m) n with
      | some (c, v) => .trap c v
      | none => plain (f s (ea s a m).toNat)) := he
  exact ⟨fun ha hw => completes_of_issued hi hspad (by rw [spadFault_none ha hw]; rfl),
    fun ha => traps_of_issued hi hspad (by rw [spadFault_misaligned ha]),
    fun ha hw => traps_of_issued hi hspad (by rw [spadFault_window ha hw])⟩

end

theorem scratchpadLoads : Clauses.ScratchpadLoads := by
  intro d a m s ea o b rule
  have word : spadLoad s o 4 = (b 3 ++ b 2 ++ b 1 ++ b 0).toNat := by
    simp only [spadLoad, memBytes, leNat, toNat_append_byte, Nat.mul_zero, Nat.add_zero]
    rfl
  have double : spadLoad s o 8 = (b 7 ++ b 6 ++ b 5 ++ b 4 ++ b 3 ++ b 2 ++ b 1 ++ b 0).toNat := by
    simp only [spadLoad, memBytes, leNat, toNat_append_byte, Nat.mul_zero, Nat.add_zero]
    rfl
  have extended : sextBytes 4 (spadLoad s o 4) = BitVec.signExtend 64 (b 3 ++ b 2 ++ b 1 ++ b 0) := by
    rw [word, sextBytes_eq (by decide) (by decide) (BitVec.isLt _)]
    exact congrArg (BitVec.signExtend 64) ((BitVec.ofNat_toNat _ _).trans (BitVec.setWidth_eq _))
  have whole : BitVec.ofNat 64 (spadLoad s o 8) = b 7 ++ b 6 ++ b 5 ++ b 4 ++ b 3 ++ b 2 ++ b 1 ++ b 0 := by
    rw [double]
    exact (BitVec.ofNat_toNat _ _).trans (BitVec.setWidth_eq _)
  have ends {i : Instr} {n : Nat} {v : Word} {f : State → Nat → Word} (he : exec i s = spadOp i s a m n fun s o => s.setS d (f s o))
      (hv : f s o = v) : rule i n v := fun hi => hv ▸ spad_ends hi he
  exact ⟨ends (f := fun s o => sextBytes 4 (spadLoad s o 4)) rfl extended,
    ends (f := fun s o => BitVec.ofNat 64 (spadLoad s o 8)) rfl whole⟩

/-- A scratchpad's bytes after a store there. -/
theorem spadByte_spadStore {s : State} (hm : MemoryOk s) (o n x c q : Nat) : spadByte (spadStore s o n x) c q =
    if c = s.core ∧ o ≤ q ∧ q < o + n then BitVec.ofNat 8 (x / 2 ^ (8 * (q - o))) else spadByte s c q := by
  rw [spadByte, spadStore, State.modCore_eq, State.getCore_setCore]
  by_cases hc : s.core = c
  · subst hc
    rw [if_pos rfl, memGet_memPutBytes (hm.spad s.core), leBytes_length]
    by_cases hq : o ≤ q ∧ q < o + n
    · rw [if_pos hq, if_pos ⟨rfl, hq⟩, List.getD_eq_getElem _ _ (by rw [leBytes_length]; omega), leBytes_getElem]
    · rw [if_neg hq, if_neg fun h => hq h.2]
      rfl
  · rw [if_neg hc, if_neg fun h => hc h.1.symm]
    rfl

/-- What a scratchpad store of a word's low bytes leaves. -/
theorem spadStore_frame {s : State} (hm : MemoryOk s) {o n x : Nat} {w : Word}
    (hx : ∀ j, j < n → BitVec.ofNat 8 (x / 2 ^ (8 * j)) = BitVec.ofNat 8 (w.toNat / 2 ^ (8 * j))) :
    (∀ j, j < n → spadByte (spadStore s o n x) s.core (o + j) = BitVec.ofNat 8 (w.toNat / 2 ^ (8 * j))) ∧
    (∀ c q, (c ≠ s.core ∨ q < o ∨ o + n ≤ q) → spadByte (spadStore s o n x) c q = spadByte s c q) ∧
    spadStore s o n x = { s with cores := (spadStore s o n x).cores } ∧
    (∀ c, (spadStore s o n x).getCore c = { s.getCore c with spad := ((spadStore s o n x).getCore c).spad }) := by
  refine ⟨fun j hj => ?_, fun c q hq => ?_, rfl, fun c => ?_⟩
  · rw [spadByte_spadStore hm, if_pos ⟨rfl, by omega, by omega⟩, Nat.add_sub_cancel_left, hx j hj]
  · rw [spadByte_spadStore hm, if_neg (by omega)]
  · rw [spadStore, State.modCore_eq, State.getCore_setCore]
    split
    · next hc => rw [hc]
    · rfl

theorem scratchpadStores : Clauses.ScratchpadStores := by
  intro a r m s hm ea o rule
  have ends {i : Instr} {n : Nat} {x : State → Nat} (he : exec i s = spadOp i s a m n fun s o => spadStore s o n (x s))
      (hx : ∀ j, j < n → BitVec.ofNat 8 (x s / 2 ^ (8 * j)) = BitVec.ofNat 8 ((s.getS r).toNat / 2 ^ (8 * j))) : rule i n := fun hi =>
    have ⟨hdone, htraps⟩ := spad_ends hi he
    ⟨fun ha hw => ⟨_, hdone ha hw, spadStore_frame hm hx⟩, htraps⟩
  exact ⟨ends (x := fun s => (s.getS r).toNat % 2 ^ 32) rfl fun j hj => ofNat_byte_mod _ hj,
    ends (x := fun s => (s.getS r).toNat) rfl fun _ _ => rfl⟩

/-- Settles O19: the scratchpad's tests, then the bytes read, or the bytes stored with their frame. -/
theorem scratchpad : Obligations.Scratchpad := ⟨scratchpadLoads, scratchpadStores⟩

end Sys2Proof.Machine
end

section
/-!
Prefetches and the words of the cache operations (13 R214-R216).
-/
namespace Sys2Proof.Machine

section
variable {s t u : State} {pl : Nat} {sc : Scope} {i : Instr}

/-- Past the back-invalidation test a cache operation at SYSTEM scope acts as at any other (05 R110). -/
theorem systemAction_unheld (h : sc ≠ .system ∨ tabFind s.ext pl = none) (f : State → Eff) : systemAction s pl sc f = f s := by
  refine if_neg fun ⟨hs, hx⟩ => ?_
  rcases h with h | h
  · exact h hs
  · rw [h] at hx
    exact absurd hx (by decide)

theorem cacheWords : Clauses.CacheWords := by
  intro k a m sc s va
  refine ⟨fun hi => ⟨fun hp => completes_of_issued hi rfl (if_pos hp), fun hp => completes_of_issued hi rfl (if_neg ?_)⟩, fun pl u hl => ⟨fun hi => ?_, fun hi hx => ?_,
    fun hi hx => ?_⟩, fun c w z hl => ⟨fun hi => ?_, fun hi => ?_, fun hi => ?_⟩⟩
  · exact Bool.eq_false_iff.mp hp
  · exact completes_of_issued hi rfl (orTrap_ok hl _)
  · exact completes_of_issued hi rfl ((orTrap_ok hl _).trans (systemAction_unheld hx _))
  · refine completes_of_issued hi rfl ((orTrap_ok hl _).trans ((systemAction_unheld hx _).trans ?_))
    simp only [Bool.and_eq_true, decide_eq_true_eq, Option.isSome_iff_ne_none, plain]
  all_goals exact trapsAfter_of_issued hi rfl (orTrap_fault hl _)

end

end Sys2Proof.Machine
end

section
/-!
Atomic operations at the home slice (17 R258-R261): how CAS, CHUNK, AMO and RED end, op(old, y) as arithmetic of words, and the
bytes that an operation at a line's home slice reads, writes and leaves.
-/
namespace Sys2Proof.Machine

/-! How an access at the home slice ends. -/

section
variable {α : Type} {s : State} {i : Instr} {r : Acc (α × HomeLine × State)}

/-- An instruction whose effect is one access at a home slice completes or traps as the access answers. -/
theorem access_ends {k : α × HomeLine × State → Eff} {u : α → HomeLine → State → State} {ts : HomeLine → State → List Term}
    (hi : Issues i s) (he : exec i s = issued i.word s (orTrap s r k)) (hk : ∀ a h t, k (a, h, t) = .done (u a h t) .seq (ts h t)) :
    (∀ a h t, r = .ok (a, h, t) → Completes i s (u a h t) .seq (ts h t)) ∧
    (∀ c w t, r = .error (.fault c w t) → TrapsAfter i s t c w) :=
  ⟨fun a h t hr => completes_of_issued hi he ((orTrap_ok hr k).trans (hk a h t)),
    fun _ _ _ hr => trapsAfter_of_issued hi he (orTrap_fault hr k)⟩

end

/-- Settles O22: each of the two words is one access at the home slice, then an acquire. -/
theorem casAndChunk : Obligations.CasAndChunk := by
  unfold Obligations.CasAndChunk
  intro d a b wd s
  refine ⟨fun hi => ?_, fun hi => ?_⟩
  · cases wd <;> exact access_ends hi rfl fun _ _ _ => rfl
  · obtain ⟨hdone, htraps⟩ := access_ends (i := .chunk d a) hi rfl fun _ _ _ => rfl
    exact ⟨fun start count h u hr => hdone (start, count) h u hr, htraps⟩

/-! AMO and RED. -/

theorem orderAcq_eq (o : Order) : orderAcq o = decide (o = .acq ∨ o = .acqrel) := by cases o <;> decide

theorem atomicResults : Clauses.AtomicResults := by
  intro d a b wd o s n ea rel acq pre stamp y at_ amo red
  have hat (op : AmoOp) : amoAccess s a b op (awidthBytes wd) o = at_ op := by
    cases wd <;> cases o <;> rfl
  have hacq : orderAcq o = acq := orderAcq_eq o
  have ends {i : Instr} {op : AmoOp} (he : exec i s = amoOp i s d a b wd o op) : amo i op := fun hi => by
    rw [← hat op]
    exact access_ends hi he fun _ _ _ => by rw [hacq]
  have ends' {i : Instr} {op : AmoOp} (he : exec i s = redOp i s a b wd o op) : red i op := fun hi => by
    rw [← hat op]
    exact access_ends hi he fun _ _ _ => by rw [hacq]
  exact ⟨ends rfl, ends rfl, ends rfl, ends rfl, ends rfl, ends rfl, ends rfl, ends rfl, ends rfl, ends rfl,
    ends' rfl, ends' rfl, ends' rfl, ends' rfl, ends' rfl, ends' rfl, ends' rfl, ends' rfl, ends' rfl⟩

/-- A number's signed value is that of its word. -/
theorem signedNat_eq {w x : Nat} (hw : 0 < w) (h : x < 2 ^ w) : signedNat w x = (BitVec.ofNat w x).toInt := by
  have hp : 2 ^ w = 2 * 2 ^ (w - 1) := by rw [← pow_succ', Nat.sub_add_cancel hw]
  rw [BitVec.toInt_eq_toNat_cond, BitVec.toNat_ofNat, Nat.mod_eq_of_lt h, signedNat]
  by_cases hx : x < 2 ^ (w - 1)
  · rw [if_pos hx, if_pos (by omega)]
  · rw [if_neg hx, if_neg (by omega)]; norm_cast

theorem atomicOperations : Clauses.AtomicOperations := by
  intro n x y hn hx hy bx b_y
  have hw : 0 < 8 * n := by omega
  have hbx : bx.toNat = x := Nat.mod_eq_of_lt hx
  have hby : b_y.toNat = y := Nat.mod_eq_of_lt hy
  refine ⟨?_, ?_, ?_, ?_, ?_, ?_, rfl, rfl, rfl⟩
  · rw [BitVec.toNat_add, hbx, hby]; rfl
  · rw [BitVec.toNat_and, hbx, hby]; rfl
  · rw [BitVec.toNat_or, hbx, hby]; rfl
  · rw [BitVec.toNat_xor, hbx, hby]; rfl
  · rw [AmoOp.apply, signedNat_eq hw hx, signedNat_eq hw hy]
  · rw [AmoOp.apply, signedNat_eq hw hx, signedNat_eq hw hy]

/-! An operation on a line that its home slice holds. -/

theorem leNat_map (g : Nat → Byte) (l : List Nat) : leNat (l.map g) = l.foldr (fun i acc => (g i).toNat + 256 * acc) 0 := by
  induction l with
  | nil => rfl
  | cons i r ih => rw [List.map_cons, leNat, ih, List.foldr_cons]

theorem leBytes_eq_map (n x : Nat) : leBytes n x = (List.range n).map fun i => BitVec.ofNat 8 (x / 2 ^ (8 * i)) :=
  List.ext_getElem (by simp [leBytes_length]) fun i h _ => by simp [leBytes_getElem n x h]

/-- The number in a line's bytes, byte by byte (00 R4). -/
theorem lineNat_eq_bytes (d : LineBits) (off n : Nat) :
    lineNat d off n = (List.range n).foldr (fun i acc => (lineByte d (off + i)).toNat + 256 * acc) 0 := by
  have hlt : lineNat d off n < 2 ^ (8 * n) := Nat.mod_lt _ (Nat.two_pow_pos _)
  rw [← leNat_map, ← Nat.mod_eq_of_lt hlt, ← leNat_leBytes, leBytes_eq_map]
  exact congrArg leNat (List.map_congr_left fun i hi => ofNat_lineNat d off n i (List.mem_range.mp hi))

section
variable {s : State} {pl : Nat} {l : L2Line} {va : Word}

theorem homeByte_held (hl : tabFind s.l2 pl = some l) (i : Nat) : homeByte s pl i = lineByte (l2Data s pl l) i := by
  rw [homeByte, hl]

/-- An L2 line with masked bytes stored: it is sealed under the key its domain has now (05 R86 R107). -/
def mergedLine (s : State) (pl : Nat) (l : L2Line) (d : LineBits) (m : BitVec 128) : L2Line :=
  { l with data := mergeLine (l2Data s pl l) d m, dirty := true, gen := (s.getDom l.keyid).gen }

/-- Bytes stored in a line that L2 holds go to that line. -/
theorem homeStore_held (hl : tabFind s.l2 pl = some l) (w k key : Nat) (d : LineBits) (m : BitVec 128) (st : Nat → Option Stamp) :
    ∃ stamps, homeStore s w k key pl d m st = { s with stamps := stamps, l2 := tabPut s.l2 pl (mergedLine s pl l d m) } := by
  unfold homeStore
  cases stampsAfter (tabGet [] s.stamps pl) m st with
  | nil => exact ⟨_, by simp only [hl]; rfl⟩
  | cons => exact ⟨_, by simp only [hl]; rfl⟩

theorem homeByte_homeStore (hl : tabFind s.l2 pl = some l) (w k key : Nat) (d : LineBits) (m : BitVec 128) (st : Nat → Option Stamp)
    (q i : Nat) : homeByte (homeStore s w k key pl d m st) q i =
      if q = pl ∧ m.getLsbD i = true then lineByte d i else homeByte s q i := by
  obtain ⟨stamps, h⟩ := homeStore_held hl w k key d m st
  have hdata : l2Data (homeStore s w k key pl d m st) pl (mergedLine s pl l d m) = mergeLine (l2Data s pl l) d m := by
    rw [h]; exact if_pos rfl
  by_cases hq : q = pl
  · subst hq
    rw [homeByte_held (l := mergedLine s q l d m) (by rw [h]; simp), hdata, lineByte_mergeLine, homeByte_held hl]
    simp
  · rw [if_neg fun hc => hq hc.1, h, homeByte, homeByte]
    simp only [tabFind_tabPut, Ne.symm hq, if_false]
    rfl

theorem homeByte_addPending (s : State) (c : Nat) (da : Option Nat) (q i : Nat) : homeByte (addPending s c da) q i = homeByte s q i :=
  homeByte_congr rfl rfl rfl q i

/-- Nothing is flushed where no line of the core is a copy of the address's line (17 R246). -/
theorem flushAddr_none {c d : Nat} (h : ∀ k ∈ (s.getCore c).l1, k.dom = d → k.vl ≠ vlineOf va ∧ physLine s c d va ≠ some k.pl) :
    flushAddr s c d va = s := by
  have keep (ls : List L1Line) (hs : ∀ k ∈ ls, k ∈ (s.getCore c).l1) : ls.foldl (fun t l =>
      if decide (l.dom = d) && (decide (l.vl = vlineOf va) || decide (some l.pl = physLine s c d va)) then flushL1 t c l else t) s = s := by
    induction ls with
    | nil => rfl
    | cons k r ih =>
      have hk : ¬ ((decide (k.dom = d) && (decide (k.vl = vlineOf va) || decide (some k.pl = physLine s c d va))) = true) := by
        simp only [Bool.and_eq_true, Bool.or_eq_true, decide_eq_true_eq]
        rintro ⟨hd, hv | hp⟩
        · exact (h k (hs k (.head _)) hd).1 hv
        · exact (h k (hs k (.head _)) hd).2 hp.symm
      rw [List.foldl_cons, if_neg hk]
      exact ih fun y hy => hs y (.tail _ hy)
  exact keep _ fun _ hk => hk

/-- The home slice serves a line that L2 holds, and changes nothing. -/
theorem homeServe_held {p : HomePlace} (hl : tabFind s.l2 (p.pa / 128) = some l) (c d m : Nat) :
    ∃ h, homeServe s c d m va p = (h, s) ∧ h.pl = p.pa / 128 ∧ h.data = l2Data s (p.pa / 128) l := by
  unfold homeServe homeServeAs
  simp only [hl]
  exact ⟨_, rfl, rfl, rfl⟩

/-- The checks pass where L2 holds the line under the activation's own tag and no L1 line of its core answers (17 R246). -/
theorem homeCheck_own {need : Need} (hva : va.toNat < 2 ^ 57) (hl1 : findL1 s s.core s.act.dom (vlineOf va) = none)
    (hl2 : findL2 s s.act.dom (vlineOf va) = some (pl, l)) (hp : l.perms.allow need s.act.kernel = true)
    (hx : tabFind s.ext pl = none) (hc : closedTo s s.act.dom pl = false) :
    homeCheck s need va = .ok ({ pa := 128 * pl + va.toNat % 128, perms := l.perms, own := true }, s) := by
  have hown : (findL2 s s.act.dom (vlineOf va)).filter (fun x => !closedTo s s.act.dom x.1) = some (pl, l) := by
    rw [hl2, Option.filter_some, hc]; rfl
  simp [homeCheck, hl1, homePlace, (high_zero_iff va).mpr hva, hown, hp, hx]

end

/-- An aligned access of an atomic's width lies within its line. -/
theorem atomic_within {a n : Nat} (hn : n ∈ [4, 8, 32, 64]) (ha : a % n = 0) : 0 < n ∧ a % 128 + n ≤ 128 := by
  simp only [List.mem_cons, List.not_mem_nil, or_false] at hn
  rcases hn with rfl | rfl | rfl | rfl <;> omega

theorem byteMask_ne_zero {off n : Nat} (hn : 0 < n) (ho : off + n ≤ 128) : byteMask off n ≠ 0 := fun h0 => by
  have hb := getLsbD_byteMask off n off
  rw [h0, decide_eq_true (by omega)] at hb
  exact absurd hb (by simp)

/-- An atomic operation on a line of L2 stores the new bytes there, its line in no L1 of the core (17 R246). -/
theorem atomicAccess_held {s : State} {va : Word} {n pl : Nat} {l : L2Line} {f : Nat → Option (Nat × Option Stamp) × Nat} {x y : Nat}
    {st : Option Stamp} (hva : va.toNat < 2 ^ 57) (ha : va.toNat % n = 0) (hne : byteMask (va.toNat % 128) n ≠ 0)
    (hl1 : findL1 s s.core s.act.dom (vlineOf va) = none) (hl2 : findL2 s s.act.dom (vlineOf va) = some (pl, l))
    (hl : tabFind s.l2 pl = some l) (hp : l.perms.allow .both s.act.kernel = true) (hx : tabFind s.ext pl = none)
    (hc : closedTo s s.act.dom pl = false) (hwatch : watchHit s .both va n = false)
    (hcopies : ∀ k ∈ (s.getCore s.core).l1, k.dom = s.act.dom → k.pl ≠ pl)
    (hf : f (lineNat (l2Data s pl l) (va.toNat % 128) n) = (some (x, st), y)) :
    ∃ h : HomeLine, ∃ key da, h.pl = pl ∧ atomicAccess s va n (fun s => s) f = .ok (y, h, addPending (homeStore s s.act.dom
      (clusterOf s.core) key pl (lineOf (va.toNat % 128) n x) (byteMask (va.toNat % 128) n) fun _ => st) s.core da) := by
  have hphys : physLine s s.core s.act.dom va = some pl := by simp only [physLine, hl1, hl2]
  have hflush : flushAddr s s.core s.act.dom va = s := by
    refine flushAddr_none fun k hk hd => ⟨fun hv => ?_, fun hp => hcopies k hk hd (Option.some.inj (hphys.symm.trans hp)).symm⟩
    exact absurd (List.find?_eq_none.mp hl1 k hk) (by simp [hd, hv])
  have hplace : (128 * pl + va.toNat % 128) / 128 = pl := by omega
  obtain ⟨h, hserve, hpl, hdata⟩ := homeServe_held (s := s) (va := va) (l := l)
    (p := { pa := 128 * pl + va.toNat % 128, perms := l.perms, own := true }) (by rw [hplace]; exact hl) s.core s.act.dom (clusterOf s.core)
  rw [hplace] at hpl hdata
  refine ⟨{ h with stamps := h.stamps.filter fun x => decide (va.toNat % 128 ≤ x.1) && decide (x.1 < va.toNat % 128 + n) },
    h.keyid, h.da, hpl, ?_⟩
  simp only [atomicAccess, homeAccess, homeStep, addrFault_none hva ha, homeCheck_own (need := .both) hva hl1 hl2 hp hx hc, hwatch,
    Option.map_some, hflush, servedAt, hserve, hdata, hf]
  rw [if_neg hne, hpl]
  rfl

theorem atomicAtHome : Clauses.AtomicAtHome := by
  intro s va n pl l f x st hn hva ha hl1 hl2 hl hr hw hk hx hc hwatch hcopies old hf _
  obtain ⟨hpos, hin⟩ := atomic_within hn ha
  have hold : lineNat (l2Data s pl l) (va.toNat % 128) n = old := by
    rw [lineNat_eq_bytes]
    simp only [old, homeByte_held hl]
  obtain ⟨h, key, da, hpl, haccess⟩ := atomicAccess_held (y := (f old).2) hva ha (byteMask_ne_zero hpos hin) hl1 hl2 hl
    ((Perms.allow_iff _ _ Need.both).mpr ⟨⟨hr, hw⟩, hk⟩) hx hc hwatch hcopies (show f _ = (some (x, st), _) by rw [hold, ← hf])
  obtain ⟨stamps, hstored⟩ := homeStore_held hl s.act.dom (clusterOf s.core) key (lineOf (va.toNat % 128) n x)
    (byteMask (va.toNat % 128) n) fun _ => st
  refine ⟨h, _, haccess, hpl, fun i hi => ?_, fun q i hq hi => ?_, fun c d vl i => ?_, ?_, ?_⟩
  · rw [homeByte_addPending, homeByte_homeStore hl, getLsbD_byteMask, if_pos ⟨rfl, decide_eq_true (by omega)⟩,
      lineByte_lineOf _ _ _ _ hi (by omega)]
  · rw [homeByte_addPending, homeByte_homeStore hl, getLsbD_byteMask, if_neg fun hc => ?_]
    have := of_decide_eq_true hc.2
    omega
  · rw [l1Byte, findL1_addPending, hstored]
    rfl
  · rw [hstored]; rfl
  · rw [hstored]; rfl

/-- Settles O24: AMO and RED end as their access answers, op(old, y) by arithmetic on words, and the bytes at the home slice. -/
theorem atomics : Obligations.Atomics := ⟨atomicResults, atomicOperations, atomicAtHome⟩

end Sys2Proof.Machine
end

section
/-!
Rings (17 R269-R272): which descriptors RDEF takes, the counts that the waits and advances compare, and how each word ends.
-/
namespace Sys2Proof.Machine

/-- A mask of the bits `hi` down to `lo`. -/
theorem getLsbD_fieldOnes (hi lo k : Nat) : (at_ (2 ^ (hi + 1 - lo) - 1) lo).getLsbD k = decide (k < 64 ∧ lo ≤ k ∧ k ≤ hi) := by
  rw [at_, BitVec.getLsbD_ofNat, Nat.testBit_shiftLeft, Nat.testBit_two_pow_sub_one, Bool.eq_iff_iff]
  simp only [Bool.and_eq_true, decide_eq_true_eq]
  omega

/-- No bit is set outside the fields: each set bit lies in one of them. -/
theorem onlyFields_iff (w : Word) (fs : List (Nat × Nat)) :
    onlyFields w fs = true ↔ ∀ k, w.getLsbD k = true → ∃ f ∈ fs, f.2 ≤ k ∧ k ≤ f.1 := by
  rw [onlyFields, decide_eq_true_eq]
  induction fs generalizing w with
  | nil =>
    refine ⟨fun h k hk => ?_, fun h => BitVec.eq_of_getLsbD_eq fun k _ => ?_⟩
    · rw [List.foldl_nil] at h
      rw [h] at hk
      exact absurd hk (by simp)
    · rw [List.foldl_nil, show (0 : Word).getLsbD k = false from BitVec.getLsbD_zero, ← Bool.not_eq_true]
      exact fun hk => by simpa using h k hk
  | cons f r ih =>
    rw [List.foldl_cons, ih]
    refine forall_congr' fun k => ?_
    rw [BitVec.getLsbD_and, BitVec.getLsbD_not, getLsbD_fieldOnes]
    by_cases hk : w.getLsbD k = true
    · have hlt : k < 64 := BitVec.lt_of_getLsbD hk
      by_cases hf : f.2 ≤ k ∧ k ≤ f.1 <;> simp [hk, hlt, hf]
    · simp [hk]

section
variable {w : Word} {c : Nat}

theorem extract_eq_zero_iff {lo n : Nat} : w.extractLsb' lo n = 0 ↔ ∀ k, lo ≤ k → k < lo + n → w.getLsbD k = false := by
  refine ⟨fun h k hlo hk => ?_, fun h => BitVec.eq_of_getLsbD_eq fun i hi => ?_⟩
  · have hb := congrArg (fun y : BitVec n => y.getLsbD (k - lo)) h
    simpa [BitVec.getLsbD_extractLsb', show k - lo < n by omega, show lo + (k - lo) = k by omega] using hb
  · simpa [BitVec.getLsbD_extractLsb', hi] using h (lo + i) (by omega) (by omega)

/-- The bits of a descriptor outside its fields are zero (17 R269). -/
theorem descriptorFields_iff : onlyFields w [(40, 37), (36, 24), (18, 0)] = true ↔ w.extractLsb' 41 23 = 0 ∧ w.extractLsb' 19 5 = 0 := by
  rw [onlyFields_iff, extract_eq_zero_iff, extract_eq_zero_iff]
  simp only [List.mem_cons, List.not_mem_nil, or_false, exists_eq_or_imp, exists_eq_left, ← Bool.not_eq_true]
  refine ⟨fun h => ⟨fun k _ _ hk => ?_, fun k _ _ hk => ?_⟩, fun ⟨hhigh, hmid⟩ k hk => ?_⟩
  · have := h k hk; omega
  · have := h k hk; omega
  · have hlt : k < 64 := BitVec.lt_of_getLsbD hk
    by_contra hn
    by_cases h41 : 41 ≤ k
    · exact hhigh k h41 (by omega) hk
    · exact hmid k (by omega) (by omega) hk

/-- What R269 and R270 ask of a descriptor on a core. -/
def DescriptorOk (c : Nat) (w : Word) : Prop :=
  w.extractLsb' 41 23 = 0 ∧ w.extractLsb' 19 5 = 0 ∧ w.extractLsb' 0 6 = 0 ∧ w.extractLsb' 24 13 ≠ 0 ∧
    (w.extractLsb' 0 19).toNat + ((w.extractLsb' 37 4).toNat + 1) * ((w.extractLsb' 24 13).toNat * 64) ≤ spadSize c

theorem descOk_iff : descOk c w = true ↔ DescriptorOk c w := by
  have halign : bitsOf w 18 0 % 64 = 0 ↔ w.extractLsb' 0 6 = 0 := by
    rw [← bitsOf_eq_zero_iff w 5 0, bitsOf_eq, bitsOf_eq]; omega
  have hslot : 64 * bitsOf w 36 24 ≠ 0 ↔ w.extractLsb' 24 13 ≠ 0 := by
    rw [← (bitsOf_eq_zero_iff w 36 24).ne]; omega
  have hbase : bitsOf w 18 0 = (w.extractLsb' 0 19).toNat := bitsOf_eq_extract ..
  have hcount : bitsOf w 40 37 = (w.extractLsb' 37 4).toNat := bitsOf_eq_extract ..
  have hbytes : 64 * bitsOf w 36 24 = (w.extractLsb' 24 13).toNat * 64 := by rw [bitsOf_eq_extract, Nat.mul_comm]
  simp only [descOk, Bool.and_eq_true, decide_eq_true_eq, descriptorFields_iff, Ring.base, Ring.slotBytes, Ring.count, halign, hslot]
  simp only [DescriptorOk, hbase, hcount, hbytes, and_assoc, decide_eq_true_eq]

end

/-! Counts. -/

section
variable (r : Ring)

theorem Ring.count_eq : r.count = (r.desc.extractLsb' 37 4).toNat + 1 := by rw [Ring.count, bitsOf_eq_extract]

theorem Ring.filled_eq : r.filled = (r.tail.toNat + 2 ^ 16 - r.head.toNat) % 2 ^ 16 := by
  rw [Ring.filled, BitVec.toNat_sub]
  have := r.head.isLt
  congr 1
  omega

theorem ringInfo_none {s : State} {c h : Nat} (hr : findRing s c h = none) : ringInfo s c h = 0 := by
  simp only [ringInfo, hr]

/-- The word that RINFO writes of a defined handle, as the sum of its fields (17 R272). -/
theorem ringInfo_some {s : State} {c h : Nat} {r : Ring} (hr : findRing s c h = some r) : ringInfo s c h =
    BitVec.ofNat 64 (r.head.toNat + 2 ^ 16 * r.tail.toNat + 2 ^ 32 * (r.desc.extractLsb' 37 4).toNat + 2 ^ 36) := by
  have hcount := ofNat_or_at (w := 4) 1 32 (r.desc.extractLsb' 37 4).isLt
  have htail := ofNat_or_at (w := 16) (1 * 2 ^ 4 + (r.desc.extractLsb' 37 4).toNat) 16 r.tail.isLt
  have hhead := ofNat_or_at (w := 16) ((1 * 2 ^ 4 + (r.desc.extractLsb' 37 4).toNat) * 2 ^ 16 + r.tail.toNat) 0 r.head.isLt
  have hone : at_ 1 36 = BitVec.ofNat 64 (1 * 2 ^ (32 + 4)) := by decide
  simp only [ringInfo, hr, Ring.count_eq, Nat.add_sub_cancel]
  rw [hone, hcount, htail, hhead]
  congr 1
  omega

end

/-! How each word ends. -/

section
variable {s : State} {i : Instr} {h : HNum} {n : BitVec 4} {r : Ring}

theorem stalls_of_issued {u : State} {e : Eff} {w : Wait} (hi : Issues i s) (he : exec i s = issued i.word s e)
    (hf : e = .stall w u) : Stalls i s u w := by
  rw [Stalls, exec_of_issued hi he, hf, finish]

theorem ring_unknown (hi : Issues i s) {f : Ring → Eff} (hr : tabFind (s.getCore s.core).rings h.toNat = none)
    (he : exec i s = issued i.word s (match findRing s s.core h.toNat with | none => .trap .ring (h.setWidth 64) | some r => f r)) :
    Traps i s .ring (h.zeroExtend 64) :=
  traps_of_issued hi he (by rw [findRing, hr])

/-- A wait on a defined handle (17 R271). -/
theorem ringWait_ends {empty : Bool} (hi : Issues i s) (he : exec i s = ringWait i s h n empty)
    (hr : tabFind (s.getCore s.core).rings h.toNat = some r) :
    (n.toNat + 1 ≤ r.count → n.toNat + 1 ≤ (if empty then r.free else r.filled) → Completes i s s .seq []) ∧
    (n.toNat + 1 ≤ r.count → ¬ n.toNat + 1 ≤ (if empty then r.free else r.filled) → Stalls i s s (.ring empty h.toNat (n.toNat + 1))) ∧
    (r.count < n.toNat + 1 → Traps i s .ring (h.zeroExtend 64)) := by
  have hr : findRing s s.core h.toNat = some r := hr
  refine ⟨fun hc hn => completes_of_issued hi he ?_, fun hc hn => stalls_of_issued hi he ?_, fun hc => traps_of_issued hi he ?_⟩
  · simp only [hr]
    rw [if_neg (by omega), if_pos hn, plain]
  · simp only [hr]
    rw [if_neg (by omega), if_neg hn]
  · simp only [hr]
    rw [if_pos hc]

end

/-- Settles O27: the descriptor's test by its bits, and each word by the handle and its counts. -/
theorem rings : Obligations.Rings := by
  unfold Obligations.Rings
  intro h n b d s w k handle put filled count ok
  have hok : ok ↔ descOk s.core w = true := descOk_iff.symm
  refine ⟨fun hi => ⟨fun hd hu => ?_, fun hbad => ?_⟩, fun hn i hmem hi => ?_, fun r hr => ?_, fun hi => ⟨fun hn => ?_, fun r hr => ?_⟩⟩
  · refine completes_of_issued hi rfl (if_neg ?_)
    rw [hok.mp hd, hu]
    decide
  · refine traps_of_issued hi rfl (if_pos ?_)
    rw [Bool.or_eq_true, Bool.not_eq_true', ← Bool.not_eq_true]
    exact hbad.imp (mt hok.mpr) id
  · simp only [List.mem_cons, List.not_mem_nil, or_false] at hmem
    rcases hmem with rfl | rfl | rfl | rfl <;> exact ring_unknown hi hn rfl
  · have hf : r.filled = filled r := r.filled_eq
    have hc : r.count = count r := r.count_eq
    have hfree : r.free = count r - filled r := by rw [Ring.free, hc, hf]
    have hr' : findRing s s.core h.toNat = some r := hr
    refine ⟨fun hi => ?_, fun hi => ?_, fun hi => ⟨fun hk => ?_, fun hk => ?_⟩, fun hi => ⟨fun hk => ?_, fun hk => ?_⟩⟩
    · have hw := ringWait_ends (empty := false) hi rfl hr
      rw [hc] at hw
      simp only [Bool.false_eq_true, if_false, hf] at hw
      exact ⟨hw.1, fun hk hlt => hw.2.1 hk (by omega), hw.2.2⟩
    · have hw := ringWait_ends (empty := true) hi rfl hr
      rw [hc] at hw
      simp only [if_true, hfree] at hw
      exact ⟨fun hk hle => hw.1 hk (by omega), fun hk hlt => hw.2.1 hk (by omega), hw.2.2⟩
    · exact completes_of_issued hi rfl (by simp only [hr']; rw [if_neg (by omega)]; rfl)
    · exact traps_of_issued hi rfl (by simp only [hr']; rw [if_pos (by omega)])
    · exact completes_of_issued hi rfl (by simp only [hr']; rw [if_neg (by omega)]; rfl)
    · exact traps_of_issued hi rfl (by simp only [hr']; rw [if_pos (by omega)])
  · exact completes_of_issued hi rfl (congrArg (fun v => plain (s.setS d v)) (ringInfo_none hn))
  · exact completes_of_issued hi rfl (congrArg (fun v => plain (s.setS d v)) (ringInfo_some hr))

end Sys2Proof.Machine
end

section
/-!
The control of tags (17 R251 R252): the enable bit, and the word that TAGPEND writes of a tag's messages.
-/
namespace Sys2Proof.Machine

/-! TAGPEND's word. -/

/-- The word that TAGPEND writes, as one number (17 R252). -/
def pendNumber (ring ovf st rsv : Nat) (net bound en p : Bool) : Nat :=
  ((((((ring * 2 ^ 4 + ovf) * 2 ^ 9 + st) * 2 ^ 14 + rsv) * 2 ^ 1 + flag net) * 2 ^ 1 + flag bound) * 2 ^ 1 + flag en) * 2 ^ 1 + flag p

section
variable {ring ovf st rsv : Nat} {net bound en p : Bool}

/-- The fields of TAGPEND's word join to that number. -/
theorem pendFields_eq (ho : ovf < 2 ^ 4) (hs : st < 2 ^ 9) (hr : rsv < 2 ^ 9) :
    at_ ring 31 ||| at_ ovf 27 ||| at_ st 18 ||| at_ rsv 4 ||| at_ (flag net) 3 ||| at_ (flag bound) 2 ||| at_ (flag en) 1 |||
      at_ (flag p) 0 = BitVec.ofNat 64 (pendNumber ring ovf st rsv net bound en p) := by
  have hring : at_ ring 31 = BitVec.ofNat 64 (ring * 2 ^ (27 + 4)) := by rw [at_, Nat.shiftLeft_eq]
  rw [hring, ofNat_or_at ring 27 ho, ofNat_or_at (w := 9) _ 18 hs, ofNat_or_at (w := 14) _ 4 (by omega), ofNat_or_at (w := 1) _ 3 (flag_lt net),
    ofNat_or_at (w := 1) _ 2 (flag_lt bound), ofNat_or_at (w := 1) _ 1 (flag_lt en), ofNat_or_at (w := 1) _ 0 (flag_lt p), pow_zero, mul_one,
    pendNumber]

theorem decide_flag_eq_one (b : Bool) : decide (flag b = 1) = b := by cases b <;> decide

/-- The fields of that number where the counts fit. -/
theorem pendNumber_fields {v : Word} (hv : v = BitVec.ofNat 64 (pendNumber ring ovf st rsv net bound en p)) (hring : ring < 2 ^ 17)
    (ho : ovf < 2 ^ 4) (hs : st < 2 ^ 9) (hr : rsv < 2 ^ 9) :
    v.extractLsb' 48 16 = 0 ∧ (v.extractLsb' 31 17).toNat = ring ∧ (v.extractLsb' 27 4).toNat = ovf ∧
      (v.extractLsb' 18 9).toNat = st ∧ v.extractLsb' 13 5 = 0 ∧ (v.extractLsb' 4 9).toNat = rsv ∧ v.getLsbD 3 = net ∧
      v.getLsbD 2 = bound ∧ v.getLsbD 1 = en ∧ v.getLsbD 0 = p := by
  have h1 := flag_lt net
  have h2 := flag_lt bound
  have h3 := flag_lt en
  have h4 := flag_lt p
  have hn : v.toNat = pendNumber ring ovf st rsv net bound en p := by
    rw [hv, BitVec.toNat_ofNat, Nat.mod_eq_of_lt]
    unfold pendNumber
    omega
  have hfield (lo n x : Nat) (hx : pendNumber ring ovf st rsv net bound en p / 2 ^ lo % 2 ^ n = x) : (v.extractLsb' lo n).toNat = x := by
    rw [BitVec.extractLsb'_toNat, hn, Nat.shiftRight_eq_div_pow, hx]
  have hzero (lo n : Nat) (hx : pendNumber ring ovf st rsv net bound en p / 2 ^ lo % 2 ^ n = 0) : v.extractLsb' lo n = 0 :=
    BitVec.eq_of_toNat_eq ((hfield lo n 0 hx).trans (Nat.zero_mod _).symm)
  have hbit (k : Nat) (b : Bool) (hb : pendNumber ring ovf st rsv net bound en p / 2 ^ k % 2 = flag b) : v.getLsbD k = b := by
    rw [BitVec.getLsbD, hn, Nat.testBit_eq_decide_div_mod_eq, hb, decide_flag_eq_one]
  refine ⟨hzero _ _ ?_, hfield _ _ _ ?_, hfield _ _ _ ?_, hfield _ _ _ ?_, hzero _ _ ?_, hfield _ _ _ ?_, hbit _ _ ?_, hbit _ _ ?_,
    hbit _ _ ?_, hbit _ _ ?_⟩
  all_goals
    unfold pendNumber
    omega

end

/-! A tag of the activation's own actor. -/

section
variable {s : State} {i : Nat} {e : TagEnt} {t : Nat}

theorem ownTag_some (ha : s.act.actor = some i) (ht : findTag s s.core i t = some e) : ownTag s t = some (i, e) := by
  rw [ownTag, ha]
  exact congrArg (Option.map fun e => (i, e)) ht

theorem ownTag_none (h : s.act.actor = none ∨ ∃ i, s.act.actor = some i ∧ findTag s s.core i t = none) : ownTag s t = none := by
  rcases h with ha | ⟨i, ha, ht⟩
  · rw [ownTag, ha]
  · rw [ownTag, ha]
    exact congrArg (Option.map fun e => (i, e)) ht

end

section
variable {s : State} {j : Instr} {t : TagNum} {en : Bool}

theorem setEnable_completes {i : Nat} {e : TagEnt} (hi : Issues j s) (he : exec j s = setEnable j s t en) (h15 : t ≠ 15)
    (hown : ownTag s t.toNat = some (i, e)) : Completes j s (putTag s s.core i t.toNat { e with en := en }) .seq [] := by
  refine completes_of_issued hi he ?_
  simp only [h15, if_false, hown]
  rfl

theorem setEnable_traps (hi : Issues j s) (he : exec j s = setEnable j s t en) (h : ownTag s t.toNat = none ∨ t = 15) :
    Traps j s .mpopTag (t.zeroExtend 64) := by
  refine traps_of_issued hi he ?_
  have hnone : (if t = 15 then none else ownTag s t.toNat) = none := by
    split
    · rfl
    · next h15 => exact h.resolve_right h15
  simp only [hnone]

end

/-- Settles O30: the tag is the own actor's or none, and the fields of TAGPEND's word count the tag's messages. -/
theorem tagControl : Obligations.TagControl := by
  unfold Obligations.TagControl
  intro d t i e s own none_ x is ring ovf st rsv net
  have hown (h : own) : ownTag s t.toNat = some (i, e) := ownTag_some h.1 h.2
  refine ⟨fun ho h15 hi => setEnable_completes hi rfl h15 (hown ho), fun ho h15 hi => setEnable_completes hi rfl h15 (hown ho), fun ho hi => ?_,
    fun hn j hj hi => ?_, fun hn hi => ?_⟩
  · refine ⟨tagPendWord s i t.toNat e, completes_of_issued hi rfl (by simp only [hown ho]; rfl), fun hring ho hs hr => ?_⟩
    have hovf : (ovfOf s.here i t.toNat).length = ovf := by
      rw [ovfOf, ← List.countP_eq_length_filter]
      exact congrArg (List.countP · x.ovf) (funext fun m => by simp [is])
    have hst : (queueOf s.here s.act.dom i t.toNat).length = st := by
      rw [queueOf, ← List.countP_eq_length_filter]
      exact congrArg (List.countP · x.store) (funext fun m => by simp [Stored.waits, is, Bool.and_assoc])
    have hrsv : (s.here.store.filter fun m => m.slot.isSome && decide (m.msg.actor = i) && decide (m.msg.tag = t.toNat)).length = rsv := by
      rw [← List.countP_eq_length_filter]
      exact congrArg (List.countP · x.store) (funext fun m => by
        rw [Bool.eq_iff_iff]
        simp [is, and_assoc, Option.isSome_iff_ne_none])
    have hnet : (!(netOf s s.core i t.toNat).isEmpty) = net := by
      rw [Bool.eq_iff_iff]
      simp [netOf, net, is, x, and_assoc]
    have hp : (decide (ring + ovf + st ≠ 0) || net) = (decide (ring ≠ 0 ∨ ovf ≠ 0 ∨ st ≠ 0) || net) := by
      congr 2
      exact propext (by omega)
    refine pendNumber_fields ?_ hring ho hs hr
    rw [← pendFields_eq ho hs hr, ← hp]
    simp only [tagPendWord, hovf, hst, hrsv, hnet]
    rfl
  · simp only [List.mem_cons, List.not_mem_nil, or_false] at hj
    have h := hn.imp_left ownTag_none
    rcases hj with rfl | rfl <;> exact setEnable_traps hi rfl h
  · refine traps_of_issued hi rfl ?_
    simp only [ownTag_none hn]

end Sys2Proof.Machine
end

section
/-!
SEND (17 R247, 03 R40 R41): the header and the entry's SEQ as numbers, the message that is placed, and the tests before it.
-/
namespace Sys2Proof.Machine

/-! The header, and the entry's SEQ. -/

/-- A message header as the sum of its fields (03 R40). -/
theorem mkHeader_eq (sep sdom seq len tag score : Nat) : mkHeader sep sdom seq len tag score = BitVec.ofNat 64
    (sep % 256 * 2 ^ 43 + sdom % 256 * 2 ^ 35 + seq % 65536 * 2 ^ 19 + len % 8 * 2 ^ 16 + tag % 16 * 2 ^ 12 + score % 4096) := by
  have hsep : at_ (sep % 256) 43 = BitVec.ofNat 64 (sep % 256 * 2 ^ (35 + 8)) := by rw [at_, Nat.shiftLeft_eq]
  rw [mkHeader, hsep, ofNat_or_at _ 35 (show sdom % 256 < 2 ^ 8 by omega), ofNat_or_at _ 19 (show seq % 65536 < 2 ^ 16 by omega),
    ofNat_or_at _ 16 (show len % 8 < 2 ^ 3 by omega), ofNat_or_at _ 12 (show tag % 16 < 2 ^ 4 by omega),
    ofNat_or_at _ 0 (show score % 4096 < 2 ^ 12 by omega)]
  congr 1
  omega

theorem epSeq_lt (e : Word) : epSeq e < 65536 := bitsOf_lt e 15 0
theorem epTag_lt (e : Word) : epTag e < 16 := bitsOf_lt e 27 24

/-- The bits of SEQ. -/
theorem getLsbD_seqMask (k : Nat) : (at_ 0xFFFF 0).getLsbD k = decide (k < 16) := by
  rw [at_, BitVec.getLsbD_ofNat, Nat.shiftLeft_zero, show 0xFFFF = 2 ^ 16 - 1 from rfl, Nat.testBit_two_pow_sub_one, Bool.eq_iff_iff]
  simp only [Bool.and_eq_true, decide_eq_true_eq]
  omega

/-- An entry sent through has the next SEQ (03 R41). -/
theorem epSeq_epAdvance (e : Word) : epSeq (epAdvance e) = (epSeq e + 1) % 65536 := by
  have hbits : (epAdvance e).extractLsb' 0 16 = BitVec.ofNat 16 ((epSeq e + 1) % 65536) := by
    refine BitVec.eq_of_getLsbD_eq fun k hk => ?_
    rw [BitVec.getLsbD_extractLsb', epAdvance, BitVec.getLsbD_or, BitVec.getLsbD_and, BitVec.getLsbD_not, getLsbD_seqMask, at_,
      BitVec.getLsbD_ofNat, BitVec.getLsbD_ofNat, Nat.shiftLeft_zero, Nat.zero_add]
    simp [hk, show k < 64 by omega]
  rw [epSeq, bitsOf_eq_extract, show 15 + 1 - 0 = 16 from rfl, hbits, BitVec.toNat_ofNat, Nat.mod_mod]

/-- Entries agree beyond their SEQ (17 R247). -/
theorem epFixed_eq_iff (x y : Word) : epFixed x = epFixed y ↔ x.extractLsb' 16 48 = y.extractLsb' 16 48 := by
  have hfixed (e : Word) (k : Nat) : (epFixed e).getLsbD k = (e.getLsbD k && decide (16 ≤ k)) := by
    rw [epFixed, BitVec.getLsbD_and, BitVec.getLsbD_not, getLsbD_seqMask]
    by_cases hk : k < 64
    · by_cases h16 : 16 ≤ k
      · simp [hk, h16]
      · simp [h16, Nat.lt_of_not_le h16]
    · simp [BitVec.getLsbD_of_ge e k (by omega)]
  refine ⟨fun h => BitVec.eq_of_getLsbD_eq fun k hk => ?_, fun h => BitVec.eq_of_getLsbD_eq fun k hk => ?_⟩
  · have hb := congrArg (fun w : Word => w.getLsbD (16 + k)) h
    simpa [hfixed, BitVec.getLsbD_extractLsb', hk] using hb
  · rw [hfixed, hfixed]
    by_cases h16 : 16 ≤ k
    · have hb := congrArg (fun w : BitVec 48 => w.getLsbD (k - 16)) h
      simpa [BitVec.getLsbD_extractLsb', show k - 16 < 48 by omega, show 16 + (k - 16) = k by omega, h16] using hb
    · simp [h16]

/-! The message placed. -/

section
variable {s : State} {e : BitVec 8} {a : SReg} {n : BitVec 3}

theorem endpoint_setEndpoint (s : State) (c i : Nat) (x : Word) (j : Nat) :
    endpoint (setEndpoint s c i x) c j = if i = j then x else endpoint s c j := by
  simp [endpoint, setEndpoint]

/-- A message put into a core's injection queue leaves its endpoints as they are. -/
theorem endpoint_inject (s : State) (c : Nat) (o : Outgoing) (i : Nat) :
    endpoint (s.modCore c fun x => { x with inj := x.inj ++ [o] }) c i = endpoint s c i := by
  simp [endpoint, State.modCore_eq]

/-- The injection queue of a core that one message was put into. -/
theorem inj_inject (s : State) (c : Nat) (o : Outgoing) :
    ((s.modCore c fun x => { x with inj := x.inj ++ [o] }).getCore c).inj = (s.getCore c).inj ++ [o] := by
  simp [State.modCore_eq]

/-- An entry written leaves the core's injection queue as it is. -/
theorem inj_setEndpoint (s : State) (c i : Nat) (x : Word) :
    ((setEndpoint s c i x).getCore c).inj = (s.getCore c).inj := by
  simp [setEndpoint, State.modCore_eq]

/-- The header SEND gives its message (17 R247). -/
theorem makeMsg_hdr (s : State) (c : Nat) (e : BitVec 8) (sdom score : Nat) (words : List Word) :
    (makeMsg s c e.toNat sdom score words).1.msg.hdr = BitVec.ofNat 64 (e.toNat * 2 ^ 43 + sdom % 256 * 2 ^ 35
      + epSeq (endpoint s c e.toNat) * 2 ^ 19 + epLen (endpoint s c e.toNat) * 2 ^ 16
      + epTag (endpoint s c e.toNat) * 2 ^ 12 + score % 4096) := by
  have h := mkHeader_eq e.toNat sdom (epSeq (endpoint s c e.toNat)) (epLen (endpoint s c e.toNat))
    (epTag (endpoint s c e.toNat)) score
  rwa [Nat.mod_eq_of_lt e.isLt, Nat.mod_eq_of_lt (epSeq_lt _), Nat.mod_eq_of_lt (show epLen _ < 8 from epLen_lt _),
    Nat.mod_eq_of_lt (epTag_lt _)] at h

/-- SEND's retirement step places one message and advances its entry (17 R247). -/
theorem sendRetire_places (s : State) (e : BitVec 8) (a : SReg) (n : BitVec 3) :
    ∃ u ts, sendRetire s e a n = .done u .seq ts ∧ Clauses.SendPlaced e a n s u := by
  refine ⟨_, _, rfl, rfl, ?_, ?_, epSeq_epAdvance _, fun i hi => ?_⟩
  · rw [← makeMsg_hdr s s.core e s.act.dom s.core ((List.range n.toNat).map fun i => s.getS (a + BitVec.ofNat 6 i))]
    exact (inj_inject _ s.core _).trans (congrArg (· ++ _) (inj_setEndpoint s s.core _ _))
  · exact (endpoint_inject _ s.core _ _).trans ((endpoint_setEndpoint s s.core _ _ _).trans (if_pos rfl))
  · exact (endpoint_inject _ s.core _ _).trans ((endpoint_setEndpoint s s.core _ _ _).trans (if_neg hi.symm))

theorem firstRead_fresh (h : ∀ x, s.act.wait ≠ some (.inject x)) : firstRead s = none := by
  unfold firstRead
  split
  · next x hx => exact absurd hx (h x)
  · rfl

theorem firstRead_waiting {x : Word} (h : s.act.wait = some (.inject x)) : firstRead s = some x := by
  rw [firstRead, h]

end

/-- The queue of a core has room (03 R45). -/
theorem injectFull_iff (x : Core) : injectFull x = true ↔ 16 ≤ x.inj.length := decide_eq_true_iff

theorem freshSends : Clauses.FreshSends := by
  intro e a n s hi hw ent trap down
  have hfirst := firstRead_fresh hw
  have hstops : (trapEndpoint e.toNat || !epValid ent || portDown s ent) = true ↔ 254 ≤ e.toNat ∨ ¬ Sendable s ent := by
    rw [Bool.or_assoc, Bool.or_eq_true, unsendable_iff]
    refine or_congr ?_ Iff.rfl
    have := e.isLt
    simp only [trapEndpoint, Bool.or_eq_true, decide_eq_true_eq]
    omega
  refine ⟨fun he hv hd hn => ?_, fun h => ?_, fun he hv hd hn => ?_⟩
  · intro rel
    have hhere : rel.here = rel.getCore s.core := congrArg rel.getCore (release_access s s.core s.act.dom (sendScope s.core ent)).reports.selected
    have hpass : ¬ (trapEndpoint e.toNat || !epValid ent || portDown s ent) = true := by
      rw [hstops, not_or, not_not]
      exact ⟨by omega, hv, hd⟩
    refine ⟨fun hfull => stalls_of_issued hi rfl ?_, fun hroom => ?_⟩
    · simp only [hfirst]
      rw [if_neg hpass, if_neg (not_not.mpr hn), if_pos ((injectFull_iff rel.here).mpr (by rw [hhere]; exact hfull))]
    · obtain ⟨u, ts, hdone, hplaced⟩ := sendRetire_places rel e a n
      refine ⟨u, ts, completes_of_issued hi rfl ?_, hplaced⟩
      simp only [hfirst]
      rw [if_neg hpass, if_neg (not_not.mpr hn), if_neg ((injectFull_iff rel.here).not.mpr (by rw [hhere]; exact Nat.not_le.mpr hroom))]
      exact hdone
  · have hstop : (trapEndpoint e.toNat || !epValid ent || portDown s ent) = true := by
      rw [hstops, not_sendable_iff]
      exact h
    refine traps_of_issued hi rfl ?_
    simp only [hfirst]
    exact if_pos hstop
  · have hpass : ¬ (trapEndpoint e.toNat || !epValid ent || portDown s ent) = true := by
      rw [hstops, not_or, not_not]
      exact ⟨by omega, hv, hd⟩
    refine traps_of_issued hi rfl ?_
    simp only [hfirst]
    rw [if_neg hpass, if_pos hn, msgTypeEval_eq e.isLt (epLen_lt ent)]

theorem waitingSends : Clauses.WaitingSends := by
  intro e a n s first hi hw ent down same
  have hfirst := firstRead_waiting hw
  have hstops : (!epValid ent || decide (epFixed ent ≠ epFixed first) || portDown s ent) = true ↔
      ent.getLsbD 63 = false ∨ ¬ same ∨ down := by
    simp only [Bool.or_eq_true, Bool.not_eq_true', decide_eq_true_eq, ne_eq, epFixed_eq_iff, or_assoc, portDown, Bool.and_eq_true]
    rfl
  refine ⟨fun hfull => stalls_of_issued hi rfl ?_, fun hroom => ⟨fun h => traps_of_issued hi rfl ?_, fun hv hs hd => ?_⟩⟩
  · simp only [hfirst]
    exact if_pos ((injectFull_iff _).mpr hfull)
  · simp only [hfirst]
    rw [if_neg ((injectFull_iff s.here).not.mpr (Nat.not_le.mpr hroom))]
    exact if_pos (hstops.mpr h)
  · obtain ⟨u, ts, hdone, hplaced⟩ := sendRetire_places s e a n
    refine ⟨u, ts, completes_of_issued hi rfl ?_, hplaced⟩
    simp only [hfirst]
    rw [if_neg ((injectFull_iff s.here).not.mpr (Nat.not_le.mpr hroom)), if_neg (hstops.not.mpr ?_)]
    · exact hdone
    · rw [not_or, not_or, not_not]
      exact ⟨by simp [hv], hs, hd⟩

/-- Settles O28: a fresh SEND and one that has waited, by their tests; each that passes places one message. -/
theorem sendMessages : Obligations.SendMessages := ⟨freshSends, waitingSends⟩

end Sys2Proof.Machine
end

section
/-!
Barrier and join blocks (17 R263-R267): the words of a block after words of it were replaced, the pass rule, and how the
instructions end.
-/
namespace Sys2Proof.Machine

/-! Words of a block. -/

/-- A block with a word replaced, cut at that word. -/
theorem blockSet_eq (b off x : Nat) :
    blockSet b off x = b % 2 ^ (8 * off) + 2 ^ (8 * off) * (x % 2 ^ 64 + 2 ^ 64 * (b / 2 ^ (8 * off) / 2 ^ 64)) := by
  have hlow := Nat.div_add_mod b (2 ^ (8 * off))
  have hword := Nat.div_add_mod (b / 2 ^ (8 * off)) (2 ^ 64)
  rw [blockSet, blockWord]
  generalize 2 ^ (8 * off) = P at *
  generalize b / P = q at *
  have hb : b = q % 2 ^ 64 * P + (P * (2 ^ 64 * (q / 2 ^ 64)) + b % P) := by
    conv_lhs => rw [← hlow, ← hword]
    ring
  rw [show b - q % 2 ^ 64 * P = P * (2 ^ 64 * (q / 2 ^ 64)) + b % P by omega]
  ring

@[simp] theorem blockWord_blockSet (b off x : Nat) : blockWord (blockSet b off x) off = x % 2 ^ 64 := by
  rw [blockSet_eq, blockWord, Nat.add_mul_div_left _ _ (Nat.two_pow_pos _), Nat.div_eq_of_lt (Nat.mod_lt _ (Nat.two_pow_pos _))]
  omega

/-- A word above the one replaced. -/
theorem blockWord_blockSet_above {off o : Nat} (h : off + 8 ≤ o) (b x : Nat) : blockWord (blockSet b off x) o = blockWord b o := by
  obtain ⟨k, rfl⟩ := Nat.exists_eq_add_of_le h
  have hpow : 2 ^ (8 * (off + 8 + k)) = 2 ^ (8 * off) * (2 ^ 64 * 2 ^ (8 * k)) := by rw [← pow_add, ← pow_add]; congr 1; omega
  rw [blockSet_eq, blockWord, blockWord, hpow, ← Nat.div_div_eq_div_mul, ← Nat.div_div_eq_div_mul,
    Nat.add_mul_div_left _ _ (Nat.two_pow_pos _), Nat.div_eq_of_lt (Nat.mod_lt _ (Nat.two_pow_pos _)),
    show (0 + (x % 2 ^ 64 + 2 ^ 64 * (b / 2 ^ (8 * off) / 2 ^ 64))) / 2 ^ 64 = b / 2 ^ (8 * off) / 2 ^ 64 by omega,
    ← Nat.div_div_eq_div_mul, ← Nat.div_div_eq_div_mul]

/-- A word below the one replaced. -/
theorem blockWord_blockSet_below {off o : Nat} (h : o + 8 ≤ off) (b x : Nat) : blockWord (blockSet b off x) o = blockWord b o := by
  have low (y : Nat) : blockWord y o = y % 2 ^ (8 * off) / 2 ^ (8 * o) % 2 ^ 64 := by
    obtain ⟨k, rfl⟩ := Nat.exists_eq_add_of_le h
    have hpow : 2 ^ (8 * (o + 8 + k)) = 2 ^ (8 * o) * (2 ^ 64 * 2 ^ (8 * k)) := by rw [← pow_add, ← pow_add]; congr 1; omega
    rw [blockWord, hpow, Nat.mod_mul_right_div_self, Nat.mod_mul_right_mod]
  rw [low, low, blockSet_eq, Nat.add_mul_mod_self_left, Nat.mod_mod]

@[simp] theorem blockWord_blockSet32 (b off x : Nat) :
    blockWord (blockSet32 b off x) off = blockWord b off / 2 ^ 32 * 2 ^ 32 + x % 2 ^ 32 := by
  have : blockWord b off < 2 ^ 64 := Nat.mod_lt _ (by decide)
  rw [blockSet32, blockWord_blockSet, Nat.mod_eq_of_lt (by omega)]

theorem blockWord_blockSet32_above {off o : Nat} (h : off + 8 ≤ o) (b x : Nat) :
    blockWord (blockSet32 b off x) o = blockWord b o := blockWord_blockSet_above h ..

theorem blockWord_blockSet32_below {off o : Nat} (h : o + 8 ≤ off) (b x : Nat) :
    blockWord (blockSet32 b off x) o = blockWord b o := blockWord_blockSet_below h ..

/-- Word `i` of a block of 64-bit words. -/
theorem blockWord_index (b i : Nat) : b / 2 ^ (64 * i) % 2 ^ 64 = blockWord b (8 * i) := by
  rw [blockWord, ← Nat.mul_assoc]

/-! The pass rule (17 R263). -/

theorem passRule_deferred {b : Nat} (h : barDefer b ≠ 0) : passRule b = b := if_neg fun hc => h hc.1

/-- What the pass rule leaves in a block without a deferred arrival. -/
theorem passRule_words {b : Nat} (h : barDefer b = 0) :
    barArrived (passRule b) = barArrived b % barExpect b ∧ barPhase (passRule b) = (barPhase b + barArrived b / barExpect b) % 2 ^ 32 ∧
    blockWord (passRule b) 0 = blockWord b 0 ∧ ∀ i, 2 < i → blockWord (passRule b) (8 * i) = blockWord b (8 * i) := by
  have harr : barArrived b < 2 ^ 32 := Nat.mod_lt _ (by decide)
  by_cases hq : barArrived b / barExpect b = 0
  · have hexp : 0 < barExpect b := Nat.lt_of_lt_of_le Nat.one_pos (Nat.le_max_right ..)
    have hlt := (Nat.div_eq_zero_iff_lt hexp).mp hq
    have hphase : barPhase b % 2 ^ 32 = barPhase b := Nat.mod_mod ..
    rw [passRule, if_neg (by simp [hq]), Nat.mod_eq_of_lt hlt, hq, Nat.add_zero, hphase]
    exact ⟨rfl, rfl, rfl, fun _ _ => rfl⟩
  · have hmod : barArrived b - barArrived b / barExpect b * barExpect b = barArrived b % barExpect b := by
      rw [Nat.mul_comm, ← Nat.mod_eq_sub]
    have hle := Nat.mod_le (barArrived b) (barExpect b)
    rw [passRule, if_pos ⟨h, hq⟩, hmod]
    refine ⟨?_, ?_, ?_, fun i hi => ?_⟩
    · rw [barArrived, blockWord_blockSet32_below (by decide), blockWord_blockSet32]
      omega
    · rw [barPhase, blockWord_blockSet32]
      omega
    · rw [blockWord_blockSet32_below (by decide), blockWord_blockSet32_below (by decide)]
    · rw [blockWord_blockSet32_above (by omega), blockWord_blockSet32_above (by omega)]

theorem phasePassed_iff (b p : Nat) : phasePassed b p = true ↔
    1 ≤ (barPhase b + 2 ^ 32 - p) % 2 ^ 32 ∧ (barPhase b + 2 ^ 32 - p) % 2 ^ 32 ≤ 2 ^ 31 := by
  rw [phasePassed, Bool.and_eq_true, decide_eq_true_eq, decide_eq_true_eq]

theorem barrierRules : Clauses.BarrierRules := by
  intro b p _ _
  simp only [blockWord_index]
  exact ⟨passRule_deferred, passRule_words, phasePassed_iff b p⟩

/-! The blocks that BARINIT and JINIT leave (17 R264 R267). -/

/-- The first word of a barrier block initialised. -/
theorem barBlock_first (x : Nat) {expect : Nat} (h : expect < 2 ^ 32) (sc : Scope) :
    blockWord (barBlock x expect sc) 0 = sc.code.toNat * 2 ^ 32 + expect := by
  have := sc.code.isLt
  rw [barBlock, blockWord_blockSet_below (by decide), blockWord_blockSet_below (by decide), blockWord_blockSet_below (by decide),
    blockWord_blockSet, Nat.mod_eq_of_lt h, Nat.mod_eq_of_lt (by omega)]

/-- ARRIVED, PHASE and DEFER of a barrier block initialised. -/
theorem barBlock_counts (x expect : Nat) (sc : Scope) {off : Nat} (h : off = 8 ∨ off = 16 ∨ off = 24) :
    blockWord (barBlock x expect sc) off = 0 := by
  rcases h with rfl | rfl | rfl
  · rw [barBlock, blockWord_blockSet_below (by decide), blockWord_blockSet_below (by decide), blockWord_blockSet, Nat.zero_mod]
  · rw [barBlock, blockWord_blockSet_below (by decide), blockWord_blockSet, Nat.zero_mod]
  · rw [barBlock, blockWord_blockSet, Nat.zero_mod]

theorem barBlock_beyond (x expect : Nat) (sc : Scope) {off : Nat} (h : 32 ≤ off) :
    blockWord (barBlock x expect sc) off = blockWord x off := by
  rw [barBlock, blockWord_blockSet_above (by omega), blockWord_blockSet_above (by omega), blockWord_blockSet_above (by omega),
    blockWord_blockSet_above (by omega)]

theorem joinBlock_first (x : Nat) {count : Nat} (h : count < 2 ^ 32) (e core dom : Nat) :
    blockWord (joinBlock x count e core dom) 0 = count := by
  rw [joinBlock, blockWord_blockSet_below (by decide), blockWord_blockSet, Nat.mod_eq_of_lt h, Nat.mod_eq_of_lt (by omega)]

theorem joinBlock_second (x count : Nat) {e core dom : Nat} (he : e < 256) (hcore : core < 4096) (hdom : dom < 256) :
    blockWord (joinBlock x count e core dom) 8 = dom * 2 ^ 20 + core * 2 ^ 8 + e := by
  rw [joinBlock, blockWord_blockSet, Nat.mod_eq_of_lt he, Nat.mod_eq_of_lt hcore, Nat.mod_eq_of_lt hdom, Nat.mod_eq_of_lt (by omega)]

theorem joinBlock_beyond (x count e core dom : Nat) {off : Nat} (h : 16 ≤ off) :
    blockWord (joinBlock x count e core dom) off = blockWord x off := by
  rw [joinBlock, blockWord_blockSet_above (by omega), blockWord_blockSet_above (by omega)]

theorem blockInit : Clauses.BlockInit := by
  intro x expect e core dom sc _ hexpect he hcore hdom
  simp only [blockWord_index]
  have hsc := sc.code.isLt
  have hfirst := barBlock_first x hexpect sc
  have hcounts {off : Nat} (h : off = 8 ∨ off = 16 ∨ off = 24) : blockWord (barBlock x expect sc) off % 2 ^ 32 = 0 := by
    rw [barBlock_counts x expect sc h, Nat.zero_mod]
  have hsecond := joinBlock_second x expect he hcore hdom
  refine ⟨?_, ?_, hcounts (.inl rfl), hcounts (.inr (.inl rfl)), hcounts (.inr (.inr rfl)),
    fun i hi => barBlock_beyond x expect sc (by omega), ?_, ?_, ?_, ?_, fun i hi => joinBlock_beyond x expect e core dom (by omega)⟩
  · rw [Nat.mul_zero, hfirst]; omega
  · rw [Nat.mul_zero, hfirst]; omega
  · rw [Nat.mul_zero, joinBlock_first x hexpect, Nat.mod_eq_of_lt hexpect]
  · rw [Nat.mul_one, hsecond]; omega
  · rw [Nat.mul_one, hsecond]; omega
  · rw [Nat.mul_one, hsecond]; omega

/-! The instructions (17 R264-R267). -/

/-- The checks of an atomic access stay within what accesses change. -/
theorem atomicCheck_within (s : State) (va : Word) (n : Nat) : Within s id (atomicCheck s va n) := by
  have hcheck := homeCheck_within s .both va
  unfold atomicCheck
  split
  · exact AccessOnly.refl s
  · split
    · next e he => rw [he] at hcheck; cases e <;> exact hcheck
    · next t ht =>
      rw [ht] at hcheck
      split
      · exact hcheck
      · exact hcheck

section
variable {s : State} {d a b : SReg}

/-- BARRIVE and BARRIVED, by the jobs that the arrival waits for. -/
theorem arrive_ends {i : Instr} {deferred : Bool} {jobs : List Nat} (hi : Issues i s) (he : exec i s = arriveAt i s d a deferred)
    (hjobs : (if deferred then reeveUnlanded s else []) = jobs) {k : Scope} {h1 h : HomeLine} {s1 s2 : State} {phase : Nat}
    (hread : atomicAccess s (s.getS a) 64 (fun s => s) (fun x => (none, barScope x)) = .ok (k, h1, s1))
    (hblock : blockAccess s1 (some .both) (s.getS a) 64 [(8, 4), (16, 4), (24, 4)] (fun s => release s s.core s.act.dom k) (fun x =>
      (some (passRule (if jobs = [] then blockSet32 x 8 (barArrived x + 1)
        else blockSet32 (blockSet32 x 8 (barArrived x + 1)) 24 (barDefer (blockSet32 x 8 (barArrived x + 1)) + 1)), none),
        barPhase x + barArrived x / barExpect x)) = .ok (phase, h, s2)) :
    Completes i s (if jobs = [] then s2.setS d (BitVec.ofNat 64 phase) else { s2.setS d (BitVec.ofNat 64 phase) with
      defers := (s2.setS d (BitVec.ofNat 64 phase)).defers ++
        [{ dom := s.act.dom, core := s.core, kernel := s.act.kernel, block := s.getS a, jobs := jobs }] }) .seq
      (homeTerms s2 h (s.getS a)) := by
  refine completes_of_issued hi he ((orTrap_ok hread _).trans ?_)
  simp only [hjobs, List.isEmpty_iff]
  exact orTrap_ok hblock _

/-- JINIT's traps on its entry, by the entry. -/
theorem joinEntryFault_eq (s : State) {e : Nat} (he : e < 2 ^ 8) : joinEntryFault s e =
    if (endpoint s s.core e).getLsbD 63 = false ∨ 254 ≤ e then some (.endpoint, BitVec.ofNat 64 e)
    else if 6 < epLen (endpoint s s.core e) then
      some (.msgType, BitVec.ofNat 64 (e + 2 ^ 8 * epLen (endpoint s s.core e) + 2 ^ 11 * 6))
    else none := by
  have hstops : (trapEndpoint e || !epValid (endpoint s s.core e)) = true ↔
      (endpoint s s.core e).getLsbD 63 = false ∨ 254 ≤ e := by
    simp only [trapEndpoint, epValid, Bool.or_eq_true, decide_eq_true_eq, Bool.not_eq_true', or_comm (b := 254 ≤ e)]
    refine or_congr ?_ Iff.rfl
    omega
  rw [joinEntryFault]
  simp only [hstops, msgTypeEval_eq he (epLen_lt (endpoint s s.core e))]

end

theorem barrierInstructions : Clauses.BarrierInstructions := by
  intro d a b sc s ea p here read poll arrives
  have hp : bitsOf (s.getS b) 31 0 = p := bitsOf_eq_extract (s.getS b) 31 0
  have hphase : phaseRead s ea (bitsOf (s.getS b) 31 0) = poll := congrArg (phaseRead s ea) hp
  refine ⟨fun hi k h1 s1 phase h s2 hread hblock => arrive_ends hi rfl rfl hread hblock,
    fun hi k h1 s1 phase h s2 hread hblock => arrive_ends hi rfl rfl hread hblock,
    fun hi x h u hblock => ?_, fun hi k h u => ⟨fun hpoll => ?_, fun hpoll => ?_⟩,
    fun hi k h u => ⟨fun hpoll => ?_, fun hpoll => ?_⟩, ?_⟩
  · rw [← hp] at hblock
    exact completes_of_issued hi rfl (orTrap_ok hblock _)
  · exact ⟨_, rfl, completes_of_issued hi rfl (orTrap_ok (hphase.trans hpoll) _)⟩
  · exact completes_of_issued hi rfl (orTrap_ok (hphase.trans hpoll) _)
  · exact completes_of_issued hi rfl (orTrap_ok (hphase.trans hpoll) _)
  · exact stalls_of_issued hi rfl (orTrap_ok (hphase.trans hpoll) _)
  · intro hi e ent t ht
    have hat : AccessOnly s t := by simpa only [ht, Within, id] using atomicCheck_within s ea 64
    have he : bitsOf (s.getS d) 7 0 = e := bitsOf_eq_extract (s.getS d) 7 0
    have hfault : joinEntryFault t (bitsOf (s.getS d) 7 0) = _ :=
      (congrArg (joinEntryFault t) he).trans (joinEntryFault_eq t ((s.getS d).extractLsb' 0 8).isLt)
    rw [hat.endpoint, hat.reports.selected] at hfault
    refine ⟨fun hstop => ?_, fun hv hlt hlen => ?_, fun hv hlt hlen m h u hblock => ?_⟩
    · refine trapsAfter_of_issued hi rfl ((orTrap_ok ht _).trans ?_)
      rw [hfault, if_pos hstop]
    · refine trapsAfter_of_issued hi rfl ((orTrap_ok ht _).trans ?_)
      rw [hfault, if_neg (by rw [hv]; simpa using hlt), if_pos hlen]
    · rw [← hat.act, ← hat.reports.selected, ← he, ← hp] at hblock
      refine completes_of_issued hi rfl ((orTrap_ok ht _).trans ?_)
      rw [hfault, if_neg (by rw [hv]; simpa using hlt), if_neg (Nat.not_lt.mpr hlen), ← hp]
      exact orTrap_ok hblock _

/-- Settles O26: the pass rule and the blocks as arithmetic of their words, each instruction by its access at the home slice. -/
theorem barriers : Obligations.Barriers := ⟨barrierRules, barrierInstructions, blockInit⟩

end Sys2Proof.Machine
end

section
/-!
The ends of handlers and tasks, and FORK (17 R253-R255, 03 R56-R60 R66): an access at the home slice answers through its
operation's result alone, what the end of an activation frees, the task record as numbers, and the room in the deque.
-/
namespace Sys2Proof.Machine

/-! An access at the home slice and the operation it performs. -/

section
variable {α β : Type} (s : State) (need : Need) (k : Option WatchKind) (va : Word) (n : Nat) (wr : Nat → BitVec 128)
  (pre : State → State)

/-- What an operation answers passes through its access. -/
theorem homeStep_map (f : Nat → Option (Nat × Option Stamp) × α) (g : α → β) :
    homeStep s need k va n wr pre (fun x => ((f x).1, g (f x).2)) =
      (homeStep s need k va n wr pre f).map fun r => (g r.1, r.2) := by
  unfold homeStep
  split
  · rfl
  · split
    · rfl
    · split
      · rfl
      · simp only [servedAt, Except.map]
        generalize f _ = r
        obtain ⟨_ | x, a⟩ := r <;> rfl

/-- An access fails whatever its operation is. -/
theorem homeStep_error {f : Nat → Option (Nat × Option Stamp) × α} {e : AccErr} (h : homeStep s need k va n wr pre f = .error e)
    (g : Nat → Option (Nat × Option Stamp) × β) : homeStep s need k va n wr pre g = .error e := by
  unfold homeStep at h ⊢
  split at h
  · exact congrArg Except.error (Except.error.inj h)
  · split at h
    · exact congrArg Except.error (Except.error.inj h)
    · split at h
      · next hhit => exact (if_pos hhit).trans (congrArg Except.error (Except.error.inj h))
      · cases h

end

/-! The end of an activation (03 R66 R52). -/

section
variable {s : State}

/-- Reserved messages that return leave everything but stores and stalled activations as it was. -/
theorem returnReserved_rest (s : State) (c k : Nat) :
    returnReserved s c k = { s with
      cores := (returnReserved s c k).cores, act := (returnReserved s c k).act, acts := (returnReserved s c k).acts } := by
  obtain ⟨l, h, -⟩ := serveMpops_serves (s.modCore c fun x =>
    { x with store := (reservedOf x k).map (fun m => { m with slot := none })
        ++ x.store.filter fun m : Stored => decide (m.slot ≠ some k) }) c
  exact h.rest

/-- The end of the selected activation frees its slot. -/
theorem endAct_freed (h : s.live = true) (a : Act) (addr : Word) :
    (endAct s s.core s.slot a addr).live = false ∧ (endAct s s.core s.slot a addr).act = Act.blank ∧
    (endAct s s.core s.slot a addr).core = s.core ∧ (endAct s s.core s.slot a addr).slot = s.slot := by
  have hret := returnReserved_rest s s.core s.slot
  have htrace := (traceRecord_reports (returnReserved s s.core s.slot) a s.core s.slot true addr).rest
  rw [hret] at htrace
  have hlive : (traceRecord (returnReserved s s.core s.slot) a s.core s.slot true addr).live = true := by
    rw [hret, htrace]; exact h
  have hcore : (traceRecord (returnReserved s s.core s.slot) a s.core s.slot true addr).core = s.core := by
    rw [hret, htrace]
  have hslot : (traceRecord (returnReserved s s.core s.slot) a s.core s.slot true addr).slot = s.slot := by
    rw [hret, htrace]
  rw [endAct, State.dropAct, hlive, hcore, hslot, if_pos (by simp)]
  exact ⟨rfl, rfl, rfl, rfl⟩

/-- Without a grant the end of an activation writes no trace record. -/
theorem endAct_mem {a : Act} (h : grantOf s a.dom = none) (c k : Nat) (addr : Word) : (endAct s c k a addr).mem = s.mem := by
  have hret := returnReserved_rest s c k
  have hgrant : grantOf (returnReserved s c k) a.dom = none := by rw [hret]; exact h
  have hdrop (t : State) : (t.dropAct c k).mem = t.mem := by unfold State.dropAct; split <;> rfl
  rw [endAct, hdrop, traceRecord, hgrant]
  simp only
  rw [hret]

theorem chargeAct_core (s : State) (ts : List Term) : (chargeAct s ts).core = s.core := by rw [chargeAct_rest]
theorem chargeAct_slot (s : State) (ts : List Term) : (chargeAct s ts).slot = s.slot := by rw [chargeAct_rest]

/-- ENDH and ENDJ end the activation as it stands after the charge. -/
theorem endHere_eq (i : Instr) (s : State) (ts : List Term) : endHere i s ts =
    endAct (chargeAct s (retireTerms i.word ++ ts)) s.core s.slot (chargeAct s (retireTerms i.word ++ ts)).act s.act.pc := by
  have hpc : (chargeAct s (retireTerms i.word ++ ts)).act.pc = s.act.pc := by rw [chargeAct_rest]
  simp only [endHere, chargeAct_core, chargeAct_slot, hpc]

theorem endHere_freed (h : s.live = true) (i : Instr) (ts : List Term) :
    (endHere i s ts).live = false ∧ (endHere i s ts).act = Act.blank ∧ (endHere i s ts).core = s.core ∧
    (endHere i s ts).slot = s.slot := by
  have hlive : (chargeAct s (retireTerms i.word ++ ts)).live = true := by rw [chargeAct_rest]; exact h
  have hfreed := endAct_freed hlive (chargeAct s (retireTerms i.word ++ ts)).act s.act.pc
  rwa [chargeAct_core, chargeAct_slot, ← endHere_eq] at hfreed

theorem endHere_mem (h : grantOf s s.act.dom = none) (i : Instr) (ts : List Term) : (endHere i s ts).mem = s.mem := by
  rw [endHere_eq, endAct_mem (by rw [chargeAct_rest]; exact h), chargeAct_rest]

/-- An instruction that ends its activation, unstepped. -/
theorem steps_over {i : Instr} {e : Eff} {u : State} (hi : Issues i s) (he : exec i s = issued i.word s e)
    (hf : e = .over u) (hstep : s.act.halt ≠ .step) : Steps i s u := by
  rw [Steps, exec_of_issued hi he, hf, finish, if_neg hstep]

/-! ENDJ's step on its join block (17 R254). -/

theorem joinStep_eq (b : Nat) : joinStep b =
    (if b % 2 ^ 32 = 0 then none else some (blockSet32 b 0 (b % 2 ^ 32 - 1)), decide (b % 2 ^ 32 = 0), decide (b % 2 ^ 32 = 1)) := by
  have hn : blockWord b 0 % 2 ^ 32 = b % 2 ^ 32 := by
    rw [blockWord]; omega
  rw [joinStep, hn]
  generalize b % 2 ^ 32 = n
  by_cases h : n = 0
  · simp [h]
  · simp [h]

theorem endings : Clauses.Endings := by
  intro a s hlive hsaving hstep ea freed
  refine ⟨fun hi => ⟨endHere .endh s [], steps_over hi rfl ?_ hstep, endHere_freed hlive .endh [], fun hgrant =>
    endHere_mem hgrant .endh []⟩, fun hi b h u => ?_, fun c w k herr hi => ?_⟩
  · simp only [hsaving]
  · intro step hblock n
    have hstepped := (homeStep_map s .both none ea 64 (fieldMask [(0, 4)]) releasePackage
      (fun x => ((step x).1.map fun y => (y, (none : Option Stamp)), x))
      fun x => (decide (x % 2 ^ 32 = 0), decide (x % 2 ^ 32 = 1), continuationOf x ea)).trans (congrArg (Except.map _) hblock)
    refine ⟨_, _, rfl, steps_over hi rfl ?_ hstep, endHere_eq ..⟩
    simp only [hsaving, joinStep_eq]
    refine (orTrap_ok hstepped _).trans ?_
    simp only [decide_eq_true_eq]
    rfl
  · refine trapsAfter_of_issued hi rfl ?_
    simp only [hsaving]
    exact orTrap_fault (homeStep_error _ _ _ _ _ _ _ herr _) _

end

/-! FORK (17 R255, 03 R56 R57). -/

/-- FORK's traps on its operands, by their numbers. -/
theorem forkFault_eq (s : State) (a b : SReg) : forkFault s a b =
    if 2 ^ 57 ≤ (s.getS a).toNat then some (.pageAbsent, s.getS a)
    else if (s.getS a).toNat % 4 ≠ 0 then some (.misaligned, s.getS a)
    else if s.getS b ≠ 0 ∧ (2 ^ 57 ≤ (s.getS b).toNat ∨ (s.getS b).toNat % 64 ≠ 0) then some (.misaligned, s.getS b)
    else none := by
  have high (w : Word) : bitsOf w 63 57 ≠ 0 ↔ 2 ^ 57 ≤ w.toNat := by rw [ne_eq, high_zero_iff, Nat.not_lt]
  have low (w : Word) : bitsOf w 5 0 = w.toNat % 64 := by rw [bitsOf_eq, Nat.pow_zero, Nat.div_one]; rfl
  rw [forkFault]
  simp only [high, low, ne_eq, word_aligned_iff]

/-- The task record of a FORK whose entry is an address, as numbers (03 R56). -/
theorem taskRecord_eq {s : State} {a : SReg} (b : SReg) (hx : (s.getS a).toNat < 2 ^ 57) (hprio : s.act.prio < 4) :
    taskRecord s a b =
      [BitVec.ofNat 64 ((if s.act.kernel then 1 else 0) * 2 ^ 59 + s.act.prio % 4 * 2 ^ 57 + (s.getS a).toNat), s.getS b,
        s.getS 8, s.getS 9, s.getS 10, s.getS 11, s.getS 12, s.getS 13] := by
  have hflag : at_ (flag s.act.kernel) 59 ||| at_ s.act.prio 57 =
      BitVec.ofNat 64 (((if s.act.kernel then 1 else 0) * 2 ^ 2 + s.act.prio) * 2 ^ 57) := by
    rw [← ofNat_or_at (w := 2) _ 57 hprio, flag, at_, Nat.shiftLeft_eq]
  have hentry : memEval (s.getS a) = at_ (s.getS a).toNat 0 := by
    rw [memEval_of_lt hx, at_, Nat.shiftLeft_zero, BitVec.ofNat_toNat, BitVec.setWidth_eq]
  have hword := ofNat_or_at (w := 57) ((if s.act.kernel then 1 else 0) * 2 ^ 2 + s.act.prio) 0 hx
  rw [taskRecord, hflag, hentry, hword, Nat.mod_eq_of_lt hprio]
  congr 2
  ring

/-- Room in the deque after a release, by the deque and the ring before it. -/
theorem dequeRoom_released (s : State) (sc : Scope) (d : Nat) :
    dequeRoom (release s s.core s.act.dom sc) s.core d =
      if (s.getCore s.core).deque.length < 64 then some (.ok (release s s.core s.act.dom sc))
      else if ringCap s s.core ≤ ringCount (s.getCore s.core) then none
      else some (dequeToRing (release s s.core s.act.dom sc) s.core d
        (min 32 (ringCap s s.core - ringCount (s.getCore s.core)))) := by
  have hcore := (release_access s s.core s.act.dom sc).core s.core
  have hdeque : ((release s s.core s.act.dom sc).getCore s.core).deque = (s.getCore s.core).deque := by rw [hcore]
  have hcount : ringCount ((release s s.core s.act.dom sc).getCore s.core) = ringCount (s.getCore s.core) := by
    rw [ringCount, hcore, ringCount]
  have hcap : ringCap (release s s.core s.act.dom sc) s.core = ringCap s s.core := by
    rw [ringCap, findActor, hcore, ringCap, findActor]
  simp only [dequeRoom, hdeque, hcount, hcap, Nat.sub_eq_zero_iff_le]

section
variable {s : State} {a b : SReg}

/-- A FORK with a bad entry or join address traps. -/
theorem fork_traps (hi : Issues (.fork a b) s) {c : Cause} {v : Word} (hfault : forkFault s a b = some (c, v)) :
    Traps (.fork a b) s c v := by
  refine traps_of_issued hi rfl ?_
  simp only [hfault]

/-- A FORK that found room pushes its record at the bottom of the deque. -/
theorem fork_pushes (hi : Issues (.fork a b) s) (hfault : forkFault s a b = none) {w : State}
    (hroom : dequeRoom (release s s.core s.act.dom (forkScope s)) s.core s.act.dom = some (.ok w)) :
    ∃ u, Completes (.fork a b) s u .seq [] ∧ u = { w with cores := u.cores } ∧
      (u.getCore w.core).deque = (w.getCore w.core).deque ++ [taskRecord s a b] := by
  refine ⟨w.modCore w.core fun x => { x with deque := x.deque ++ [taskRecord s a b] }, completes_of_issued hi rfl ?_, rfl, ?_⟩
  · simp only [hfault, hroom]
    rfl
  · rw [getCore_modCore_self]

end

theorem forks : Clauses.Forks := by
  intro a b s hi x y good record
  have hnone (h : good) : forkFault s a b = none := by
    obtain ⟨hx, hx4, hy⟩ := h
    rw [forkFault_eq, if_neg (Nat.not_le.mpr hx), if_neg (not_not.mpr hx4), if_neg]
    rintro ⟨hy0, hyb⟩
    rcases hy with hy | ⟨hy1, hy2⟩
    · exact hy0 hy
    · exact hyb.elim (Nat.not_le.mpr hy1) (not_not.mpr hy2)
  have hrecord (h : good) (hprio : s.act.prio < 4) : taskRecord s a b = record := taskRecord_eq b h.1 hprio
  have hroom := dequeRoom_released s (forkScope s) s.act.dom
  refine ⟨fun hg hprio hlen => ?_, fun hg hlen hfull => ?_, fun hg hprio hlen hfree => ⟨fun w hw => ?_, fun c v w hw => ?_⟩,
    fun hx => ?_, fun hx hx4 => ?_, fun hx hx4 hy hyb => ?_⟩
  · have hsel := (release_access s s.core s.act.dom (forkScope s)).reports.selected
    rw [if_pos hlen] at hroom
    obtain ⟨u, hdone, hrest, hdeque⟩ := fork_pushes hi (hnone hg) hroom
    rw [hsel, hrecord hg hprio] at hdeque
    exact ⟨u, _, hdone, rfl, hrest, hdeque⟩
  · rw [if_neg (Nat.not_lt.mpr hlen), if_pos hfull] at hroom
    refine traps_of_issued hi rfl ?_
    simp only [hnone hg, hroom]
  · rw [if_neg (Nat.not_lt.mpr hlen), if_neg (Nat.not_le.mpr hfree), hw] at hroom
    obtain ⟨u, hdone, hrest, hdeque⟩ := fork_pushes hi (hnone hg) hroom
    rw [hrecord hg hprio] at hdeque
    exact ⟨u, hdone, hrest, hdeque⟩
  · rw [if_neg (Nat.not_lt.mpr hlen), if_neg (Nat.not_le.mpr hfree), hw] at hroom
    refine ⟨keepTraffic s w, trapsAfter_of_issued hi rfl ?_, rfl, rfl, rfl, rfl⟩
    simp only [hnone hg, hroom]
    rfl
  · exact fork_traps hi ((forkFault_eq s a b).trans (if_pos hx))
  · refine fork_traps hi ?_
    rw [forkFault_eq, if_neg (Nat.not_le.mpr hx), if_pos hx4]
  · refine fork_traps hi ?_
    rw [forkFault_eq, if_neg (Nat.not_le.mpr hx), if_neg (not_not.mpr hx4), if_pos ⟨hy, hyb⟩]

/-- Settles O31: what the end of an activation frees and ENDJ's one access; FORK by its tests, its record and the deque's room. -/
theorem forkJoin : Obligations.ForkJoin := ⟨endings, forks⟩

end Sys2Proof.Machine
end

section
/-!
SAFEPT in host-assisted mode (03 R69, 21 R319): where the saved activation goes on.
-/
namespace Sys2Proof.Machine

/-- An activation of domain 3 at 0x1000, asked to save in host-assisted mode. Its handler's descriptor at 0x2000 names one safe point, whose
save and restore routines are at 0x3000 and 0x3004; L2 holds the descriptor's line, the table's (the same) and those of the save record at 0x2080. -/
def askedToSave : State :=
  { State.reset with
    live := true, inReset := false,
    act := { Act.blank with dom := 3, pc := 0x1000, actor := some 0, entry := 0x2010, modes := 1,
                            preempt := some { why := .evict, at_ := 0, budget := 50000 } },
    doms := [(3, { Dom.blank with exists_ := true })],
    cores := [(0, { Core.blank with
      dom := some 3,
      actors := [(15, { kernel := false, conc := true, spoff := 0, spsize := 0, mbase := 0, msize := 0, dqbase := 0, dqlog := 0,
                        steal := 0, savebase := 0x2080, tags := [] })] })],
    l2 := (List.range 17).map fun k => (0x140 + k, {
      dom := 3, vl := 0x40 + k,
      data := if k = 0 then lineOf 0 64 (1 + 2 ^ 64 * 0x2020 + 2 ^ 256 * (0x3000 + 2 ^ 64 * 0x3004)) else 0,
      dirty := false, perms := { r := true, w := true, x := false, k := false }, keyid := 3, gen := 0, way := 0 }) }

/-- Its safe point is found and its record written; what retires SAFEPT then goes on at the next word. -/
theorem askedToSave_written : ∃ s1 s2, safePoint askedToSave 0 askedToSave.act 0 = .ok (some (0x3000, 0x3004), s1) ∧
    writePieces s1 s1.act.dom s1.core 0x2080 (safeRecord s1 s1.core s1.slot s1.act 0 false) = .ok s2 ∧
    (advance (s2.setS 7 0x2080).act .seq).pc = 0x1004 := by
  have h : (match safePoint askedToSave 0 askedToSave.act 0 with
    | .ok (p, s1) => decide (p = some (0x3000, 0x3004)) &&
      match writePieces s1 s1.act.dom s1.core 0x2080 (safeRecord s1 s1.core s1.slot s1.act 0 false) with
      | .ok s2 => decide ((advance (s2.setS 7 0x2080).act .seq).pc = 0x1004)
      | .error _ => false
    | .error _ => false) = true := by decide +kernel
  split at h
  · next p s1 hp =>
    rw [Bool.and_eq_true, decide_eq_true_eq] at h
    obtain ⟨rfl, h⟩ := h
    split at h
    · next s2 hs2 => exact ⟨s1, s2, hp, hs2, of_decide_eq_true h⟩
    · cases h
  · cases h

/-- The model keeps SAFEPT's own address for the restore routine's return. -/
theorem askedToSave_step {t : State} (h : Steps (.safept 0) askedToSave t) : t.act.saving.map (·.addr) = some 0x1000 := by
  have hs : (match exec (.safept 0) askedToSave with
    | .next t => decide (t.act.saving.map (·.addr) = some 0x1000)
    | _ => false) = true := by decide +kernel
  unfold Steps at h
  rw [h] at hs
  exact of_decide_eq_true hs

/-- Refutes O32: the descriptor holds the SAFEPT's address and so does the model's save in progress (03 R69), where the
statement keeps the address that execution has after the SAFEPT retired; on `askedToSave` these are 0x1000 and 0x1004. -/
theorem not_safePoints : ¬ Obligations.SafePoints := by
  unfold Obligations.SafePoints
  intro h
  obtain ⟨-, hasked, -⟩ := h 0 askedToSave
  obtain ⟨s1, s2, hpoint, hwritten, hnext⟩ := askedToSave_written
  have hissues : Issues (.safept 0) askedToSave := by unfold Issues; decide +kernel
  obtain ⟨-, hassisted⟩ := hasked hissues (by decide) rfl
  obtain ⟨-, -, -, -, hsaves⟩ := hassisted (by decide)
  obtain ⟨hsaved, -⟩ := hsaves 0x3000 0x3004 s1 0x2080 hpoint (by decide +kernel)
  obtain ⟨u, hretires, hstep⟩ := hsaved s2 hwritten
  have haddr := askedToSave_step hstep
  have hpc : u.act.pc = (advance (s2.setS 7 0x2080).act .seq).pc := by rw [hretires.act]
  rw [hnext] at hpc
  rw [if_neg (by decide)] at haddr
  have hkept : u.act.pc = 0x1000 := Option.some.inj haddr
  rw [hpc] at hkept
  exact absurd hkept (by decide)

end Sys2Proof.Machine
end
